-- ==== Sys2Proof/Word.lean ====
section
/-! DEFINITION. The word types of the EF960: a byte, a 32-bit register (R11), a 64-bit value. -/

namespace Sys2Proof

/-- One byte. -/
abbrev Byte := BitVec 8

/-- A register (R11: every register is 32 bits wide). -/
abbrev Word := BitVec 32

/-- A 64-bit value: an engine register, an address, a tick count. -/
abbrev Dword := BitVec 64

end Sys2Proof
end

