-- ==== Sys2Proof/Types.lean ====
section
/-! DEFINITION. The operand types of the commands: who accesses, what a mailbox command's header carries, what the block
reads of a container, what a request on the network says. -/

namespace Sys2Proof

/-- A clock source of the root PLL (R514). -/
inductive Source where
  | refclk | xo | recov
deriving DecidableEq, Repr

/-- What Sorrel reads of a command's header (R605): its mailbox, SEQ, TAG, ORDERED flag and DEADLINE_MS. -/
structure CmdCtx where
  mbx : Nat
  seq : Nat
  tag : Nat
  ordered : Bool
  deadline : Nat
deriving DecidableEq, Repr

/-- The initiator of a request: its class and index (R310, R421). -/
structure Initiator where
  cls : Nat
  index : Nat
deriving DecidableEq, Repr

/-- Who performs a register access: an initiator other than Sorrel (the host, a fabric port, an engine, debug: R685, R687)
with the tag of its request, or Sorrel (R599). -/
inductive Master where
  | host (src : Initiator) (tag : Nat)
  | sorrel
deriving DecidableEq, Repr

/-- R104, R108, R109: the clock edge of a block memory port: directly after the port's last one (`next`), and the one of the
other port's last operation (`same`). -/
structure PortEdge where
  next : Bool
  same : Bool
deriving DecidableEq, Repr

/-- R99, R102: what a block memory port that does not write does at an edge: it reads, and its output reset is asserted. -/
structure ReadControl where
  rd : Bool
  clear : Bool
deriving DecidableEq, Repr

/-- R165: the refused write of a save: its slot and which of the slot's saved frames it was (6,912 a tile). -/
structure SaveRefusal where
  slot : Nat
  frame : Nat
deriving DecidableEq, Repr

/-- A request as it reaches its target: who sent it, its tag, its device address, its length in bytes, its data and the
bytes enabled (byte `i` of `data` is enabled when bit `i` of `enables` is set). -/
structure Req where
  src : Initiator
  tag : Nat
  addr : Nat
  size : Nat
  data : List Byte
  enables : Nat
deriving DecidableEq, Repr

/-- A section table entry (R574); `zeroOk` says its zero fields are zero. -/
structure SectionEntry where
  kind : Nat
  zeroOk : Bool
  offset : Nat
  length : Nat
deriving DecidableEq, Repr

/-- A container header as read (R573, R577): its fields, whether its zero fields are zero, SHA-384 of its PUBLIC_KEY and
whether its signature verifies with that key. -/
structure Header where
  magic : Nat
  version : Nat
  headerLen : Nat
  deviceType : Nat
  signed : Bool
  unitBound : Bool
  debug : Bool
  chainMore : Bool
  zeroOk : Bool
  unitId : Nat
  totalLen : Nat
  frameCount : Nat
  startOrder : Nat
  sectionCount : Nat
  stallTimeout : Nat
  imageVersion : Nat
  buildId : Nat
  sections : List SectionEntry
  keyHash : BitVec 384
  sigOk : Bool
deriving DecidableEq, Repr

/-- A personality image header (R146); `zeroOk` says its zero fields are zero. -/
structure SpanHeader where
  kind : Nat
  version : Nat
  persId : Nat
  homeSlot : Nat
  tiles : Nat
  startOrder : Nat
  spanCredits : Nat
  stateless : Bool
  pllMask : Nat
  frameCount : Nat
  interfaceId : Nat
  tileCrc : List Nat
  zeroOk : Bool
deriving DecidableEq, Repr

/-- A rights entry as a RIGHTS section or command 0x0D01 writes it (R426, R441, R443). -/
structure RightsEntry where
  en : Bool
  lock : Bool
  rd : Bool
  wr : Bool
  cls : Nat
  idxLo : Nat
  idxHi : Nat
  base : Nat
  limit : Nat
deriving DecidableEq, Repr

/-- A pin of the PINS section (R223, R575, R673): `pull` is 0 for none, 1 for pull-up, 2 for pull-down, 3 for a keeper, 4
for a pin marked unused. -/
structure PinSetting where
  pin : Nat
  standard : Nat
  sched : Bool
  safeLevel : Nat
  pull : Nat
deriving DecidableEq, Repr

/-- A fabric PLL of the SETUP section (R73, R75): outputs as (OUT_EN, PHASE, DIV). -/
structure PllSetting where
  pll : Nat
  m : Nat
  d : Nat
  outs : List (Bool × Nat × Nat)
deriving DecidableEq, Repr

/-- A slot record of the slot table (R138); direction maps as (tile, edge, map), edge 0 north, 1 east, 2 south, 3 west. -/
structure SlotRecord where
  slotId : Nat
  die : Bool
  initEnable : Bool
  evictIdle : Bool
  col0 : Nat
  row0 : Nat
  col1 : Nat
  row1 : Nat
  idleTime : Nat
  interfaceId : Nat
  dirs : List (Nat × Nat × BitVec 512)
deriving DecidableEq, Repr

/-- A DRAM channel of a BOARD section (R398, R405, R406). -/
structure BoardChannel where
  channel : Nat
  populated : Bool
  ranks : Nat
  rdimm : Bool
  density : Nat
  tim0 : Nat
  tim1 : Nat
  tim2 : Nat
  /-- Training values by register offset within the channel (R417). -/
  training : List (Nat × Nat)
deriving DecidableEq, Repr

/-- The content of a section, as its last byte has arrived (R575, R637). -/
inductive Section where
  /-- SETTINGS: writes of FW registers, as (BAR0 offset, value), and the scratch owners and QM banks it names. -/
  | settings (writes : List (Nat × Nat))
  /-- BOARD: the channels, and the transmit taps by lane (R447). -/
  | board (channels : List BoardChannel) (taps : List (Nat × Nat))
  | rights (entries : List (Nat × RightsEntry))
  | pins (pins : List PinSetting)
  | setup (tiles clusters : List Nat) (plls : List PllSetting) (dieLines : List (Nat × Nat)) (inbound : List (Nat × Nat))
  /-- The bytes of the slot table (R138). -/
  | slotTable (data : List Byte)
  | frames
  | span
  | code
  | fwInfo (svn setFmt setFmtMin : Nat)
deriving DecidableEq, Repr

/-- A copy of the boot flash directory (R570, R636): whether it is valid, which of the two copies it is, and its fields. -/
structure Directory where
  valid : Bool := false
  second : Bool := false
  seq : BitVec 32 := 0
  baseAOff : Nat := 0
  baseASize : Nat := 0
  baseBOff : Nat := 0
  baseBSize : Nat := 0
  baseActive : Bool := false
  baseTrial : Nat := 0
  fwAOff : Nat := 0
  fwASize : Nat := 0
  fwBOff : Nat := 0
  fwBSize : Nat := 0
  fwActive : Bool := false
  fwTrial : Nat := 0
  trialWindow : Nat := 0
  setAOff : Nat := 0
  setBOff : Nat := 0
  setActive : Bool := false
deriving DecidableEq, Repr

/-- Boot flash as it is found at a start when it was programmed from outside: the 128 bytes of each copy of the directory
(R570), the versions in its firmware
slots (0 for a slot that fails R578), and its two settings records with their formats (R644). -/
structure Flash where
  dirA : List Byte
  dirB : List Byte
  fwAVersion : Nat
  fwASvn : Nat
  fwBVersion : Nat
  fwBSvn : Nat
  setAFmt : Nat
  setA : Nat
  setBFmt : Nat
  setB : Nat
deriving DecidableEq, Repr

/-- What Sorrel computes over a container staged in DRAM (R148, R596, R651): SHA-384 of its PUBLIC_KEY, whether its signature
verifies with that key, whether every section digest matches, and the code a later check ends with (0 for none). -/
structure Staged where
  keyHash : BitVec 384
  sigOk : Bool
  digestsOk : Bool
  laterCode : Nat
deriving DecidableEq, Repr

/-- How a logic frame configures a block memory (R99, R100, R103): RDW_MODE 0 WRITE_FIRST, 1 READ_FIRST, 2 NO_CHANGE.
R140 prints no layout of logic frames 4 to 13,567, so a frame command says what its frame configures. -/
structure MemSetting where
  mem : Nat
  ecc : Bool
  widthA : Nat
  widthB : Nat
  rdwA : Nat
  rdwB : Nat
  lineA : Nat
  lineB : Nat
  /-- R112: memories cascaded from this one on, itself counted; 0 or 1 for none. -/
  cascade : Nat
deriving DecidableEq, Repr

/-- A response that a target gives a request (R310, R312): to whom, its tag, its response code, QOUT, and its data. -/
structure Answer where
  src : Initiator
  tag : Nat
  code : Nat
  qout : Nat
  data : List Byte
deriving DecidableEq, Repr

/-- What a local port is given to inject (R310 to R313): the port's ID; the source class and index where the port does
not fix them; opcode, tag, device address (or queue number), SIZE; for a response its code, QOUT and the port ID of the
request's source; and the data units. -/
structure Inject where
  port : Nat
  src : Initiator
  opcode : Nat
  tag : Nat
  addr : Nat
  size : Nat
  resp : Nat
  qout : Nat
  dest : Nat
  data : List (BitVec 256)
deriving DecidableEq, Repr

end Sys2Proof
end

