-- ==== Sys2Proof/Syntax.lean ====
section
/-! DEFINITION. The commands of the EF960, one constructor per row of spec/opcode_table.json, with the operands the
rules give them. A row of a mailbox opcode carries the header Sorrel reads (`q`) and the command's fields; a row of an
event carries the objects it happens to and what the outside world brings with it. -/

namespace Sys2Proof

/-- One command of the block. -/
inductive Instr where
  /-- POR_N_RELEASE (R652). Supplies in range and POR_N released: COMPAT, CFG_MODE and PULL_CFG_N are sampled and clock start-up begins in LOAD. -/
  | porNRelease (compat : Bool) (cfgMode : Nat) (pull : Bool)
  /-- POR_N_ASSERT (R652). POR_N asserted takes the device to OFF and loses all state except fuses. -/
  | porNAssert
  /-- SUPPLY_MONITOR_TRIP (R678). A monitored supply stays below its trip level for 2 µs and resets the device as POR_N low does, clearing RWS fields. -/
  | supplyMonitorTrip
  /-- RESET_RELEASE_TIMER (R678). 1 ms after every monitored supply stands above its release level with POR_N high, the internal reset releases as a POR_N release. -/
  | resetReleaseTimer (compat : Bool) (cfgMode : Nat) (pull : Bool)
  /-- CFG_RESTART (R590). CFG_RESTART_N held low for at least 1 µs restarts the device into LOAD with the wipes of R437. -/
  | cfgRestart (cfgMode : Nat) (pull : Bool)
  /-- HOLD_N_LOW (R659). HOLD_N driven low from outside for at least 100 ns takes the device into HOLD with cause 0x02. -/
  | holdNLow (ns : Nat)
  /-- HOLD_TILE_IDLE (R657). After HOLD entry a tile's fabric port becomes idle, so the tile stops its clocks and sets HOLD_STOPPED. -/
  | holdTileIdle (t : Nat)
  /-- HOLD_TILE_TIMEOUT (R657). 4,096 NoC cycles after HOLD entry, tiles still busy keep running and are counted in BUSY_TILES. -/
  | holdTileTimeout
  /-- REGISTER_WRITE (R11). A write to a register field with no row of its own takes effect under its access type; FW fields, same-cycle writes and bad sizes follow R11 to R15. -/
  | registerWrite (m : Master) (off size val : Nat) (same : Bool)
  /-- LATCHED_LO_READ (R687). A read of a LO register of a latched pair returns its bits and latches the HI half for that source port. -/
  | latchedLoRead (src : Initiator) (tag off : Nat)
  /-- DIVIDER_RAMP_STEP (R520). After its wait of 256 or 1,024 cycles a ramping divider moves one 1/16 step toward its target; the ramp may end here. -/
  | dividerRampStep (d : Nat)
  /-- XO_EDGE_TIMEOUT (R522). XO shows no edges within 10 ms of being started, and its test fails. -/
  | xoEdgeTimeout
  /-- SOURCE_TEST_DONE (R522). A comparison or in-service test of a clock source completes; it judges the source stable or fails it, recording LAST_PPM. -/
  | sourceTestDone (t : Nat) (ppm : Int) (missed : Bool)
  /-- ROOT_PLL_LOCK (R517). The root PLL locks or relocks to a judged source; on return from COAST, CLK_COAST clears and the dividers ramp back. -/
  | rootPllLock
  /-- CLOCK_MONITOR_TRIP (R523). The monitor trips on the source in use by missing edge, frequency or RECOV link loss; the device switches source, coasts or resets by policy. -/
  | clockMonitorTrip (cause : Nat)
  /-- VCO_GLIDE_DONE (R526). The 20 µs open-loop VCO glide to 3.0 GHz completes and the VCO parks. -/
  | vcoGlideDone
  /-- CLK_TRIM_DIV_WRITE (R537). A write of CLK_TRIM_DIV is discarded out of range, or in TRIM starts a ramp to the new ratio. -/
  | clkTrimDivWrite (d v : Nat)
  /-- CLK_STATUS (R539). Command 0x0201 returns clock status, control, ratios and LAST_PPM. -/
  | clkStatus (q : CmdCtx)
  /-- CLK_SOURCE_SET (R539). Command 0x0202 sets PRIMARY, RECOV_PORT, XO_WARM, AUTO_RETURN and POLICY, switching at once through the test of R529 when running. -/
  | clkSourceSet (q : CmdCtx) (primary recovPort xoWarm autoReturn policy : Nat)
  /-- CLK_TRIM_SET (R539). Command 0x0203 sets the TRIM ratios of domains 1 to 3. -/
  | clkTrimSet (q : CmdCtx) (r1 r2 r3 : Nat)
  /-- CLK_TEST (R539). Command 0x0204 measures the difference between two sources without changing the selection. -/
  | clkTest (q : CmdCtx) (a b : Nat)
  /-- CLK_RETURN (R529). Command 0x0205 orders the return from COAST or the fallback to PRIMARY. -/
  | clkReturn (q : CmdCtx)
  /-- GOV_DECISION (R544). Each timebase cycle the current governor books returns, removes withdrawals, enters requests, starts a waiting slew stage or grants queue heads. -/
  | govDecision
  /-- GOV_LONG_WAIT (R548). The head of a supply queue has waited WAIT_WARN × 1,024 ticks, so LONG_WAIT is set and event 4 raised. -/
  | govLongWait (sp : Nat)
  /-- CURRENT_READY (R541). After CLOCK sets the governor starts granting: CURRENT sets and the standing reservation is booked. -/
  | currentReady
  /-- CUR_CLR_PEAK (R560). Writing CLR_PEAK sets PEAK to BOOKED for a supply. -/
  | curClrPeak (sp : Nat)
  /-- CUR_STATUS (R563). Command 0x0301 returns the accounts and CUR_EVT. -/
  | curStatus (q : CmdCtx)
  /-- CUR_QUEUE_READ (R563). Command 0x0302 returns up to 6 queue entries of a supply. -/
  | curQueueRead (q : CmdCtx) (sp first : Nat)
  /-- CUR_HOLDINGS (R563). Command 0x0303 returns the credits held by each requester kind. -/
  | curHoldings (q : CmdCtx) (sp : Nat)
  /-- KEY_ATTEMPT_DONE (R431). A scrambler key attempt completes: KEY_READY sets and held channel enables proceed, or after three failures KEY_FAIL sets and event 322 is raised. -/
  | keyAttemptDone (pass : Bool)
  /-- SCM_BYPASS_WRITE (R433). A Sorrel write of BYPASS forces the keystream to zero in BLANK or DEVELOP with all channels OFF, and is otherwise discarded. -/
  | scmBypassWrite (v : Bool)
  /-- ACC_TABLE_PROPAGATED (R425). A rights-table change reaches every source port copy and UPDATING clears. -/
  | accTablePropagated
  /-- ACC_SET_ENTRY (R443). Command 0x0D01 writes one rights-table entry unless it is locked. -/
  | accSetEntry (q : CmdCtx) (entry ctl base limit : Nat)
  /-- ACC_GET_ENTRY (R443). Command 0x0D02 returns one rights-table entry. -/
  | accGetEntry (q : CmdCtx) (entry : Nat)
  /-- ACC_VIOL_LOG (R443). Command 0x0D03 returns ACC_STAT and the captured address. -/
  | accViolLog (q : CmdCtx)
  /-- LCS_ARM (R436). Command 0x0D04 arms a lifecycle change in SAFE, returns a nonce and starts a 1 s timer. -/
  | lcsArm (q : CmdCtx) (target : Nat)
  /-- LCS_COMMIT (R436). Command 0x0D05 with matching target and nonce starts blowing the target fuse group after 1 ms. -/
  | lcsCommit (q : CmdCtx) (target nonce : Nat)
  /-- LCS_ARM_TIMEOUT (R436). The 1 s arm timer expires and the arm is discarded. -/
  | lcsArmTimeout
  /-- LCS_FUSE_BLOWN (R436). One fuse of the target group finishes blowing; after the third the device wipes and starts in the new state. -/
  | lcsFuseBlown
  /-- SCM_STATUS (R443). Command 0x0D06 returns SCM_STAT and LCS_STATE. -/
  | scmStatus (q : CmdCtx)
  /-- FW_BOOT_START (R639). After CLOCK sets a keystone chooses its firmware slot, writes the directory if needed and starts reading it. -/
  | fwBootStart (flash : Option Flash)
  /-- CFG_HEADER_CHECK_DONE (R578). The header check of a container completes and passes, or ends the load with its code. -/
  | cfgHeaderCheckDone (h : Header)
  /-- CFG_SECTION_END (R580). The last byte of a section arrives: its digest is checked and the section is applied, setting SORREL at the end of a firmware container. -/
  | cfgSectionEnd (c : Section) (digestOk : Bool)
  /-- CFG_FRAME (R582). A base-image frame is checked and written through its die's configuration port, or the load fails. -/
  | cfgFrame (head : List Byte) (v : BitVec 640) (mems : List MemSetting)
  /-- CFG_STALL_TIMEOUT (R583). The source delivers no byte for STALL_TIMEOUT and the load ends with EARLY_END. -/
  | cfgStallTimeout
  /-- CFG_NO_IMAGE_TIMEOUT (R583). The source gives no byte within 100 ms of the first read and the start ends with NO_IMAGE. -/
  | cfgNoImageTimeout
  /-- CHAIN_CLK_PAUSE_END (R569). The keystone's 10 ms stop of CFG_CLK after a container header ends and data resumes. -/
  | chainClkPauseEnd
  /-- STARTUP_STEP (R586). A START_ORDER step of the base load begins 8 line-0 cycles after the previous; after the fourth, FABRIC sets, the mode becomes RUN and CFG_DONE rises. -/
  | startupStep
  /-- CFG_PLL_LOCK_TIMEOUT (R587). A fabric PLL is not locked 10 ms after its grant and the load ends with PLL_LOCK. -/
  | cfgPllLockTimeout (n : Nat)
  /-- CFG_FAIL_WIPE_DONE (R589). The wipe after a failed load ends; the mode becomes SAFE with event 6, or the active slot is loaded after a failed trial. -/
  | cfgFailWipeDone
  /-- CFG_ABORT (R590). Writing ABORT ends a running load with HOST_ABORT. -/
  | cfgAbort
  /-- CFG_STATUS (R596). Command 0x0401 returns the configuration status and directory fields. -/
  | cfgStatus (q : CmdCtx)
  /-- CFG_LOAD_HOST (R596). Command 0x0402 loads a base image from DRAM in SAFE. -/
  | cfgLoadHost (q : CmdCtx) (addr len : Nat)
  /-- CFG_RELOAD (R596). Command 0x0403 sets or clears HOLD_SAFE and restarts the device. -/
  | cfgReload (q : CmdCtx) (hold : Nat)
  /-- CFG_BASE_STAGE (R596). Command 0x0404 checks a base container in DRAM and writes it to the inactive base slot. -/
  | cfgBaseStage (q : CmdCtx) (addr len : Nat) (st : Staged)
  /-- CFG_BASE_TRIAL (R596). Command 0x0405 sets BASE_TRIAL to 1 and restarts. -/
  | cfgBaseTrial (q : CmdCtx)
  /-- CFG_OWNER_KEY (R596). Command 0x0406 fuses the owner key hash in BLANK. -/
  | cfgOwnerKey (q : CmdCtx) (addr : Nat)
  /-- TRIAL_WINDOW_WARNING (R642). One tenth of the trial window remains and event 328 is raised. -/
  | trialWindowWarning
  /-- TRIAL_WINDOW_EXPIRY (R642). The trial window ends unconfirmed; FW_TRIAL or BASE_TRIAL becomes 3 and the device restarts. -/
  | trialWindowExpiry
  /-- ARB_STEP_BLOWN (R646). An anti-rollback step finishes blowing; COUNT rises and event 327 is raised when COUNT reaches the active SVN. -/
  | arbStepBlown
  /-- FW_STAGE (R651). Command 0x0C01 checks a firmware container in DRAM and writes it to the inactive slot. -/
  | fwStage (q : CmdCtx) (addr len : Nat) (st : Staged)
  /-- FW_TRIAL (R651). Command 0x0C02 stages a firmware trial, optionally with a base trial, and restarts. -/
  | fwTrial (q : CmdCtx) (window withBase : Nat)
  /-- HEALTH_CONFIRM (R643). Command 0x0C03 confirms every running trial in one directory write and advances the counter. -/
  | healthConfirm (q : CmdCtx)
  /-- FW_STATUS (R651). Command 0x0C04 returns the firmware slots, trial and counter. -/
  | fwStatus (q : CmdCtx)
  /-- FPLL_APPLY (R70). Writing APPLY applies fabric PLL settings, refusing them with RANGE_ERR or relocking when D or M change. -/
  | fpllApply (n : Nat)
  /-- FPLL_ENABLE (R76). Setting PLL_EN requests 1 credit; the PLL starts once granted. -/
  | fpllEnable (n : Nat)
  /-- FPLL_LOCK (R71). A fabric PLL's phase error stays in its window for 1,024 reference cycles; LOCK sets and its outputs start. -/
  | fpllLock (n : Nat)
  /-- FPLL_LOCK_LOSS (R71). A fabric PLL loses lock or its reference changes; outputs stop low, LOST sets and event 8 is raised. -/
  | fpllLockLoss (n : Nat)
  /-- TILE_ENABLE (R78). A CFG_TILE_CMD enable requests 16 credits for a tile, or latches PENDING_ENABLE while it drains. -/
  | tileEnable (t : Nat)
  /-- TILE_DISABLE (R78). A CFG_TILE_CMD disable withdraws a waiting request or raises the fence and starts the drain. -/
  | tileDisable (t : Nat)
  /-- TILE_DRAIN_IDLE (R78). A draining tile's fabric port becomes idle; its clocks stop and its credits return. -/
  | tileDrainIdle (t : Nat)
  /-- TILE_DRAIN_TIMEOUT (R78). A tile's port stays busy for 4,096 NoC cycles; the disable is refused and event 10 raised. -/
  | tileDrainTimeout (t : Nat)
  /-- FABRIC_PORT_REQUEST (R87). The fabric sends a request packet through its port, with source fields overwritten or discarded as a protocol violation. -/
  | fabricPortRequest (t : Nat) (hd : BitVec 256) (data : List (BitVec 256)) (check : List (BitVec 10))
  /-- FABRIC_PORT_RESPONSE (R90). The fabric answers an inbound request through FP_TS. -/
  | fabricPortResponse (t : Nat) (src : Initiator) (tag code : Nat) (data : List Byte)
  /-- FABRIC_PORT_CREDIT_RETURN (R89). The fabric returns an inbound request credit to its port. -/
  | fabricPortCreditReturn (t n : Nat)
  /-- FABRIC_INBOUND_TIMEOUT (R334). An inbound request unanswered by the fabric for 2^18 NoC cycles is answered DOMAIN_OFF by the pier. -/
  | fabricInboundTimeout (t : Nat) (src : Initiator) (tag : Nat)
  /-- BRAM_READ (R102). A block-memory port reads a word, delivering corrected data with SBE or DBE two cycles later. -/
  | bramRead (t m : Nat) (portB : Bool) (addr : Nat) (c : ReadControl) (e : PortEdge) (upset : BitVec 72)
  /-- BRAM_WRITE (R108). A block-memory port writes a word, as a read-modify-write when it is partial under ECC. -/
  | bramWrite (t m : Nat) (portB : Bool) (addr en data : Nat) (clear : Bool) (e : PortEdge) (upset : BitVec 72)
  /-- BRAM_SCRUB_SLOT (R114). A block memory's maintenance slot occurs every 256 line-0 cycles and the scrubber reads or writes back one word. -/
  | bramScrubSlot (upset : List (Nat × BitVec 72))
  /-- BRAM_SCRUB_GAP_END (R115). The wait between block-memory scrub bursts ends and the next burst requests its credit. -/
  | bramScrubGapEnd
  /-- BRAM_CLR_COUNTS (R125). Writing CLR_COUNTS clears the block-memory error counts. -/
  | bramClrCounts
  /-- SPAN_PERS_INSTALL (R148). Command 0x0501 verifies and installs a personality. -/
  | spanPersInstall (q : CmdCtx) (pers maxRes depth stageAddr stageLen imageAddr stateAddr : Nat) (st : Staged)
  /-- SPAN_PERS_GET (R181). Command 0x0502 returns a personality descriptor. -/
  | spanPersGet (q : CmdCtx) (pers : Nat)
  /-- SPAN_BIND (R159). Command 0x0503 binds a queue to a personality or unbinds it. -/
  | spanBind (q : CmdCtx) (queue pers : Nat)
  /-- SPAN_SLOT_ENABLE (R165). Command 0x0504 enables or disables a slot. -/
  | spanSlotEnable (q : CmdCtx) (slot en : Nat)
  /-- SPAN_LOAD (R180). Command 0x0505 demands a personality, optionally pinning it. -/
  | spanLoad (q : CmdCtx) (pers pin : Nat)
  /-- SPAN_EVICT (R165). Command 0x0506 evicts the span in a slot. -/
  | spanEvict (q : CmdCtx) (slot : Nat)
  /-- SPAN_UNPIN (R180). Command 0x0507 unpins a personality. -/
  | spanUnpin (q : CmdCtx) (pers : Nat)
  /-- SPAN_PERS_RESET (R180). Command 0x0508 clears BLOCKED and STATE_LOST and optionally STATE_VALID. -/
  | spanPersReset (q : CmdCtx) (pers discard : Nat)
  /-- SPAN_SLOT_STATUS (R180). Command 0x0509 returns a slot's state and statistics. -/
  | spanSlotStatus (q : CmdCtx) (slot : Nat)
  /-- SPAN_PERS_REMOVE (R180). Command 0x050A removes a personality. -/
  | spanPersRemove (q : CmdCtx) (pers : Nat)
  /-- SPAN_IDLE_TIMER (R162). A resident span has stayed idle for IDLE_TIME × 1,024 NoC cycles and its slot is evaluated. -/
  | spanIdleTimer (slot : Nat)
  /-- SPAN_MAX_RES_EXPIRY (R163). A span's residency reaches MAX_RES × 65,536 NoC cycles and its slot is evaluated. -/
  | spanMaxResExpiry (slot : Nat)
  /-- SPAN_HEADER_CHECKED (R170). 128 NoC cycles after the grant the stored header is checked and the frame stream starts, or the load aborts with HEADER. -/
  | spanHeaderChecked (slot : Nat) (upset : List (Nat × BitVec 640)) (acts : Bool)
  /-- SPAN_FRAME (R153). A span frame is checked and written; after the last the slot enters STARTING. -/
  | spanFrame (slot : Nat) (upset : List (Nat × BitVec 640)) (acts : Bool) (crcUpset : List (Nat × BitVec 640)) (crcActs : Bool) (mems : List MemSetting)
  /-- SPAN_START_STEP (R150). A START_ORDER step of a span begins; after the fourth the span is RESIDENT and its queues unpaused. -/
  | spanStartStep (slot : Nat)
  /-- SPAN_DRAIN_IDLE (R165). All fabric ports of a draining slot are idle; the span hold is asserted and the save starts. -/
  | spanDrainIdle (slot : Nat)
  /-- SPAN_DRAIN_TIMEOUT (R165). A slot's ports stay busy for 4,096 NoC cycles and the drain is refused. -/
  | spanDrainTimeout (slot : Nat)
  /-- SPAN_SAVE_DONE (R155). All state frames of a span are written; STATE_VALID sets and the slot becomes EMPTY or DISABLED. -/
  | spanSaveDone (slot : Nat) (upset : List (Nat × BitVec 72))
  /-- SPAN_SAVE_FAIL (R165). A state write is answered other than OK; the state is lost and the personality blocked. -/
  | spanSaveFail (x : SaveRefusal)
  /-- SPAN_WIPE_DONE (R154). Every frame written by an aborted or disabled load has been wiped and the slot becomes EMPTY or DISABLED. -/
  | spanWipeDone (slot : Nat)
  /-- ALU (R233). Register operation selected by FN. -/
  | alu (n k : Nat)
  /-- ADDI (R232). Adds a sign-extended immediate. -/
  | addi (n k : Nat)
  /-- ANDI (R232). ANDs a zero-extended immediate. -/
  | andi (n k : Nat)
  /-- ORI (R232). ORs a zero-extended immediate. -/
  | ori (n k : Nat)
  /-- XORI (R232). XORs a zero-extended immediate. -/
  | xori (n k : Nat)
  /-- SHI (R234). Shifts or rotates by an immediate amount. -/
  | shi (n k : Nat)
  /-- MOVW (R237). Places a 16-bit immediate in one lane of a register. -/
  | movw (n k : Nat)
  /-- EXT (R236). Extracts a bit field. -/
  | ext (n k : Nat)
  /-- INS (R236). Inserts a bit field. -/
  | ins (n k : Nat)
  /-- GET (R238). Reads an engine value selected by IMM. -/
  | get (n k : Nat)
  /-- LD (R241). Loads from local data memory. -/
  | ld (n k : Nat)
  /-- ST (R241). Stores to local data memory. -/
  | st (n k : Nat)
  /-- TLD (R242). Table lookup load from local data memory. -/
  | tld (n k : Nat)
  /-- BEQ (R239). Branches when equal. -/
  | beq (n k : Nat)
  /-- BNE (R239). Branches when not equal. -/
  | bne (n k : Nat)
  /-- BLT (R239). Branches when less, signed. -/
  | blt (n k : Nat)
  /-- BGE (R239). Branches when greater or equal, signed. -/
  | bge (n k : Nat)
  /-- BLTU (R239). Branches when less, unsigned. -/
  | bltu (n k : Nat)
  /-- BGEU (R239). Branches when greater or equal, unsigned. -/
  | bgeu (n k : Nat)
  /-- BZ (R239). Branches when zero. -/
  | bz (n k : Nat)
  /-- BNZ (R239). Branches when not zero. -/
  | bnz (n k : Nat)
  /-- J (R232). Jumps to an absolute target. -/
  | j (n k : Nat)
  /-- JAL (R232). Jumps and links. -/
  | jal (n k : Nat)
  /-- JR (R232). Jumps to a register value. -/
  | jr (n k : Nat)
  /-- WAIT (R243). Enters WAIT_TICK for a target tick. -/
  | wait (n k : Nat)
  /-- WAITE (R244). Enters WAIT_EVENT for an event line in MASK. -/
  | waite (n k : Nat)
  /-- EVCLR (R244). Clears event pending bits. -/
  | evclr (n k : Nat)
  /-- DLN (R245). Sets the context's deadline. -/
  | dln (n k : Nat)
  /-- FENCE (R250). Waits until no posted request is outstanding. -/
  | fence (n k : Nat)
  /-- HALT (R240). Moves the context to IDLE. -/
  | halt (n k : Nat)
  /-- POP (R246). Pops a queue item into a register group. -/
  | pop (n k : Nat)
  /-- POPR (R246). Pops a queue named in a register. -/
  | popr (n k : Nat)
  /-- PUSH (R247). Pushes a register group to a queue. -/
  | push (n k : Nat)
  /-- PUSHR (R247). Pushes to a queue named in a register. -/
  | pushr (n k : Nat)
  /-- LDN (R248). Loads 8 bytes over the NoC. -/
  | ldn (n k : Nat)
  /-- STN (R248). Stores 8 bytes over the NoC. -/
  | stn (n k : Nat)
  /-- LDN4 (R248). Loads 32 bytes over the NoC into a group. -/
  | ldn4 (n k : Nat)
  /-- STN4 (R248). Stores 32 bytes over the NoC from a group. -/
  | stn4 (n k : Nat)
  /-- AADD (R249). Atomic add in scratch. -/
  | aadd (n k : Nat)
  /-- ASWP (R249). Atomic swap in scratch. -/
  | aswp (n k : Nat)
  /-- EDGE (R251). Issues one edge event to a pin scheduler. -/
  | edge (n k : Nat)
  /-- EDGEL (R251). Issues an edge from a list entry and advances the pointer. -/
  | edgel (n k : Nat)
  /-- EDGER (R251). Issues an edge from an entry held in a register. -/
  | edger (n k : Nat)
  /-- ILLEGAL_INSTRUCTION (R231). An undefined instruction is fetched and faults the context with ILLEGAL. -/
  | illegalInstruction (n k : Nat)
  /-- ENGINE_NOC_RESPONSE (R199). A NoC response reaches an engine context, waking a blocked one or setting POSTED_ERR. -/
  | engineNocResponse (n tag code qout : Nat) (data : List Byte)
  /-- WAIT_TICK_EXPIRY (R193). The tick count reaches a context's WAIT target; it becomes READY and its deadline is reset. -/
  | waitTickExpiry (n k : Nat)
  /-- DEADLINE_MISS (R192). The tick count passes a running context's deadline; DL_MISS, CTX_MISS and event 16 + n, and a fault under MISS_FAULT. -/
  | deadlineMiss (n k : Nat)
  /-- EDGE_EVENT_ARRIVE (R203). An issued edge event reaches its pin scheduler 20 ticks after issue and occupies a slot. -/
  | edgeEventArrive (p : Nat)
  /-- EDGE_RELEASE (R203). 12 ticks before its time a scheduler releases an event to the pin's delay line. -/
  | edgeRelease (p : Nat)
  /-- EDGE_FIRE (R206). An edge reaches the ball at its tick and sub-tick and the pin takes the new level. -/
  | edgeFire (p : Nat)
  /-- EDGE_CREDIT_RETURN (R203). A freed slot's credit reaches the owner engine, reissuing a context stalled in WAIT_PIN. -/
  | edgeCreditReturn (p : Nat)
  /-- ENG_MEM_WALK (R187). In every 256th idle engine cycle the walker reads one local memory word and writes it back if corrected. -/
  | engMemWalk (n : Nat) (d : Bool) (upset : List (Nat × BitVec 72))
  /-- ENG_MEM_WRITEBACK (R186). A corrected local memory word is written back in the memory's next cycle with no access. -/
  | engMemWriteback (n : Nat) (d : Bool)
  /-- ENG_CLR_COUNTS (R214). Writing CLR_COUNTS clears an engine's ECC counts. -/
  | engClrCounts (n : Nat)
  /-- CLUSTER_ENABLE (R211). An ENG_CL_CMD enable requests 11 credits, cancels a pending disable, or latches PENDING_ENABLE. -/
  | clusterEnable (c : Nat)
  /-- CLUSTER_DISABLE (R211). An ENG_CL_CMD disable withdraws the request, marks DISABLE_PENDING, or starts parking. -/
  | clusterDisable (c : Nat)
  /-- CLUSTER_WIPE_DONE (R211). A cluster's memory wipe ends; it becomes ON with ENG_CLUSTER set, or OFF if a disable is pending. -/
  | clusterWipeDone (c : Nat)
  /-- CLUSTER_PARKED (R211). Every context of a parking cluster is IDLE, FAULTED or PARKED and the fence rises. -/
  | clusterParked (c : Nat)
  /-- CLUSTER_PARK_TIMEOUT (R211). Parking lasts 65,536 engine cycles and the disable is refused. -/
  | clusterParkTimeout (c : Nat)
  /-- CLUSTER_DRAIN_IDLE (R211). A draining cluster port has no request outstanding; clocks stop and credits return. -/
  | clusterDrainIdle (c : Nat)
  /-- CLUSTER_DRAIN_TIMEOUT (R211). A cluster port stays busy for 4,096 NoC cycles and the disable is refused. -/
  | clusterDrainTimeout (c : Nat)
  /-- ENG_LOAD (R225). Command 0x0701 loads engine local memory from device memory. -/
  | engLoad (q : CmdCtx) (n mem offset len src : Nat)
  /-- ENG_CTX_START (R194). Command 0x0702 starts a context with PC, deadline and v0. -/
  | engCtxStart (q : CmdCtx) (n k pc : Nat) (deadline v0 : BitVec 64)
  /-- ENG_CTX_STOP (R194). Command 0x0703 stops a context at its next wait or now. -/
  | engCtxStop (q : CmdCtx) (n k mode : Nat)
  /-- ENG_CTX_READ (R225). Command 0x0704 returns a context's state and registers. -/
  | engCtxRead (q : CmdCtx) (n k first : Nat)
  /-- ENG_CLUSTER_ENABLE (R225). Command 0x0705 enables or disables a cluster. -/
  | engClusterEnable (q : CmdCtx) (c en : Nat)
  /-- ENG_PIN_ASSIGN (R201). Command 0x0706 sets a pin's owner and modes. -/
  | engPinAssign (q : CmdCtx) (p owner ovf late : Nat)
  /-- ENG_MEM_READ (R225). Command 0x0707 reads 32 bytes of engine memory. -/
  | engMemRead (q : CmdCtx) (n mem offset : Nat)
  /-- ENG_STATUS (R225). Command 0x0708 returns a cluster's status. -/
  | engStatus (q : CmdCtx) (c : Nat)
  /-- QUEUE_PUSH (R264). A push request reaches its queue manager half and is applied through the checks of R264. -/
  | queuePush (r : Req) (half : Nat)
  /-- QUEUE_POP (R264). A pop request reaches its queue manager half and is applied through the checks of R264. -/
  | queuePop (r : Req) (half : Nat)
  /-- QUEUE_STALE_TIMER (R271). A queue's stale timer reaches STALE_US, setting STALE and raising the group cause. -/
  | queueStaleTimer (q : Nat)
  /-- DOORBELL_PUSH (R275). A QDB_PUSH_HI write starts a read of the item in device memory. -/
  | doorbellPush (q hi : Nat)
  /-- DOORBELL_READ_RESPONSE (R275). The doorbell's source read is answered; the item is pushed, or DB_ERR raised. -/
  | doorbellReadResponse (q resp : Nat) (item : BitVec 256)
  /-- DOORBELL_POP (R276). A QDB_POP_HI write performs a host-class pop and writes the first half of the record. -/
  | doorbellPop (q hi : Nat)
  /-- DOORBELL_RECORD_WRITTEN (R276). The first record write is answered and the second half with DONE is written. -/
  | doorbellRecordWritten (q resp : Nat)
  /-- QUEUE_SPILL_DONE (R281). Every write of a spilled page is answered; the entry becomes DRAM and the page returns, or the queue faults. -/
  | queueSpillDone (v resp : Nat)
  /-- QUEUE_PREFETCH_DONE (R282). A fetched page arrives and is checked; the entry becomes SCRATCH and held pops are served, or the queue faults. -/
  | queuePrefetchDone (v resp : Nat)
  /-- QM_PAGE_COPY_DONE (R285). A page copied out of a returning bank is in place in another bank. -/
  | qmPageCopyDone (v : Nat)
  /-- QM_AUTO_GRANT_BANK0 (R279). Once SCRATCH sets, Sorrel grants bank 0 to the queue manager on its own. -/
  | qmAutoGrantBank0
  /-- QM_STALE_EN_WRITE (R271). Writing STALE_EN stops every stale timer, or restarts armed timers from zero. -/
  | qmStaleEnWrite (en : Bool)
  /-- QM_GRP_CLR_COUNTS (R297). Writing CLR_COUNTS clears a queue group's counters. -/
  | qmGrpClrCounts (g : Nat)
  /-- QUEUE_CREATE (R301). Command 0x0601 creates a queue. -/
  | queueCreate (q : CmdCtx) (queue access prefetch capacity base count stale flags : Nat)
  /-- QUEUE_DESTROY (R301). Command 0x0602 destroys a queue. -/
  | queueDestroy (q : CmdCtx) (queue : Nat)
  /-- QUEUE_GET (R301). Command 0x0603 returns a descriptor or LAST_VALUE. -/
  | queueGet (q : CmdCtx) (queue select : Nat)
  /-- QUEUE_SET (R301). Command 0x0604 changes a queue's settings. -/
  | queueSet (q : CmdCtx) (queue access prefetch stale flags : Nat)
  /-- QUEUE_RESET (R301). Command 0x0605 discards a queue's items and returns it to ACTIVE. -/
  | queueReset (q : CmdCtx) (queue : Nat)
  /-- QUEUE_PUSH_CMD (R301). Command 0x0606 pushes an item as the host. -/
  | queuePushCmd (q : CmdCtx) (queue : Nat) (item : BitVec 256)
  /-- QUEUE_POP_CMD (R301). Command 0x0607 pops an item as the host. -/
  | queuePopCmd (q : CmdCtx) (queue : Nat)
  /-- QUEUE_GROUP_STATS (R301). Command 0x0608 returns a group's counters. -/
  | queueGroupStats (q : CmdCtx) (g : Nat)
  /-- QUEUE_POOL_STATUS (R301). Command 0x0609 returns the page pool status. -/
  | queuePoolStatus (q : CmdCtx)
  /-- NOC_INJECT (R313). A local port injects a packet: address decode, rights judgement, source fields, epoch and route lookup. -/
  | nocInject (x : Inject)
  /-- NOC_HOP (R316). A packet's header crosses a link to the next pier and takes its next port. -/
  | nocHop (p j : Nat) (flips : List (BitVec 266))
  /-- NOC_DELIVER (R318). A packet is delivered to its destination port, answered by a fence, or discarded to an off port. -/
  | nocDeliver (port : Nat)
  /-- NOC_LINK_REPLAY (R309). A double-bit error on a link triggers a replay 8 cycles later; the fourth failure marks the link failed. -/
  | nocLinkReplay (port unit : Nat)
  /-- NOC_EPOCH_SWITCH (R324). A Sorrel write of SWITCH starts a route-epoch switch. -/
  | nocEpochSwitch (busy : List Nat)
  /-- NOC_EPOCH_RETIRE (R324). A Sorrel write of RETIRE takes the old route table out of use. -/
  | nocEpochRetire
  /-- NOC_CLR_STATS (R337). Writing CLR_STATS clears every NoC statistics counter. -/
  | nocClrStats
  /-- NOC_HM_CFG_WRITE (R332). A write of NOC_HM_CFG that changes PORT clears that monitor's counters. -/
  | nocHmCfgWrite (m : Nat) (en : Bool) (port : Nat)
  /-- SCRATCH_READ (R352). A granted read of scratch units is checked and answered with data or POISON. -/
  | scratchRead (r : Req) (upset : List (Nat × BitVec 291))
  /-- SCRATCH_WRITE (R352). A granted write of scratch units is stored or merged, or refused POISON. -/
  | scratchWrite (r : Req) (upset : List (Nat × BitVec 291))
  /-- SCRATCH_ATOMIC_ADD (R352). An atomic add is performed indivisibly in a bank. -/
  | scratchAtomicAdd (r : Req) (upset : List (Nat × BitVec 291))
  /-- SCRATCH_ATOMIC_SWAP (R352). An atomic swap is performed indivisibly in a bank. -/
  | scratchAtomicSwap (r : Req) (upset : List (Nat × BitVec 291))
  /-- SCRATCH_WRITEBACK (R352). A corrected unit is written back in the bank's next idle cycle unless cancelled. -/
  | scratchWriteback (b : Nat)
  /-- SCRATCH_OWNER_WRITE (R356). A Sorrel write of SPD_BANK_OWN starts a handover, or is discarded with REFUSED. -/
  | scratchOwnerWrite (b kind index : Nat) (wipe : Bool)
  /-- SCRATCH_DRAIN_DONE (R356). The old owner's accesses to a bank complete; the new owner is installed or a wipe requested. -/
  | scratchDrainDone (b : Nat)
  /-- SCRATCH_WIPE_DONE (R357). A handover wipe ends, the new owner is installed and 2 credits return. -/
  | scratchWipeDone (b : Nat)
  /-- SCRATCH_GROUP_CLEAR_DONE (R357). A scratch group clear ends and its credits return; after the last, SCRATCH may set. -/
  | scratchGroupClearDone (g : Nat)
  /-- SCRATCH_SCRUB_READ (R360). The scrubber reads one unit per bank every 16 bank cycles in a burst. -/
  | scratchScrubRead (upset : List (Nat × BitVec 291))
  /-- SCRATCH_SCRUB_GAP_END (R360). The wait between scratch scrub bursts ends and the next burst requests its credit. -/
  | scratchScrubGapEnd
  /-- SPD_CLR_COUNTS (R362). Writing CLR_COUNTS clears the scratch error counts. -/
  | spdClrCounts
  /-- SCR_GRANT_QM (R371). Command 0x0801 grants a bank to the queue manager. -/
  | scrGrantQm (q : CmdCtx) (b : Nat)
  /-- SCR_RETURN_QM (R285). Command 0x0802 returns a bank from the queue manager. -/
  | scrReturnQm (q : CmdCtx) (b kind index : Nat)
  /-- SCR_SET_OWNER (R371). Command 0x0803 sets a bank's owner. -/
  | scrSetOwner (q : CmdCtx) (b kind index wipe : Nat)
  /-- SCR_GROUP_STATUS (R371). Command 0x0804 returns a group's status. -/
  | scrGroupStatus (q : CmdCtx) (g : Nat)
  /-- SCR_READ_UNIT (R371). Command 0x0805 returns a unit as stored. -/
  | scrReadUnit (q : CmdCtx) (b u : Nat)
  /-- DRAM_READ (R386). A read reaches its channel, is descrambled and decoded, corrected or freezes the subchannel. -/
  | dramRead (r : Req) (upset : List (Nat × BitVec 640)) (acts : Bool)
  /-- DRAM_WRITE (R387). A write reaches its channel and is queued, as a read-modify-write when partial. -/
  | dramWrite (r : Req) (upset : List (Nat × BitVec 640)) (acts : Bool)
  /-- DRAM_CA_PARITY_ALERT (R389). A CA parity error on ALERT_n freezes both subchannels of the channel. -/
  | dramCaParityAlert (c : Nat)
  /-- DRAM_REFRESH (R374). tREFI expires and REFab is sent to a rank. -/
  | dramRefresh (c : Nat) (hot postpone : Bool)
  /-- DRAM_ACT_WINDOW_CLEAR (R401). Every 32 ms the activate counter tables are cleared. -/
  | dramActWindowClear
  /-- DDR_INIT_DONE (R393). Channel INIT completes and the channel sweeps or fills. -/
  | ddrInitDone (c : Nat)
  /-- DDR_SWEEP_DONE (R399). A delay sweep completes and the channel fills. -/
  | ddrSweepDone (c : Nat) (failed : Bool) (found : List (Nat × Nat)) (width nibble : Nat)
  /-- DDR_FILL_DONE (R396). A channel fill completes; the channel is READY and DDR_CH sets. -/
  | ddrFillDone (c : Nat)
  /-- DDR_DRAIN_DONE (R393). A draining channel holds no request; devices are held in reset and credits return. -/
  | ddrDrainDone (c : Nat)
  /-- DDR_SELF_REFRESH_ENTERED (R397). A channel finishes its queue and enters self-refresh after CLOCK clears. -/
  | ddrSelfRefreshEntered (c : Nat)
  /-- DDR_UNFREEZE_DONE (R391). An unfreeze completes; FROZEN clears and DDR_CH may set again. -/
  | ddrUnfreezeDone (u : Nat)
  /-- DDR_SCRUB_READ (R400). The DRAM scrubber reads a line of its burst, writing back a corrected one. -/
  | ddrScrubRead (c : Nat) (upset : BitVec 640) (acts : Bool)
  /-- DDR_SCRUB_GAP_END (R400). The wait between DRAM scrub bursts ends and the next burst requests its credit. -/
  | ddrScrubGapEnd (c : Nat)
  /-- DDR_CLR_COUNTS (R407). Writing CLR_COUNTS clears a channel's error counts. -/
  | ddrClrCounts (c : Nat)
  /-- DDR_MARK_WRITE (R412). A write of DDR_SC_MARK places, changes or clears chip marks per rank, subject to mode. -/
  | ddrMarkWrite (u v : Nat)
  /-- DDR_CH_ENABLE (R393). Command 0x0901 enables or disables a channel in SAFE. -/
  | ddrChEnable (q : CmdCtx) (c en : Nat)
  /-- DDR_CH_STATUS (R419). Command 0x0902 returns a channel's status. -/
  | ddrChStatus (q : CmdCtx) (c : Nat)
  /-- DDR_UNFREEZE (R391). Command 0x0903 unfreezes a subchannel. -/
  | ddrUnfreeze (q : CmdCtx) (u mode : Nat)
  /-- DDR_SWEEP (R399). Command 0x0904 runs a delay sweep of a channel. -/
  | ddrSweep (q : CmdCtx) (c keep : Nat)
  /-- DDR_MARK_CHIP (R419). Command 0x0905 marks or clears a bad device. -/
  | ddrMarkChip (q : CmdCtx) (u rank chip : Nat)
  /-- LANE_QCMD_DISABLE (R463). A LANE_QCMD disable withdraws, drains or turns off a quad. -/
  | laneQcmdDisable (q : Nat)
  /-- LANE_QCMD_ENABLE (R463). A LANE_QCMD enable requests credits or latches PENDING_ENABLE. -/
  | laneQcmdEnable (q : Nat)
  /-- LANE_QCMD_SLEEP (R463). A LANE_QCMD sleep starts draining an ON quad toward DEEP. -/
  | laneQcmdSleep (q : Nat)
  /-- LANE_QCMD_WAKE (R463). A LANE_QCMD wake requests credits for a DEEP quad. -/
  | laneQcmdWake (q : Nat)
  /-- QUAD_WAKE_DONE (R464). A quad's PLL locks and lanes calibrate; it is ON and streams and ports start. -/
  | quadWakeDone (q : Nat)
  /-- QUAD_DRAIN_IDLE (R463). A draining quad has no stream request outstanding and goes OFF or DEEP. -/
  | quadDrainIdle (q : Nat)
  /-- QUAD_DRAIN_TIMEOUT (R463). A quad stays busy for 4,096 NoC cycles and the shutdown is refused. -/
  | quadDrainTimeout (q : Nat)
  /-- QUAD_REF_LOST (R466). A quad loses its reference; REF_LOST sets and its streams pause. -/
  | quadRefLost (q : Nat)
  /-- QUAD_REF_RETURN (R466). A quad's reference returns and it passes through WAKING. -/
  | quadRefReturn (q : Nat)
  /-- LANE_LOS (R447). A receiver sees no signal for 1 µs and sets LOS. -/
  | laneLos (l : Nat)
  /-- LANE_RX_LOCK (R464). A receiver locks and adapts and sets RX_LOCK. -/
  | laneRxLock (l : Nat)
  /-- LANE_RX_CHARACTER (R456). A received character reaches the stream buffer, aligned and written into the ring. -/
  | laneRxCharacter (l v : Nat)
  /-- LANE_RX_FLUSH_TIMER (R456). No unit completes for FLUSH × 64 NoC cycles and complete units are written. -/
  | laneRxFlushTimer (l : Nat)
  /-- LANE_STREAM_RESPONSE (R459). A stream write or read is answered; pointers advance or the stream stops with STREAM_ERR. -/
  | laneStreamResponse (l : Nat) (tx : Bool) (unit code : Nat) (data : List Byte)
  /-- LANE_RX_RPTR_WRITE (R460). A write of RX_RPTR frees ring space or is discarded with PTR_ERR. -/
  | laneRxRptrWrite (l v : Nat)
  /-- LANE_TX_WPTR_WRITE (R460). A write of TX_WPTR publishes ring data or is discarded with PTR_ERR. -/
  | laneTxWptrWrite (l v : Nat)
  /-- LANE_CFG_WRITE (R482). A LANE_CFG write changes enables, or other fields only while both streams are off. -/
  | laneCfgWrite (l v : Nat)
  /-- LANE_QCFG_WRITE (R479). A LANE_QCFG write takes effect only while the quad is OFF, else sets REFUSED. -/
  | laneQcfgWrite (q v : Nat)
  /-- ETH_CFG_WRITE (R485). An ETH_CFG write takes effect only while the port's quad is OFF, else sets CFG_ERR. -/
  | ethCfgWrite (p v : Nat)
  /-- ETH_RX_FRAME (R469). A received frame is captured, filtered, and written to the ring or passed to Sorrel. -/
  | ethRxFrame (p sub : Nat) (whole : List Byte)
  /-- ETH_TX_RECORD (R470). A whole transmit record is read and its frame sent, time-stamped or rewritten one-step. -/
  | ethTxRecord (p sub code : Nat) (rec_ : List Byte)
  /-- ETH_LINK_UP (R471). Every lane locks and no fault is seen for 1 ms; the port's link is up. -/
  | ethLinkUp (p : Nat)
  /-- ETH_LINK_LOSS (R471). A port's link goes down, LINK_LOST sets and event 212 + p is raised. -/
  | ethLinkLoss (p : Nat) (loc rem : Bool)
  /-- TC_COPY_SEND (R500). A transparent-clock copy is sent at the egress frame boundary with residence time added. -/
  | tcCopySend (p sub : Nat)
  /-- PCIE_HOST_REQUEST (R475). A host TLP to BAR0 is translated and sent into the NoC. -/
  | pcieHostRequest (f len : Nat) (write : Bool) (data : List Byte)
  /-- PCIE_LINK_UP (R478). The host link reaches L0 with memory space enabled and PCIE sets. -/
  | pcieLinkUp (width rate : Nat)
  /-- PCIE_LINK_DOWN (R478). The host link goes down and PCIE clears. -/
  | pcieLinkDown
  /-- PCIE_PERST (R478). PCIE_PERST_N is asserted, affecting only the host port. -/
  | pciePerst
  /-- PCIE_HOT_RESET (R478). A hot reset affects only the host port. -/
  | pcieHotReset
  /-- PCIE_FLR (R478). A function-level reset affects only the host port. -/
  | pcieFlr
  /-- LANE_QUAD_SET (R488). Command 0x0A01 sets a quad's mode and rate. -/
  | laneQuadSet (q : CmdCtx) (quad m baud keep : Nat)
  /-- LANE_QUAD_POWER (R488). Command 0x0A02 disables, enables, sleeps or wakes a quad. -/
  | laneQuadPower (q : CmdCtx) (quad a : Nat)
  /-- LANE_STREAM_SET (R488). Command 0x0A03 sets a stream's ring. -/
  | laneStreamSet (q : CmdCtx) (l dir base size flush free : Nat)
  /-- LANE_STREAM_RESTART (R488). Command 0x0A04 restarts a stopped stream. -/
  | laneStreamRestart (q : CmdCtx) (l dir : Nat)
  /-- ETH_PORT_SET (R488). Command 0x0A05 sets a port's speed, FEC, address and flags. -/
  | ethPortSet (q : CmdCtx) (p speed fec : Nat) (mac : BitVec 48) (flags : Nat)
  /-- ETH_PORT_STATUS (R488). Command 0x0A06 returns a port's status and counters. -/
  | ethPortStatus (q : CmdCtx) (p : Nat)
  /-- LANE_STATUS (R488). Command 0x0A07 returns a lane's status. -/
  | laneStatus (q : CmdCtx) (l : Nat)
  /-- TIM_SNAP (R494). Writing SNAP latches the tick count and network time of one cycle. -/
  | timSnap
  /-- TIM_OFFSET (R503). A write of TIM_OFFSET_HI delivers an offset to the servo, which steps, steers or discards it. -/
  | timOffset (e : Int)
  /-- SERVO_EN_SET (R504). Setting SERVO_EN takes the servo from FREE to ACQUIRE. -/
  | servoEnSet
  /-- SERVO_EN_CLEAR (R504). Clearing SERVO_EN returns the servo to FREE. -/
  | servoEnClear
  /-- FORCE_HOLD_SET (R504). Setting FORCE_HOLD takes the servo to HOLDOVER. -/
  | forceHoldSet
  /-- FORCE_HOLD_CLEAR (R504). Clearing FORCE_HOLD lets the next offset leave HOLDOVER. -/
  | forceHoldClear
  /-- SERVO_TIMEOUT (R504). No offset arrives for TIMEOUT ms and the servo enters HOLDOVER. -/
  | servoTimeout
  /-- HOLD_LIMIT_EXPIRY (R504). HOLD_LIMIT seconds pass in HOLDOVER; TIME_VALID clears and HOLD_EXPIRED sets. -/
  | holdLimitExpiry
  /-- TIME_GET (R513). Command 0x0B01 returns the time and servo state. -/
  | timeGet (q : CmdCtx)
  /-- TIME_SERVO_SET (R513). Command 0x0B02 sets servo gains and limits. -/
  | timeServoSet (q : CmdCtx) (kp ki count bound step timeout limit : Nat)
  /-- TIME_SET (R513). Command 0x0B03 sets NT_OFFSET in FREE or GRANDMASTER. -/
  | timeSet (q : CmdCtx) (mode tick sec ns frac : Nat)
  /-- TIME_TC_SET (R513). Command 0x0B04 configures the transparent clock. -/
  | timeTcSet (q : CmdCtx) (ports domain all : Nat)
  /-- TIME_TS_READ (R513). Command 0x0B05 removes the oldest egress time-stamp entry. -/
  | timeTsRead (q : CmdCtx) (p : Nat)
  /-- TIME_PTP_CONFIG (R513). Command 0x0B06 configures or stops the PTP protocol. -/
  | timePtpConfig (q : CmdCtx) (p domain transport logSync role : Nat)
  /-- TIME_PTP_STATUS (R513). Command 0x0B07 returns the PTP status. -/
  | timePtpStatus (q : CmdCtx)
  /-- TIME_HOLDOVER (R513). Command 0x0B08 sets or clears FORCE_HOLD. -/
  | timeHoldover (q : CmdCtx) (enter : Nat)
  /-- MBX_DOORBELL (R603). A write of MBX_CMD_TAIL announces commands, or is discarded with PTR_ERR. -/
  | mbxDoorbell (m tail : Nat)
  /-- MBX_RSP_HEAD_WRITE (R603). A write of MBX_RSP_HEAD consumes responses, or is discarded with PTR_ERR. -/
  | mbxRspHeadWrite (m head : Nat)
  /-- MBX_TAKE_COMMAND (R606). Sorrel takes the command at a mailbox head, checks it and runs its first step. -/
  | mbxTakeCommand (m : Nat) (staged : Staged)
  /-- MBX_DEADLINE (R610). DEADLINE_MS passes with no final response and TIMEOUT with LATE is written. -/
  | mbxDeadline (m seq : Nat)
  /-- MBX_RESYNC (R612). Writing RESYNC discards a mailbox's untaken commands. -/
  | mbxResync (m : Nat)
  /-- MBX_ENC_V1_WRITE (R613). A write that changes ENC_V1 switches the mailbox encoding, or is discarded with PTR_ERR. -/
  | mbxEncV1Write (m : Nat) (v : Bool)
  /-- SPI_FRAME (R614). A sideband SPI frame reads or writes mailbox 16. -/
  | spiFrame (op o n : Nat) (data : List Byte)
  /-- I2C_FRAME (R614). A sideband I²C transfer reads or writes mailbox 16. -/
  | i2cFrame (addr : Nat) (write : Bool) (o n : Nat) (data : List Byte)
  /-- JTAG_MBXACC (R615). Update-DR of MBXACC performs an access to mailbox 17. -/
  | jtagMbxacc (dr : BitVec 45)
  /-- SORREL_LOCKSTEP_MISMATCH (R598). The lockstep checker finds a mismatch; HOLD is entered and Sorrel restarts. -/
  | sorrelLockstepMismatch (sramUe : Bool)
  /-- SORREL_RESTART_DONE (R598). Sorrel finishes its restart, sets SORREL, raises event 12 and answers outstanding commands. -/
  | sorrelRestartDone
  /-- DEV_HEARTBEAT (R628). Every 1 ms Sorrel adds one to DEV_HEARTBEAT. -/
  | devHeartbeat (sramCe : Nat)
  /-- EVT_RAISE (R620). A write of EVT_RAISE raises a fabric user event 336 to 383. -/
  | evtRaise (n : Nat)
  /-- EVT_VEC_ACK (R619). A write of EVT_VEC_ACK re-arms an MSI-X vector. -/
  | evtVecAck (v : Nat)
  /-- MSIX_SEND (R619). An asserted armed vector sends its MSI-X message and is disarmed. -/
  | msixSend (v : Nat)
  /-- TEMP_SENSOR_READ (R680). Every 1 ms the die sensors are read and THERM_N is driven or released. -/
  | tempSensorRead (east hub west : Int)
  /-- DEV_IDENTIFY (R622). Command 0x0101 returns the device identity and state. -/
  | devIdentify (q : CmdCtx)
  /-- DEV_MODE_SET (R653). Command 0x0102 changes between RUN and TRIM. -/
  | devModeSet (q : CmdCtx) (target : Nat)
  /-- DEV_HOLD (R622). Command 0x0103 takes the device into HOLD. -/
  | devHold (q : CmdCtx)
  /-- DEV_RESET (R622). Command 0x0104 restarts the device. -/
  | devReset (q : CmdCtx)
  /-- MBX_STATUS (R622). Command 0x0105 returns a mailbox's status. -/
  | mbxStatus (q : CmdCtx) (m : Nat)
  /-- RESTART_DELAY_EXPIRY (R690). 1 ms after a restart command's PENDING response the restart begins. -/
  | restartDelayExpiry
  /-- DIAG_ECHO (R623). Command 0x0E01 returns its data. -/
  | diagEcho (q : CmdCtx) (data : List Byte)
  /-- DIAG_READ (R623). Command 0x0E02 reads device memory. -/
  | diagRead (q : CmdCtx) (addr size : Nat)
  /-- DIAG_WRITE (R623). Command 0x0E03 writes device memory. -/
  | diagWrite (q : CmdCtx) (addr size : Nat) (data : List Byte)
  /-- DIAG_RAISE (R623). Command 0x0E04 raises an event source. -/
  | diagRaise (q : CmdCtx) (n : Nat)
  /-- DIAG_SORREL (R623). Command 0x0E05 returns Sorrel's statistics. -/
  | diagSorrel (q : CmdCtx)
  /-- DIAG_EVENT_LOG (R623). Command 0x0E06 returns entries of the event log. -/
  | diagEventLog (q : CmdCtx) (first : Nat)
  /-- SOURCE_SHOWS_EDGES (R522). A clock source (XO after being started, or a failed REFCLK or RECOV that returns) begins to show edges, so its stability test may begin and R527 may take it as a candidate. -/
  | sourceShowsEdges (src : Source)
  /-- CLK_RETURN_TIMEOUT (R539). No source passes its test within 20 ms of command 0x0205, which then completes TIMEOUT. -/
  | clkReturnTimeout
  /-- CLK_TEST_EDGE_TIMEOUT (R539). A source named in command 0x0204 shows no edges within 10 ms and the command completes NOT_READY. -/
  | clkTestEdgeTimeout
  /-- LANE_RX_LOCK_LOST (R523). A receiver loses lock and clears RX_LOCK, which trips the monitor on RECOV and ends the lane's candidacy under R515. -/
  | laneRxLockLost (l : Nat)
  /-- LANE_SIGNAL_RETURN (R447). A receiver that had set LOS sees a signal again and LOS clears. -/
  | laneSignalReturn (l : Nat)
  /-- LANE_TX_CHARACTER (R458). A character or bit group of the transmit stream leaves the lane, advancing TX_RPTR, freeing buffer room for the next 256-byte read, or sending idle when the ring is empty. -/
  | laneTxCharacter (l : Nat)
  /-- PTP_FRAME_SEND (R497). Sorrel sends a PTP message of its protocol, such as a Sync or Delay_Req, and a two-step frame's egress capture enters the time-stamp FIFO. -/
  | ptpFrameSend (p sub : Nat) (f : List Byte) (twoStep : Bool)
  /-- FLASH_WRITE_DONE (R651). The boot-flash program and read-back of a staged firmware or base container completes, and command 0x0C01 or 0x0404 writes its final response. -/
  | flashWriteDone (good : Bool)
  /-- OWNER_KEY_FUSED (R596). The owner key hash finishes blowing into its fuses, KEY_FUSED sets and command 0x0406 completes OK. -/
  | ownerKeyFused
  /-- PRECHARGE_POWER_DOWN (R395). A READY channel with no traffic for 64 DRAM cycles places its ranks in precharge power-down. -/
  | prechargePowerDown (c : Nat)
deriving DecidableEq, Repr

end Sys2Proof
end

