-- ==== Sys2Proof/Decode.lean ====
section
/-! DEFINITION. The opcode table gives no row of this block any bits: a command is an event or a register access, not a
word (log 4). The engines' own 32-bit instructions are decoded by Machine/Units/EngInstr and Machine/Operands. -/

namespace Sys2Proof

/-- The command a word spells: none, for the table gives no row bits. -/
def decodeTableWord (_nbits _w : Nat) : Option Instr := none

end Sys2Proof
end

