-- ==== Sys2Proof/Config.lean ====
section
/-! DEFINITION. What the spec leaves open: values no rule gives, each an opaque constant with no body. -/

namespace Sys2Proof

/-! ### What a tile's configuration names (R39 to R60, R65, R128) -/

/-- R54: the multiplexers of a tile's routing, by what they drive. Directions are 0 north, 1 east, 2 south, 3 west;
lengths 0 to 3 are those of R52. -/
inductive Sink where
  /-- Input pin `k` (I0 to I5) of cell `c` of a group. -/
  | input (gx gy c k : Nat)
  /-- The clock, the clock enable and the reset of control set `cs` of a group. -/
  | clock (gx gy cs : Nat)
  | enable (gx gy cs : Nat)
  | reset (gx gy cs : Nat)
  /-- The carry-in pin of a group. -/
  | carryIn (gx gy : Nat)
  /-- The segment `i` of a direction and length that starts at a group's switch box. -/
  | segment (gx gy dir len i : Nat)
  /-- The driver of abutment wire `i` of an edge. -/
  | abutment (edge i : Nat)
  /-- Input bit `i` of an arithmetic slice: FX 0 to 31, FY 32 to 63, PRE 64 to 87, ADDEND 88 to 135, SUM_OP 136 to 138,
  PRE_NEG 139, clock enable 140, reset 141; 142 is its clock line. -/
  | slice (n i : Nat)
deriving DecidableEq, Repr

/-- What a routing multiplexer can select, and what the tile computes. -/
inductive Wire where
  /-- What a multiplexer selects. -/
  | mux (x : Sink)
  /-- Output 0 XO, 1 YO, 2 QA, 3 QB of a cell. -/
  | cell (gx gy c out : Nat)
  /-- The carry into a cell (c = 0 to 15), and out of one. -/
  | carryTo (gx gy c : Nat)
  | carryFrom (gx gy c : Nat)
  /-- The segment that ends at a group's switch box, having started `back` switch boxes before it. -/
  | arriving (gx gy dir len i back : Nat)
  /-- The segment that starts at a group's switch box, as it is at its end. -/
  | segment (gx gy dir len i : Nat)
  /-- Output bit `i` of a port of a block memory; bits 72 and 73 are SBE and DBE. -/
  | memory (m : Nat) (portB : Bool) (i : Nat)
  /-- Output bit `i` of a slice: SUM 0 to 63, WRAP 64, PRE_CLIP 65. -/
  | slice (n i : Nat)
  /-- What an abutment wire of an edge brings into the tile. -/
  | abutment (edge i : Nat)
  /-- A tile clock line, selected by a clock multiplexer. -/
  | line (l : Nat)
  /-- FP_FENCE (R86). -/
  | fence
  /-- An event line (R620). -/
  | event (l : Nat)
  /-- R492: TB_TICK bit `i`; TB_VALID is 64. -/
  | time (i : Nat)
  /-- Any other signal into the fabric: fabric port, pins. -/
  | outside (i : Nat)
deriving DecidableEq, Repr

/-- What the configuration bits of a tile say beside the select fields. -/
inductive ConfigItem where
  | select (x : Sink)
  /-- R41, R45: table, SPLIT and SUM of a cell. -/
  | table (gx gy c : Nat)
  | split (gx gy c : Nat)
  | sum (gx gy c : Nat)
  /-- R45, R46, R47: of flip-flop A (0) or B (1) of a cell: D from I4 or I5, its control set, INIT. -/
  | dPin (gx gy c ab : Nat)
  | dSet (gx gy c ab : Nat)
  | init (gx gy c ab : Nat)
  /-- R44: the carry of a group comes from the group south; else from its pin; else it is constant 1. -/
  | carryLink (gx gy : Nat)
  | carryPin (gx gy : Nat)
  | carryOne (gx gy : Nat)
  /-- R46: of a control set: clock enable tied to 1, reset tied to 0, reset type ASYNC. -/
  | tieEnable (gx gy cs : Nat)
  | tieReset (gx gy cs : Nat)
  | async (gx gy cs : Nat)
  /-- R58, R59: of the wire register of the segment that starts here: used, and clocked by control set 1. -/
  | wireUsed (gx gy dir len i : Nat)
  | wireSet (gx gy dir len i : Nat)
  /-- R57: the isolation value of a wire received. -/
  | isolation (edge i : Nat)
  /-- R128, R129, R131: of a slice: bit 0 DUAL12, 1 QUAD8, 2 TWIN_SUM, 3 pre-adder enabled, 4 FX_CHAIN, 8 to 11 FX_SGN,
  12 to 15 FY_SGN, 16 to 79 KSUM. -/
  | slice (n : Nat)
deriving DecidableEq, Repr

/-! ### Open values -/

/-- R140 prints no layout of logic frames 4 to 13,567: where bit `j` of an item stands among their bits. -/
opaque Config.logicBit (x : ConfigItem) (j : Nat) : Nat

/-- How many bits the select field of a multiplexer has (R54). -/
opaque Config.selectWidth (x : Sink) : Nat

/-- What a select code of a multiplexer names (R54), none for a code that names no input. -/
opaque Config.muxSource (x : Sink) (code : Nat) : Option Wire

/-- R140 prints no layout of state frames 19,712 to 20,367: where flip-flop or wire register `i` stands among their bits. -/
opaque Config.stateBit (i : Nat) : Nat

/-- R140 prints no layout of a slice's state frame: where bit `i` of its registers stands. -/
opaque Config.sliceBit (i : Nat) : Nat

/-- A signal no rule gives, the `n`-th time it is asked for: a tile and the signal. -/
opaque Config.openSignal (n t : Nat) (w : Wire) : Bool

/-- A value the spec leaves open, of width `w`, the `n`-th one drawn (State.free counts them). No rule constrains it. -/
opaque Config.freeValue (w : Nat) (n : Nat) : BitVec w

/-- The 8 check bits that the (72,64) code of R106 gives a 64-bit word; R106 does not print its matrix. -/
opaque Config.checkBits (d : BitVec 64) : BitVec 8

/-- The syndrome a (72,64) word with the flipped bits `f` (data in bits 63:0, check in 71:64) shows; R106 prints no matrix. -/
opaque Config.syndrome (f : BitVec 72) : BitVec 8

/-- What a (72,64) decoder makes of three or more flipped bits: 0 clean, 1 single error, 2 double error; R106 speaks of
one and two errors only. -/
opaque Config.manyFlips (f : BitVec 72) : Nat

/-- What the scratch code of R351 makes of a stored unit four or more symbols from every code word: R351 allows
uncorrectable, miscorrected, or taken as correct. The argument is the unit's 36 symbols as one number. -/
opaque Config.scratchFar (u : Nat) : Nat

/-- R203, R222: LEAD in ticks when some divider is not at its nominal ratio, by the four ratios: the cluster measures it
and the spec gives no figure. -/
opaque Config.engineLead (r0 r1 r2 r3 : Nat) : Nat

/-- R316, R344: a port field of a default route that no packet uses (the OWN of a pier's own entry, the NEXT of an entry
whose OWN leads to the destination): R314 gives no value. -/
opaque Config.routeFill (key : Nat) : BitVec 3

/-- R644: a settings record converted from one format to another: the record format belongs to the firmware. Arguments:
the old format, the new format, the record. -/
opaque Config.convertSettings (oldFmt newFmt record : Nat) : Nat

end Sys2Proof
end

