-- ==== Sys2Proof/Machine/Units/Boot.lean ====
section
/-! DEFINITION. State of configuration loading, start-up and firmware update (chapters 16 and 18). -/

namespace Sys2Proof.Machine

/-- R592: PHASE of CFG_STAT. -/
inductive CfgPhase where
  | idle | firmware | header | sections | frames | startup | done | failed
deriving DecidableEq, Repr

/-- What is being loaded (R573, R576). -/
inductive LoadKind where
  | none | firmware | base
deriving DecidableEq, Repr

/-- Configuration loading. -/
structure Boot where
  /-- R570: the directory in force; no valid copy before flash is programmed (DESIGN CHOICE, log 105). -/
  dir : Directory := {}
  /-- R570: the other copy of the directory; `dir` is the one Sorrel uses. -/
  dirOther : Directory := { second := true }
  /-- R591: CFG_CTRL. -/
  holdSafe : Bool := false
  /-- R591: this start follows CFG_RESTART_N, or a restart as it makes it. -/
  heldStart : Bool := false
  giturV1 : Bool := false
  /-- R592: CFG_STAT. -/
  phase : CfgPhase := .idle
  slot : Bool := false
  trial : Bool := false
  fellBack : Bool := false
  held : Bool := false
  stepsDone : BitVec 4 := 0
  /-- R593 to R595. -/
  errCode : Nat := 0
  errSection : Nat := 0
  errAddr : Nat := 0
  framesWritten : Nat := 0
  /-- What is loading, and whether it comes from DRAM under 0x0402. -/
  kind : LoadKind := .none
  fromDram : Bool := false
  /-- R596, R376: where command 0x0402 found its container, and the windows when it was taken. -/
  loadAddr : Nat := 0
  loadLen : Nat := 0
  loadWindows : List (Nat × Nat) := []
  /-- R581, R146: bytes of FRAMES read, frames left of the open block, and the frame address it has come to. -/
  framePos : Nat := 0
  blockLeft : Nat := 0
  blockNext : Nat := 0
  /-- R573: what the header said that later checks need. -/
  sections : List SectionEntry := []
  secIdx : Nat := 0
  startOrder : Nat := 0
  frameCount : Nat := 0
  totalLen : Nat := 0
  /-- R568: the bytes after this container go out at CFG_DOUT. -/
  forwarding : Bool := false
  /-- R589: the wipe after a failed load is under way. -/
  wiping : Bool := false
  /-- R573, R583: header fields kept: STALL_TIMEOUT, IMAGE_VERSION, and another container follows (R568). -/
  stallTimeout : Nat := 0
  imageVersion : Nat := 0
  chainMore : Bool := false
  /-- R569: the keystone holds CFG_CLK stopped. -/
  clkPaused : Bool := false
  /-- R583: a byte has come since the first read. -/
  gotByte : Bool := false
  /-- R581: next frame, counted through the used tiles. -/
  nextFrame : Nat := 0
  /-- R586: steps run, 0 to 4. -/
  step : Nat := 0
  /-- R575: what the sections set, until applied or in force. -/
  usedTiles : List Nat := []
  usedClusters : List Nat := []
  usedPlls : List Nat := []
  /-- R575, R447: lane transmit taps of the board description in force. -/
  taps : List (Nat × Nat) := []
  /-- R575, R223: the pin settings of the PINS section. -/
  pins : List PinSetting := []
  /-- R576: the channels that the BOARD section describes. -/
  board : List BoardChannel := []
  /-- R376, R589: the windows in force before the load's SETTINGS. -/
  savedWindows : List (Nat × Nat) := []
  /-- R580: this load's SETTINGS have been applied. -/
  settingsApplied : Bool := false
  /-- R376: a base image's SETTINGS have set the windows, so that the default windows are no longer in force; the windows
  as that section gives them. -/
  windowsSet : Bool := false
  windowsGiven : List (Nat × Nat) := []
  /-- R580: SETUP gave inbound credits outside 1 to 64; it is reported once the slot table has been checked. -/
  setupBad : Bool := false
  /-- R573, R622: BUILD_ID of the base image in force. -/
  buildId : Nat := 0
  /-- R596, R651: a staged base or firmware container has passed since the last start. -/
  baseStaged : Bool := false
  fwStaged : Bool := false
  /-- R596: the container being written to flash: base (true) or firmware. -/
  flashBase : Option Bool := none
  /-- R596: the hash being fused. -/
  keyHash : BitVec 384 := 0
  /-- R596: the owner key is being fused. -/
  keyFusing : Bool := false
  /-- R640, R648: firmware registers. -/
  fwSlot : Bool := false
  fwTrialRun : Bool := false
  fwFellBack : Bool := false
  altBoot : Bool := false
  svn : Nat := 0
  setFmt : Nat := 0
  /-- R622: IMAGE_VERSION of the running firmware. -/
  fwImage : Nat := 0
  /-- R651: IMAGE_VERSION and SVN of the containers in firmware slots A and B. -/
  fwAVersion : Nat := 0
  fwASvn : Nat := 0
  fwBVersion : Nat := 0
  fwBSvn : Nat := 0
  /-- R644, R645: the settings records of areas A and B, and the formats they stand in. -/
  setAFmt : Nat := 0
  setA : Nat := 0
  setBFmt : Nat := 0
  setB : Nat := 0
  /-- R651: IMAGE_VERSION and SVN of the firmware container being written to flash. -/
  stageVersion : Nat := 0
  stageSvn : Nat := 0
  /-- R639, R640: FELL_BACK has set, and event 326 follows once SORREL sets. -/
  fellBackDue : Bool := false
  /-- R639: the firmware's header has been checked for the second slot. -/
  triedOther : Bool := false
  /-- R649: steps still to blow, and the step being blown. -/
  arbTarget : Nat := 0
  arbBusy : Bool := false
  /-- R642, R650: the trial window: running, its start in ticks and its length in seconds. -/
  winOn : Bool := false
  winStart : Nat := 0
  winLen : Nat := 0
  winWarned : Bool := false
deriving DecidableEq, Repr

end Sys2Proof.Machine
end

