-- ==== Sys2Proof/Machine/Units/Clock.lean ====
section
/-! DEFINITION. State of clock generation and supervision (chapter 14). -/

namespace Sys2Proof.Machine

/-- What the root PLL and the dividers are doing (R522 to R532). -/
inductive ClkPhase where
  /-- Before POR_N is released, or held in reset after three failures (R528). -/
  | off
  /-- R532 step 1 and 2: sources are being judged. -/
  | judging
  /-- R532 step 3: the root PLL locks to a judged source. -/
  | locking
  /-- R532 step 4: the start-up ramp. -/
  | startRamp
  /-- Running on a judged source. -/
  | running
  /-- R526: waits for DRAM self-refresh. -/
  | coastWait
  /-- R526: the dividers ramp to their largest ratios. -/
  | coastRamp
  /-- R526: the 20 us glide. -/
  | glide
  /-- R526: parked at 3.0 GHz. -/
  | parked
  /-- R529: relocking to a judged source at 6.0 GHz. -/
  | relocking
  /-- R529: the return ramp at 1,024 cycles per step. -/
  | returnRamp
deriving DecidableEq, Repr

/-- What a comparison is for (R522). -/
inductive TestKind where
  | startup | resetStart | recovery | inService | command
deriving DecidableEq, Repr

/-- A comparison under way: the source judged and, for command 0x0204, the other source. -/
structure ClkTest where
  kind : TestKind
  src : Source
  other : Source
deriving DecidableEq, Repr

/-- One clock source as the device sees it. -/
structure SourceState where
  /-- R522: it shows edges. -/
  edges : Bool := false
  /-- R522: it is judged stable. -/
  stable : Bool := false
deriving DecidableEq, Repr

/-- One divider (R518, R536, R537); ratios in units of 1/16. -/
structure Divider where
  ratio : Nat
  target : Nat
  trim : Nat
deriving DecidableEq, Repr

/-- The clocks. -/
structure Clk where
  /-- R534: CLK_CTRL. -/
  policyCoast : Bool := false
  autoReturn : Bool := true
  xoWarm : Bool := true
  primaryRecov : Bool := false
  recovPort : Nat := 0
  /-- R535: CLK_STAT. -/
  coast : Bool := false
  switched : Bool := false
  trip : Bool := false
  tripCause : Nat := 0
  /-- R535: SOURCE: 0 REFCLK, 1 XO, 2 RECOV, 3 none. -/
  source : Nat := 0
  /-- R516: XO has been started. -/
  xoRun : Bool := false
  /-- R529, R531: a TRIM ramp waits for its credits. -/
  rampWait : Bool := false
  /-- R517, R535: the root PLL is locked. -/
  lock : Bool := false
  /-- R528, R535: ATTEMPTS. -/
  attempts : Nat := 0
  /-- R538: CLK_MON. -/
  lastPpm : BitVec 16 := 0
  lastKind : Nat := 0
  /-- R518, R536, R537: the four dividers, at their largest ratios at reset. -/
  div0 : Divider := ⟨128, 128, 32⟩
  div1 : Divider := ⟨256, 256, 128⟩
  div2 : Divider := ⟨512, 512, 256⟩
  div3 : Divider := ⟨512, 512, 256⟩
  /-- R526, R532: the phase of the clock tree. -/
  phase : ClkPhase := .off
  /-- R522: the three sources. -/
  refclk : SourceState := {}
  xo : SourceState := {}
  recov : SourceState := {}
  /-- R515: the last of REFCLK and XO judged stable. -/
  lastStable : Source := .refclk
  /-- R522: comparisons under way. -/
  tests : List ClkTest := []
  /-- R529: PRIMARY has passed its recovery test since it was last in use or changed. -/
  primaryPassed : Bool := false
  /-- R527: the candidate of the present attempt after a clock-failure reset. -/
  attempt : Option Source := none
  /-- R517: the source the PLL locks to next. -/
  lockTo : Source := .refclk
  /-- R531: the TRIM return ramp holds 32 credits. -/
  rampHolds : Bool := false
  /-- R491: the VCO stands below 4.5 GHz, so the increment is 4. -/
  vcoLow : Bool := false
  /-- R529: command 0x0205 has ordered the return. -/
  returnOrdered : Bool := false
  /-- R539: a change of PRIMARY by 0x0202 waits for its test. -/
  setPending : Bool := false
deriving DecidableEq, Repr

end Sys2Proof.Machine
end

