-- ==== Sys2Proof/Machine/Units/Dram.lean ====
section
/-! DEFINITION. State of the DRAM controllers (chapter 10). -/

namespace Sys2Proof.Machine

/-- R393, R404: the states of a channel. -/
inductive ChState where
  | off | waitGrant | init | sweep | filling | ready | selfRefresh | draining
deriving DecidableEq, Repr

/-- R410: FREEZE_CAUSE. -/
inductive FreezeCause where
  | none | data | caParity
deriving DecidableEq, Repr

/-- A subchannel (R389, R401, R410 to R416). -/
structure SubCh where
  /-- R410. -/
  frozen : Bool := false
  cause : FreezeCause := .none
  causes : BitVec 5 := 0
  /-- R411. -/
  en : BitVec 5 := 0x0E
  /-- R382, R412: the mark of each rank (RWS). -/
  mark0 : Bool := false
  chip0 : Nat := 0
  mark1 : Bool := false
  chip1 : Nat := 0
  /-- R413. -/
  ce : Nat := 0
  ue : Nat := 0
  actHits : Nat := 0
  /-- R414: DDR_SC_LOG and DDR_SC_LINE. -/
  logValid : Bool := false
  logKind : Bool := false
  logSource : Nat := 0
  logRank : Nat := 0
  logErasure : Bool := false
  logChips : BitVec 10 := 0
  logLine : Nat := 0
  /-- R415: device counts, by rank * 10 + device. -/
  chipCnt : List (Nat × Nat) := []
  /-- R416: the captured line as stored (scrambled), symbol j of device k in byte 8k+j. -/
  capture : BitVec 640 := 0
  /-- R391: the line that froze the subchannel. -/
  failLine : Nat := 0
  /-- R391: the mode of an unfreeze under way. -/
  unfreezing : Option Nat := none
  /-- R386, R389: the write queue, oldest first: (line, its plain data encoded). -/
  queue : List (Nat × BitVec 640) := []
  /-- R401: row counters as (row, count), at most 16, by bank index. -/
  rows : List (Nat × List (Nat × Nat)) := []
deriving DecidableEq, Repr

/-- A channel (R393, R400, R404 to R409, R417). -/
structure Chan where
  /-- R404. -/
  state : ChState := .off
  pendingEnable : Bool := false
  disablePending : Bool := false
  /-- R405. -/
  populated : Bool := false
  ranks : Nat := 1
  rdimm : Bool := false
  density : Nat := 0
  /-- R406. -/
  tim0 : Nat := 0
  tim1 : Nat := 0
  tim2 : Nat := 0
  /-- R407. -/
  autoMark : Bool := true
  markThresh : Nat := 16
  scrubEn : Bool := true
  gap : Nat := 8
  /-- R408. -/
  passes : Nat := 0
  waitGrant : Bool := false
  skipped : Bool := false
  /-- R409. -/
  rfmEn : Bool := false
  actThresh : Nat := 4096
  /-- R398, R417: training registers, by offset in the block. -/
  training : List (Nat × Nat) := []
  /-- R399: the sweep asked for (KEEP), and the board values it restores. -/
  sweep : Option Bool := none
  boardTraining : List (Nat × Nat) := []
  /-- R419: what the sweep found: smallest window width and the nibble holding it. -/
  sweepWidth : Nat := 0
  sweepNibble : Nat := 0
  /-- R400: a burst holds its credit; its lines left; the walk's next channel line. -/
  burst : Bool := false
  burstLeft : Nat := 0
  nextLine : Nat := 0
  /-- R374: a device reports more than 85 degrees, so the interval is halved; refreshes postponed. -/
  hot : Bool := false
  postponed : Nat := 0
  /-- R395: ranks in precharge power-down. -/
  powerDown : Bool := false
deriving DecidableEq, Repr

/-- DRAM. A stored line is kept as its 80 symbols exclusive-ored with the 80 symbols that a fill stores there under the
key in use (R396, R429; the code of R380 is linear), so that an unlisted line is a line as the fill left it: byte i of
data in bits 8i+7:8i, check symbol q in bits 8(64+q)+7:8(64+q). -/
structure Ddr where
  chans : List (Nat × Chan) := []
  subs : List (Nat × SubCh) := []
  /-- By subchannel ID * 2^29 + L. -/
  lines : List (Nat × BitVec 640) := []
  /-- R418: DDR_WIN. -/
  wins : List (Nat × Nat) := []
deriving DecidableEq, Repr

end Sys2Proof.Machine
end

