-- ==== Sys2Proof/Machine/Units/Engine.lean ====
section
/-! DEFINITION. State of the timed sequencer engines and the pin edge schedulers (chapters 5 and 6). -/

namespace Sys2Proof.Machine

/-- R189: the states of a context. -/
inductive CtxState where
  | idle | ready | running | waitTick | waitEvent | waitNoc | waitPin | parked | faulted
deriving DecidableEq, Repr

/-- What a context in WAIT_NOC waits for (R199, R250). -/
inductive NocWait where
  /-- Its own blocking request. -/
  | answer
  /-- A tracking slot of the engine: the instruction issues again. -/
  | reissue
  /-- One of its own 8 posted requests: the instruction issues again. -/
  | ownPosted
  /-- FENCE: its posted count reaches 0. -/
  | fence
deriving DecidableEq, Repr

/-- A context (R189 to R194, R216 to R220, R226). -/
structure Ctx where
  /-- R216: CTX_CFG. -/
  missFault : Bool := false
  needTime : Bool := false
  dlSlack : Nat := 0
  /-- R217: CTX_STAT. -/
  dlMiss : Bool := false
  state : CtxState := .idle
  fault : Nat := 0
  pc : BitVec 13 := 0
  /-- R218: the deadline, 2^64 - 1 at reset. -/
  deadline : BitVec 64 := BitVec.allOnes 64
  /-- R219: DETAIL. -/
  detail : BitVec 16 := 0
  /-- R220: MISSES. -/
  misses : Nat := 0
  /-- R226: v0 to v15; zero at reset (DESIGN CHOICE, log 5). -/
  regs : List (Nat × BitVec 64) := []
  /-- R226: outstanding posted requests. -/
  posted : Nat := 0
  /-- R193: the target of WAIT_TICK. -/
  target : BitVec 64 := 0
  /-- R244: the mask of WAIT_EVENT. -/
  mask : BitVec 16 := 0
  /-- R199: what WAIT_NOC waits for. -/
  wait : NocWait := .answer
  /-- R199: the tag of the request whose answer WAIT_NOC waits for. -/
  waitTag : Nat := 0
  /-- R204: the pin whose credit WAIT_PIN waits for. -/
  pinWait : Nat := 0
  /-- R194: a PARKED context was in WAIT_EVENT (else WAIT_TICK). -/
  parkedEvent : Bool := false
  /-- R194: command 0x0703 asked for a stop at the next wait, or now. -/
  stopAtWait : Bool := false
  stopNow : Bool := false
  /-- R192: the present deadline has been missed. -/
  missed : Bool := false
deriving DecidableEq, Repr

/-- What an outstanding request of an engine does when it is answered (R246 to R249). -/
inductive EngReqKind where
  | pop (group status : Nat)
  | push (status : Nat)
  | load (d : Nat)
  | load4 (group : Nat)
  | store
  | atomic (add : Bool) (d : Nat)
deriving DecidableEq, Repr

/-- An outstanding request (R199): its context, whether it is posted, what it is and what it carries. -/
structure EngReq where
  ctx : Nat
  posted : Bool
  kind : EngReqKind
  /-- The device address, or the queue number. -/
  addr : BitVec 64
  /-- Data sent, little-endian 64-bit words. -/
  data : List (BitVec 64)
deriving DecidableEq, Repr

/-- An engine (R184, R196, R199, R213, R214). -/
structure Engine where
  /-- R213: ENG_STAT. -/
  timeInvalid : Bool := false
  postedErr : Bool := false
  lastCode : Nat := 0
  lastCtx : Nat := 0
  /-- R214: ENG_ECC. -/
  ce : Nat := 0
  ue : Nat := 0
  imemUe : Bool := false
  dmemUe : Bool := false
  /-- R199: outstanding requests by tag, at most 32. -/
  reqs : List (Nat × Option EngReq) := []
  /-- R250: tags of the requests that have not left the cluster port yet, oldest first. -/
  unsent : List Nat := []
  /-- R186: corrected words to write back, in instruction and data memory, oldest first. -/
  imemWb : List Nat := []
  dmemWb : List Nat := []
  /-- R187: the walker's next word in instruction and data memory. -/
  imemWalk : Nat := 0
  dmemWalk : Nat := 0
deriving DecidableEq, Repr

/-- A local memory word (R185): data, and which of its 72 bits stand inverted against the valid code word. -/
structure EWord where
  data : BitVec 64 := 0
  flips : BitVec 72 := 0
deriving DecidableEq, Repr

/-- R222: the states of a cluster. -/
inductive ClusterState where
  | off | waitGrant | wiping | on | parking | draining
deriving DecidableEq, Repr

/-- A cluster (R210, R211, R222). -/
structure Cluster where
  state : ClusterState := .off
  busyRefused : Bool := false
  pendingEnable : Bool := false
  disablePending : Bool := false
  /-- R33: ENG_CLUSTER's own condition. -/
  serving : Bool := false
  /-- R211: the fence at the cluster port is up. -/
  fence : Bool := false
deriving DecidableEq, Repr

/-- An edge event (R202): its time in 1/16 ticks and its action. -/
structure EdgeEv where
  time : Nat
  act : Nat
deriving DecidableEq, Repr

/-- A pin and its edge scheduler (R201 to R208, R223, R224). -/
structure Pin where
  /-- R575, R673: the I/O standard that PINS selects. -/
  standard : Nat := 0
  /-- R673: the pull that PINS selects, 4 for a pin it marks unused. -/
  pull : Nat := 0
  /-- R223: ENG_PIN_CFG. -/
  sched : Bool := false
  safeLevel : Nat := 2
  ovfFault : Bool := false
  lateAtOnce : Bool := false
  owner : Nat := 0x7F
  /-- R224: ENG_PIN_STAT. -/
  late : Bool := false
  ovf : Bool := false
  lateCount : Nat := 0
  out : Nat := 2
  /-- R203: events crossing the edge network, with the tick at which they arrive. -/
  flying : List (Nat × EdgeEv) := []
  /-- R203: events stored, in time order. -/
  stored : List EdgeEv := []
  /-- R203: events on the output delay line. -/
  released : List EdgeEv := []
  /-- R203: credits on their way back to the owner, as the tick at which they arrive. -/
  returning : List Nat := []
  /-- R203: slot credits the owner holds. -/
  credits : Nat := 4
  /-- R202: the last accepted time, in 1/16 ticks. -/
  last : Nat := 0
deriving DecidableEq, Repr

/-- The engines. -/
structure Eng where
  engines : List (Nat × Engine) := []
  /-- By engine * 4 + context. -/
  ctxs : List (Nat × Ctx) := []
  /-- R185: by engine * 4096 + word. -/
  imem : List (Nat × EWord) := []
  dmem : List (Nat × EWord) := []
  /-- R210, R212: the clusters, by number. -/
  clusters : List (Nat × Cluster) := []
  /-- R223, R224: the pins, by number. -/
  pins : List (Nat × Pin) := []
  /-- R215: ENG_EVT_PEND of every engine, by line: bit n is engine n's bit of that line. -/
  evtPend : List (Nat × BitVec 96) := []
deriving DecidableEq, Repr

end Sys2Proof.Machine
end

