-- ==== Sys2Proof/Machine/Units/Fabric.lean ====
section
/-! DEFINITION. State of the fabric: tiles, fabric PLLs, fabric ports (chapter 2), block memories and their scrubber
(chapter 3), and the configuration frames (R140) that hold logic configuration, flip-flops, wire registers and slices. -/

namespace Sys2Proof.Machine

/-- R84: the states of a tile's clocks. -/
inductive TileState where
  | off | waitGrant | on | draining
deriving DecidableEq, Repr

/-- A request delivered into the fabric and not answered (R94). -/
structure Inbound where
  src : Initiator
  tag : Nat
deriving DecidableEq, Repr

/-- A request packet that the fabric has sent and that has not entered the pier (R87): its header and data units. -/
structure Outbound where
  hd : BitVec 256
  data : List (BitVec 256)
deriving DecidableEq, Repr

/-- A clock tile with its fabric port (R76 to R97). -/
structure Tile where
  /-- R84: CFG_TILE_STATE. -/
  state : TileState := .off
  spanOwned : Bool := false
  busyRefused : Bool := false
  pendingEnable : Bool := false
  holdStopped : Bool := false
  /-- R87: outbound request credits the fabric holds. -/
  credits : Nat := 0
  /-- R92: outstanding outbound tags, bit n is tag n. -/
  tags : BitVec 256 := 0
  /-- R87, R94: packets that have not entered the pier, oldest first. -/
  outbound : List Outbound := []
  /-- R87: FP_FENCE, or HOLD, withholds credits: units whose credit waits. -/
  owed : Nat := 0
  /-- R89: inbound credits configured and still free. -/
  inboundCfg : Nat := 0
  inboundFree : Nat := 0
  /-- R94: accepted inbound requests not answered, oldest first. -/
  inbound : List Inbound := []
  /-- R96: CFG_FPORT_STAT. -/
  protoErr : Bool := false
  errKind : Nat := 0
  /-- R49, R143: global or span set-reset is asserted in the tile; from the start of configuration on. -/
  setReset : Bool := true
  /-- R50: set-reset has been released, and the control sets pass the release through their synchronisers. -/
  releasing : Bool := false
  /-- R57, R142: the abutment wires that the tile drives present their isolation values. -/
  isolated : Bool := false
  /-- R58, R113: user writes to block memories are enabled. -/
  writesOn : Bool := false
  /-- R151, R165: the fence that an eviction raised stands until the ports go live or the drain is refused. -/
  fence : Bool := false
  /-- R142: the tile lies in a slot under the span hold. -/
  spanHold : Bool := false
deriving DecidableEq, Repr

/-- One output of a fabric PLL (R75). -/
structure PllOut where
  en : Bool := false
  phase : Nat := 0
  div : Nat := 12
deriving DecidableEq, Repr

/-- A fabric PLL (R69 to R75). -/
structure Pll where
  /-- R73: CFG_FPLL_CFG. -/
  m : Nat := 32
  d : Nat := 0
  en : Bool := false
  /-- R75: CFG_FPLL_OUT. -/
  out0 : PllOut := {}
  out1 : PllOut := {}
  out2 : PllOut := {}
  out3 : PllOut := {}
  /-- R70: the settings applied. -/
  appM : Nat := 32
  appD : Nat := 0
  app0 : PllOut := {}
  app1 : PllOut := {}
  app2 : PllOut := {}
  app3 : PllOut := {}
  /-- R74: CFG_FPLL_STAT. -/
  waitGrant : Bool := false
  rangeErr : Bool := false
  lost : Bool := false
  lock : Bool := false
  /-- R76: its credit is held, so it runs. -/
  granted : Bool := false
  /-- R72: the reference or D and M put its VCO out of range. -/
  outOfRange : Bool := false
deriving DecidableEq, Repr

/-- A physical word of a block memory (R99, R106): its 72 bits as last written, and which of them stand inverted
against a valid code word (ECC memories only). -/
structure BWord where
  data : BitVec 72 := 0
  flips : BitVec 72 := 0
deriving DecidableEq, Repr

/-- R104: the last operation on a block memory: its port, whether it wrote, its word, the bits it wrote and the word
before it. -/
structure BOp where
  portB : Bool
  write : Bool
  word : Nat
  mask : BitVec 72
  old : BWord
deriving DecidableEq, Repr

/-- A port of a block memory (R99 to R108). -/
structure BPort where
  width : Nat := 0
  rdw : Nat := 0
  line : Nat := 0
  out : BitVec 72 := 0
  sbe : Bool := false
  dbe : Bool := false
  /-- R108: its last operation was a partial write, so its next cycle merges. -/
  merging : Bool := false
deriving DecidableEq, Repr

/-- A block memory's configuration and ports (R99, R100), and its place in the scrub walk (R115, R116). -/
structure BMem where
  ecc : Bool := false
  portA : BPort := {}
  portB : BPort := {}
  /-- R115: next word of the walk, 1,024 when the walk of this memory has ended. -/
  walk : Nat := 0
  /-- R116: a word and its corrected bits wait for the next maintenance slot. -/
  writeBack : Option (Nat × BitVec 72) := none
  /-- R112: memories cascaded from this one on, itself counted; 0 or 1 for none. -/
  cascade : Nat := 0
  /-- R104: the last operation of either port. -/
  last : Option BOp := none
deriving DecidableEq, Repr

/-- The block-memory scrubber and error registers (R115 to R127). -/
structure Scrub where
  /-- R120: CFG_BRAM_SCRUB. -/
  en : Bool := true
  gap : Nat := 0
  /-- R121: CFG_BRAM_SCRUB_STAT. -/
  passes : Nat := 0
  waitGrant : Bool := false
  skipped : Bool := false
  tile : Nat := 0
  /-- R118: a burst holds its credit. -/
  burst : Bool := false
  /-- R122, R123: counts. -/
  ce : Nat := 0
  ue : Nat := 0
  /-- R124: CFG_BRAM_ERR_LOG and ERR_SYN. -/
  logValid : Bool := false
  logKind : Bool := false
  logSource : Nat := 0
  logTile : Nat := 0
  logMem : Nat := 0
  logWord : Nat := 0
  logSyn : BitVec 8 := 0
  /-- R125: DBE_HOLD. -/
  dbeHold : Bool := false
  /-- R126: CFG_BRAM_INJECT. -/
  injArm : Bool := false
  injTile : Nat := 0
  injMem : Nat := 0
  injFlip : BitVec 8 := 0
  /-- R127: CFG_BRAM_PORT_STAT. -/
  wwCollide : Bool := false
  pwOverrun : Bool := false
  firstTile : Nat := 0
  firstMem : Nat := 0
deriving DecidableEq, Repr

/-- The fabric. -/
structure Fab where
  tiles : List (Nat × Tile) := []
  plls : List (Nat × Pll) := []
  /-- R82: CFG_TILE_CMD_STAT. -/
  lastTile : Nat := 0
  badTile : Bool := false
  spanOwnedErr : Bool := false
  /-- R65: sources of the die clock lines, by die * 6 + line (log 140). -/
  dieLines : List (Nat × Nat) := []
  /-- R65: the next rising edge of line 0 of a die is a rising edge of line 1. -/
  halfWest : Bool := false
  halfEast : Bool := false
  /-- R492: the tick counts sampled at the rising edges of line 0 of a die, newest first, at most 9. -/
  sampledWest : List Nat := []
  sampledEast : List Nat := []
  /-- R50: stages that the release of set-reset has passed, by (tile * 2560 + group) * 2 + control set; 3 once released. -/
  sync : List (Nat × Nat) := []
  /-- R140, R141: logic and state frames by frame address; state frames are the flip-flops, wire registers and slice
  registers. A cleared frame is zero (R585). -/
  frames : List (Nat × BitVec 640) := []
  /-- R99: block-memory words by (tile * 48 + memory) * 1024 + word; zero data with valid check bits (R113). -/
  words : List (Nat × BWord) := []
  /-- R156: words that stood uncorrectable at a capture, as they were saved, by personality * 2^23 + word. -/
  captured : List (Nat × BWord) := []
  /-- R99, R100: block memories by tile * 48 + memory. -/
  mems : List (Nat × BMem) := []
  /-- R114 to R127: the block-memory scrubber, its counters and log. -/
  scrub : Scrub := {}
deriving DecidableEq, Repr

end Sys2Proof.Machine
end

