-- ==== Sys2Proof/Machine/Units/Governor.lean ====
section
/-! DEFINITION. State of the current governor (chapter 15). -/

namespace Sys2Proof.Machine

/-- A request of R543 and R544. -/
structure GovReq where
  kind : Nat
  index : Nat
  cls : Nat
  credits : Nat
  /-- The tick of the decision in which it entered the queue (R563). -/
  entered : Nat := 0
deriving DecidableEq, Repr

/-- A staged start of R550: stages of `num / den` credits still to begin. -/
structure GovStage where
  kind : Nat
  index : Nat
  left : Nat
  num : Nat
  den : Nat
deriving DecidableEq, Repr

/-- One supply's account (R540, R542, R559 to R562). -/
structure Supply where
  /-- R560: PEAK. -/
  peak : Nat := 0
  /-- R542: credits held, by kind * 256 + index. -/
  held : List (Nat × Nat) := []
  /-- R546: the queue, head first. -/
  queue : List GovReq := []
  /-- R548: the tick of the decision in which the head became the head. -/
  headSince : Nat := 0
  /-- R548: the present head's long wait has been reported. -/
  warned : Bool := false
  /-- R544: requests presented since the last decision. -/
  newReqs : List GovReq := []
  /-- R544: withdrawals presented since the last decision, as (kind, index). -/
  withdrawn : List (Nat × Nat) := []
  /-- R544: returns presented since the last decision, as (kind * 256 + index, credits). -/
  returned : List (Nat × Nat) := []
deriving DecidableEq, Repr

/-- The current governor. -/
structure Gov where
  /-- R541: grants have begun: CURRENT's own condition. -/
  granting : Bool := false
  /-- R541: the standing reservation is booked. -/
  standing : Bool := false
  /-- R555: GRANT_EN. -/
  grantEn : Bool := true
  /-- R556: CUR_EVT. -/
  rejIndex : Nat := 0
  rejKind : Nat := 0
  rejSupply : Nat := 0
  longWait : BitVec 3 := 0
  reject : Bool := false
  /-- R557: WAIT_WARN. -/
  waitWarn : Nat := 1465
  /-- R549, R558: ticks until the slew slot is free. -/
  slewLeft : Nat := 0
  /-- R550: staged starts granted and not complete, oldest grant first. -/
  stages : List GovStage := []
  /-- R540: the three supplies. -/
  supplies : List (Nat × Supply) := []
deriving DecidableEq, Repr

end Sys2Proof.Machine
end

