-- ==== Sys2Proof/Machine/Units/Time.lean ====
section
/-! DEFINITION. State of the timebase and the servo (chapter 13). -/

namespace Sys2Proof.Machine

/-- The servo's states (R504, R509). -/
inductive Servo where
  | free | acquire | locked | holdover | grandmaster | coast
deriving DecidableEq, Repr

/-- An egress time-stamp FIFO entry (R497). -/
structure TsEntry where
  msgType : Nat
  seqId : Nat
  domain : Nat
  tick : Nat
  sub : Nat
deriving DecidableEq, Repr

/-- R469, R496: a PTP frame that goes to Sorrel, with its receive capture. -/
structure PtpRx where
  frame : List Byte
  tick : Nat
  sub : Nat
deriving DecidableEq, Repr

/-- A transparent-clock copy waiting at an egress port (R499, R500): its bytes, whether its residence time is added,
and its ingress capture in 1/16 ticks. -/
structure TcCopy where
  port : Nat
  correct : Bool
  ingress : Nat
  frame : List Byte
deriving DecidableEq, Repr

/-- The timebase. -/
structure Tim where
  /-- R489: the tick count in units of 2^-48 tick, modulo 2^112. -/
  tick : Nat := 0
  /-- R489: the count runs (from the first setting of CLOCK after a reset). -/
  running : Bool := false
  /-- R489, R503: RATE in units of 2^-48. -/
  rate : Int := 0
  /-- R503: the integrator. -/
  integ : Int := 0
  /-- R493: NT_OFFSET in units of 2^-16 ns. -/
  ntOffset : Nat := 0
  /-- R504: the servo's state and the one it left for COAST. -/
  servo : Servo := .free
  coastFrom : Servo := .free
  /-- R504, R509: the servo's TIME_VALID flag. -/
  timeValid : Bool := false
  /-- R508: TIM_CTRL. -/
  forceHold : Bool := false
  servoEn : Bool := false
  /-- R509: TIM_STAT. -/
  stepped : Bool := false
  holdExpired : Bool := false
  offsetDrop : Bool := false
  tsOvf : Bool := false
  tsBad : Bool := false
  tcDrop : Bool := false
  lockRun : Nat := 0
  /-- R510: TIM_SNAP registers: the tick, and N in units of 2^-16 ns. -/
  snapTick : Nat := 0
  snapTime : Nat := 0
  /-- R510: TIM_OFFSET. -/
  offsetLo : Nat := 0
  offsetHi : Nat := 0
  /-- R511: TIM_SERVO. -/
  kpExp : Int := 4
  kiExp : Int := 0
  lockCount : Nat := 8
  /-- R512: TIM_LOCK, TIM_HOLD, TIM_TC. -/
  stepThresh : Nat := 10
  lockBound : Nat := 100
  holdLimit : Nat := 10
  timeout : Nat := 1000
  tcAll : Bool := false
  tcDomain : Nat := 0
  tcPorts : Nat := 0
  /-- R513: LAST_OFFSET. -/
  lastOffset : Int := 0
  /-- R502, R513: the PTP protocol's setting; port 255 means stopped. -/
  ptpPort : Nat := 255
  ptpDomain : Nat := 0
  ptpTransport : Nat := 0
  ptpLogSync : Int := 0
  ptpRole : Nat := 0
  /-- R513: SYNC_RX. -/
  syncRx : BitVec 32 := 0
  /-- R499, R500: copies held, oldest first. -/
  copies : List TcCopy := []
deriving DecidableEq, Repr

end Sys2Proof.Machine
end

