-- ==== Sys2Proof/Machine/Units/Lanes.lean ====
section
/-! DEFINITION. State of the serial lanes, the Ethernet ports and the PCIe host port (chapter 12). -/

namespace Sys2Proof.Machine

/-- R481: the states of a quad. -/
inductive QuadState where
  | off | waitGrant | waking | on | deep | draining
deriving DecidableEq, Repr

/-- A lane quad (R444, R462, R463, R479, R481). -/
structure Quad where
  /-- R479: LANE_QCFG. -/
  qmode : Nat := 0
  keepInTrim : Bool := false
  baud : Nat := 0
  /-- R481: LANE_QSTAT. -/
  refLost : Bool := false
  refused : Bool := false
  busyRefused : Bool := false
  pendingEnable : Bool := false
  state : QuadState := .off
  /-- R463: the recorded target of a shutdown is DEEP. -/
  toDeep : Bool := false
  /-- R463: the waiting request is a wake from DEEP. -/
  fromDeep : Bool := false
  /-- R465: it was put to sleep by TRIM, and leaving TRIM wakes it. -/
  trimSlept : Bool := false
deriving DecidableEq, Repr

/-- A write a receive stream has outstanding (R456): its device address, its data, how far RX_WPTR moves past it, whether
it is answered. -/
structure RxWrite where
  addr : Nat
  data : List Byte
  moves : Nat
  answered : Bool
deriving DecidableEq, Repr

/-- A read a transmit stream has outstanding (R458): its device address, its length, its data once answered, and whether
the stream was restarted since (R488). -/
structure TxRead where
  addr : Nat
  len : Nat
  data : Option (List Byte)
  old : Bool
deriving DecidableEq, Repr

/-- A lane with its two streams (R447 to R460, R482 to R484). -/
structure Lane where
  /-- R447: the three taps of the transmit equaliser, as the board description packs them. -/
  txTaps : Nat := 0
  /-- R482: LANE_CFG. -/
  txEn : Bool := false
  rxEn : Bool := false
  txInv : Bool := false
  rxInv : Bool := false
  txPrecode : Bool := false
  rxPrecode : Bool := false
  coding : Nat := 0
  format : Nat := 0
  align : Nat := 1
  prbs : Nat := 0
  freeRun : Bool := false
  alignK : Nat := 0xBC
  idleK : Nat := 0xBC
  /-- R483: LANE_STAT. -/
  streamErr : Bool := false
  errCode : Nat := 0
  overrun : Bool := false
  ptrErr : Bool := false
  syncLost : Bool := false
  los : Bool := false
  aligned : Bool := false
  rxLock : Bool := false
  errs : Nat := 0
  /-- R484: ring registers. -/
  rxBase : Nat := 0
  rxSize : Nat := 0
  rxFlush : Nat := 0
  rxWptr : Nat := 0
  rxRptr : Nat := 0
  txBase : Nat := 0
  txSize : Nat := 0
  txWptr : Nat := 0
  txRptr : Nat := 0
  dropBytes : Nat := 0
  txIdle : Nat := 0
  /-- R459: a stream stopped by an answer other than OK. -/
  rxStopped : Bool := false
  txStopped : Bool := false
  /-- R456: bytes gathered and not yet written, oldest first. -/
  rxBuf : List Byte := []
  /-- R456: byte count of the next write to issue (RX_WPTR plus the writes outstanding). -/
  rxNext : Nat := 0
  /-- R456: up to 8 writes outstanding, oldest first. -/
  rxOut : List RxWrite := []
  /-- R451: the stream position of the next character is odd. -/
  rxOdd : Bool := false
  /-- R452: which of the last 256 characters were flagged, newest at bit 0. -/
  flagged : BitVec 256 := 0
  /-- R450: running disparity is positive. -/
  rxDisp : Bool := false
  txDisp : Bool := false
  /-- R448: P(n-1) of each direction. -/
  rxLast : Nat := 0
  txLast : Nat := 0
  /-- R482: PRBS generator and checker registers. -/
  txPrbs : BitVec 31 := BitVec.allOnes 31
  rxPrbs : BitVec 31 := 0
  /-- R458: transmit bytes read and not yet sent, oldest first; byte count of the next read; reads outstanding. -/
  txBuf : List Byte := []
  txNext : Nat := 0
  txOut : List TxRead := []
  /-- R458: the position in TX_IDLE of the next idle bit group. -/
  idlePos : Nat := 0
  /-- What leaves the lane: the last character or bit group sent. -/
  txOutput : Nat := 0
deriving DecidableEq, Repr

/-- An Ethernet port (R468 to R472, R485, R486, R497). -/
structure Port where
  /-- R485: ETH_CFG. -/
  ptpSorrel : Bool := true
  mcastEn : Bool := true
  promisc : Bool := false
  fec : Nat := 0
  speed : Nat := 0
  /-- R485: a FEC not allowed keeps the quad OFF. -/
  badFec : Bool := false
  /-- R486: ETH_STAT and ETH_MAC. -/
  linkUp : Bool := false
  localFault : Bool := false
  remoteFault : Bool := false
  fecLock : Bool := false
  linkLost : Bool := false
  cfgErr : Bool := false
  mac : BitVec 48 := 0
  /-- R472: the ten counters. -/
  counters : List (Nat × Nat) := []
  /-- R470: the next receive record number. -/
  recordNo : BitVec 32 := 0
  /-- R497: egress time-stamp FIFO, oldest first, at most 16. -/
  tsFifo : List TsEntry := []
  /-- R469: frames passed to Sorrel, newest first. -/
  toSorrel : List PtpRx := []
  /-- The last frame the port sent, FCS not included. -/
  sent : List Byte := []
deriving DecidableEq, Repr

/-- A piece of a host request in the network (R475, R476): its BAR0 offset, device address, length, data of a write,
whether its response will be discarded at the port (R478), the request it is a piece of, and the tags of the posted writes
that must be answered before it enters the network (R277, R461). -/
structure HostReq where
  offset : Nat
  addr : Nat
  len : Nat
  write : Bool
  data : List Byte
  discard : Bool
  req : Nat
  after : List Nat
deriving DecidableEq, Repr

/-- A read completion as R476 gives it, or what it signals of a posted write. -/
inductive HostCpl where
  | success (offset : Nat) (data : List Byte)
  | unsupported (offset : Nat)
  | aborted (offset : Nat)
  /-- EP set, data all ones. -/
  | poisoned (offset len : Nat)
  /-- A posted write logged and signalled as an Unsupported Request, as a Completer Abort, or logged as poisoned. -/
  | writeUnsupported (offset : Nat)
  | writeAborted (offset : Nat)
  | writePoisoned (offset : Nat)
deriving DecidableEq, Repr

/-- A completion that waits for those of lower addresses (R476): its request, its BAR0 offset. -/
structure HostHeld where
  req : Nat
  offset : Nat
  cpl : HostCpl
deriving DecidableEq, Repr

/-- The PCIe host port (R473 to R478, R487). -/
structure Pci where
  /-- R487: PCI_STAT. -/
  linkUp : Bool := false
  linkWidth : Nat := 0
  linkRate : Nat := 0
  /-- R478: the link is in L0 with memory space enabled. -/
  memEnabled : Bool := false
  /-- R487: PCI_CFG. -/
  pciLanes : Nat := 0
  /-- R487: aperture base, bits 63:27. -/
  aper : BitVec 64 := 0x0000010000000000
  /-- R487: PCI_ERR. -/
  hostWrErr : Bool := false
  errCode : Nat := 0
  errOffset : Nat := 0
  /-- R477: MSI-X table, 256 words; vector control words read 1 (masked) at reset as PCIe gives (PRESUMED, log 30). -/
  msixTable : List (Nat × Nat) := []
  /-- R477: pending bit array. -/
  pba : BitVec 64 := 0
  /-- R476: host requests in the network, by tag. -/
  reqs : List (Nat × Option HostReq) := []
  /-- R476: how many host requests have come, and the completions that wait for address order. -/
  count : Nat := 0
  held : List HostHeld := []
  /-- R476: what the host port has answered, newest first. -/
  completions : List HostCpl := []
deriving DecidableEq, Repr

/-- The lanes, the ports and the host port. -/
structure Lan where
  quads : List (Nat × Quad) := []
  lanes : List (Nat × Lane) := []
  ports : List (Nat × Port) := []
  pci : Pci := {}
deriving DecidableEq, Repr

end Sys2Proof.Machine
end

