-- ==== Sys2Proof/Machine/Units/Noc.lean ====
section
/-! DEFINITION. State of the network on chip (chapter 8). -/

namespace Sys2Proof.Machine

/-- A packet (R310): its header fields and its data units. -/
structure Packet where
  destPier : Nat
  destPort : Nat
  srcPier : Nat
  srcPort : Nat
  srcClass : Nat
  srcIndex : Nat
  /-- R310 VC: 0 request, 1 response, 2 management. -/
  vc : Nat
  epoch : Bool
  rclass : Bool
  opcode : Nat
  tag : Nat
  age : Nat
  resp : Nat
  qout : Nat
  /-- R310 SIZE: bytes less one. -/
  size : Nat
  laPort : Nat
  addr : BitVec 64
  /-- LEN is the number of data units. -/
  data : List (BitVec 256)
deriving DecidableEq, Repr

/-- A packet in flight: the pier its header stands at, the input port it came in by, the port it leaves by (R316), and
the NoC cycle at which it came there (R321), when it entered the network (R331), and the unit of it whose crossing has failed
last, with the number of failures in a row (R309). -/
structure Flight where
  pkt : Packet
  pier : Nat
  input : Nat
  exit : Nat
  arrived : Nat
  entered : Nat
  failUnit : Nat := 0
  fails : Nat := 0
deriving DecidableEq, Repr

/-- A request a source port has outstanding (R316, R325, R331): its tag, epoch and entry cycle. -/
structure OutReq where
  tag : Nat
  epoch : Bool
  entered : Nat
deriving DecidableEq, Repr

/-- A pier (R303, R309, R326, R339 to R341). -/
structure Pier where
  misroute : Bool := false
  dropped : Bool := false
  linkFail : BitVec 7 := 0
  ce : Nat := 0
  replay : Nat := 0
  inj0 : BitVec 32 := 0
  ej0 : BitVec 32 := 0
  inj1 : BitVec 32 := 0
  ej1 : BitVec 32 := 0
  /-- R321: the round-robin pointers of each output port: between channels, then between inputs. -/
  vcPtr : List (Nat × Nat) := []
  inPtr : List (Nat × Nat) := []
deriving DecidableEq, Repr

/-- A pier group's registers (R342, R343). -/
structure NocGroup where
  causes : BitVec 8 := 0
  firstCause : Nat := 0
  firstPier : Nat := 0
  en : BitVec 8 := 0xDE
deriving DecidableEq, Repr

/-- A latency monitor (R331, R346, R347). -/
structure Monitor where
  en : Bool := false
  port : Nat := 0
  max : Nat := 0
  bins : List (Nat × Nat) := []
deriving DecidableEq, Repr

/-- Bandwidth counters of a port (R330, R345). -/
structure BwCount where
  tx : Nat := 0
  rx : Nat := 0
deriving DecidableEq, Repr

/-- The network. -/
structure Noc where
  /-- R318: packets in flight, by identity. -/
  flight : List (Nat × Option Flight) := []
  nextId : Nat := 0
  /-- R339: the piers, by number. -/
  piers : List (Nat × Pier) := []
  /-- R316, R344: route entries written over the default routes, by (pier * 2 + epoch) * 120 + destination. -/
  routes : List (Nat × Option Nat) := []
  /-- R337: CNT32. -/
  cnt32 : Bool := false
  /-- R338: NOC_EPOCH. -/
  tableLive : Bool := false
  oldLive : Bool := false
  epoch : Bool := false
  /-- R324: local ports, by port ID, that have not yet adopted the epoch. -/
  pending : List (Nat × Bool) := []
  /-- R325: requests outstanding by source port ID. -/
  out : List (Nat × List OutReq) := []
  /-- R342, R343: the pier groups, by number. -/
  groups : List (Nat × NocGroup) := []
  /-- R345: the 48-bit counters of each port. -/
  bw : List (Nat × BwCount) := []
  /-- R346, R347: the latency monitors. -/
  monitors : List (Nat × Monitor) := []
  /-- R161, R331: the NoC-cycle counter, and its fraction of a cycle in VCO cycles times 16. -/
  cycle : Nat := 0
  cycleFrac : Nat := 0
  /-- R30: hub ports, by port ID, at which a fence stands because a readiness bit has cleared. -/
  fences : List (Nat × Bool) := []
  /-- R335: requests delivered to their ports and not answered yet, oldest first, with the NoC cycle of their delivery. -/
  waiting : List (Packet × Nat) := []
  /-- R312, R335: requests answered at their ports, oldest first, whose responses have not entered the network yet. -/
  replies : List (Packet × Answer) := []
  /-- The packet delivered last, which its destination port has taken (R318). -/
  delivered : Option Packet := none
deriving DecidableEq, Repr

end Sys2Proof.Machine
end

