-- ==== Sys2Proof/Machine/Units/Queue.lean ====
section
/-! DEFINITION. State of the queue manager (chapter 7). -/

namespace Sys2Proof.Machine

/-- R261, R262: STATE of a queue. -/
inductive QState where
  | disabled | active | faulted
deriving DecidableEq, Repr

/-- Where the answer of a push or pop goes (R264, R274, R301). -/
inductive Origin where
  /-- A NoC requester: its initiator and tag. -/
  | noc (src : Initiator) (tag : Nat)
  /-- A pop doorbell: the record's destination address. -/
  | doorbell (dest : Nat)
  /-- A mailbox command waiting in this mailbox. -/
  | mailbox (mbx : Nat)
deriving DecidableEq, Repr

/-- A queue descriptor (R261) with what the hardware keeps beside it. -/
structure Queue where
  state : QState := .disabled
  spillEn : Bool := false
  paused : Bool := false
  underrun : Bool := false
  fullSeen : Bool := false
  stale : Bool := false
  access : Nat := 0
  prefetch : Nat := 0
  capacity : Nat := 0
  pageBase : Nat := 0
  pageCount : Nat := 0
  head : Nat := 0
  tail : Nat := 0
  staleUs : Nat := 0
  pers : Nat := 0xFFFF
  lastValue : BitVec 256 := 0
  /-- R282: held pops in arrival order; HELD is set while there is one. -/
  held : List Origin := []
  /-- R271: the timer has fired and is not armed again. -/
  fired : Bool := false
  /-- R301: a destroy, and a reset, is pending. -/
  destroying : Bool := false
  resetting : Bool := false
deriving DecidableEq, Repr

/-- R283: WHERE of a page map entry. -/
inductive Where where
  | none | scratch | dram | moving
deriving DecidableEq, Repr

/-- A page map entry (R283). -/
structure PageEntry where
  whr : Where := .none
  poisoned : Bool := false
  queue : Nat := 0
  spage : Nat := 0
  seq : Nat := 0
deriving DecidableEq, Repr

/-- A doorbell operation in flight (R275, R276): a push waits for its source read; a pop's record waits for its writes. -/
structure DoorbellOp where
  queue : Nat
  push : Bool
  addr : Nat
  /-- R276: the two halves of the record. -/
  first : List Byte
  second : List Byte
  /-- R276: the first record write has been answered. -/
  firstDone : Bool
deriving DecidableEq, Repr

/-- R277: a doorbell write that waits in the host port: its queue, whether it is a push, its address, and the tags of the
posted writes that came before it and are not answered. -/
structure Bell where
  queue : Nat
  push : Bool
  addr : Nat
  after : List Nat
deriving DecidableEq, Repr

/-- R281: a spill under way: its virtual page and the data read from the scratch page, unit by unit. -/
structure Spill where
  page : Nat
  data : List Nat
deriving DecidableEq, Repr

/-- A queue group's registers (R295 to R298); the counters by k. -/
structure QGroup where
  causes : BitVec 7 := 0
  firstCause : Nat := 0
  firstQ : Nat := 0
  en : BitVec 7 := 0x79
  counters : List (Nat × Nat) := []
deriving DecidableEq, Repr

/-- The queue manager. -/
structure Qm where
  queues : List (Nat × Queue) := []
  /-- R283, R284: the entries of the page map, by virtual page: those in the cache, and the DRAM entries last written back
  to the map. -/
  map : List (Nat × PageEntry) := []
  /-- R284: DRAM entries held in the cache, by virtual page. -/
  cached : List (Nat × Bool) := []
  /-- R279: banks granted, and those being returned (R285). -/
  banks : BitVec 256 := 0
  returning : BitVec 256 := 0
  /-- R280: scratch pages allocated. -/
  used : List (Nat × Bool) := []
  /-- R281: spills under way; R301: virtual pages whose spill a reset or destroy of their queue overtook; R282: pages being
  fetched, as (virtual page, scratch page); R285: copies, as (virtual page, new scratch page). -/
  spills : List Spill := []
  doomed : List Nat := []
  fetches : List (Nat × Nat) := []
  copies : List (Nat × Nat) := []
  /-- R281: spilling has started and not reached SPILL_HIGH. -/
  spilling : Bool := false
  /-- R274: latched lower doorbell registers, by queue. -/
  pushLo : List (Nat × Nat) := []
  popLo : List (Nat × Nat) := []
  /-- R277: doorbell writes that wait in the host port, in order. -/
  bells : List Bell := []
  /-- R277: doorbell operations in flight, in order. -/
  doorbells : List DoorbellOp := []
  /-- R289: QM_CTRL. -/
  emptyZero : Bool := false
  spillGlobal : Bool := true
  staleEn : Bool := true
  /-- R291: QM_WATER. -/
  spillHigh : Nat := 64
  spillLow : Nat := 32
  /-- R292, R293. -/
  mapBase : Nat := 0
  storeBase : Nat := 0
  mapCh : Nat := 0
  vpages : Nat := 0
  /-- R294: MISSES. -/
  misses : Nat := 0
  /-- R295 to R298: the queue groups, by number. -/
  groups : List (Nat × QGroup) := []
deriving DecidableEq, Repr

end Sys2Proof.Machine
end

