-- ==== Sys2Proof/Machine/Units/Scratch.lean ====
section
/-! DEFINITION. State of the scratch banks (chapter 9). -/

namespace Sys2Proof.Machine

/-- A stored unit (R351): its 36 symbols, symbol `i` in bits 8i+7:8i, and the three copies of its poison flag.
Zero is the cleared unit: zero data with valid check symbols. -/
structure SUnit where
  symbols : BitVec 288 := 0
  poison : BitVec 3 := 0
deriving DecidableEq, Repr

/-- R356, R367: the states of a bank's ownership. -/
inductive BankState where
  | owned | draining | waitGrant | wiping
deriving DecidableEq, Repr

/-- A bank (R355, R356, R367). -/
structure Bank where
  state : BankState := .owned
  /-- R367: REFUSED. -/
  refused : Bool := false
  /-- R367: WIPE, KIND and INDEX. -/
  wipe : Bool := false
  kind : Nat := 0
  index : Nat := 0
  /-- R356: the new owner as latched. -/
  newKind : Nat := 0
  newIndex : Nat := 0
  /-- R352: units whose corrected value waits for the bank's next idle cycle. -/
  writeBacks : List Nat := []
  /-- R358: the round-robin pointer over the source port IDs. -/
  pointer : Nat := 0
deriving DecidableEq, Repr

/-- R370: the states of a group. -/
inductive GroupState where
  | off | waitGrant | clearing | on
deriving DecidableEq, Repr

/-- A scratch group (R357, R368 to R370). -/
structure SGroup where
  state : GroupState := .off
  causes : BitVec 5 := 0
  firstCause : Nat := 0
  firstBank : Nat := 0
  en : BitVec 5 := 0x1E
deriving DecidableEq, Repr

/-- Scratch. -/
structure Spd where
  /-- R348: stored units, by bank * 8192 + unit. -/
  units : List (Nat × SUnit) := []
  /-- R367: the banks, by number. -/
  banks : List (Nat × Bank) := []
  /-- R357, R368: the bank groups, by number. -/
  groups : List (Nat × SGroup) := []
  /-- R362: SPD_CTRL. -/
  scrubEn : Bool := true
  gap : Nat := 0
  /-- R363: SPD_SCRUB_STAT. -/
  passes : Nat := 0
  waitGrant : Bool := false
  skipped : Bool := false
  group : Nat := 0
  /-- R360: a burst holds its credit; its next unit. -/
  burst : Bool := false
  nextUnit : Nat := 0
  /-- R354, R364: counts. -/
  ce : Nat := 0
  ue : Nat := 0
  /-- R365: SPD_ERR_LOG. -/
  logValid : Bool := false
  logKind : Bool := false
  logSource : Nat := 0
  logBank : Nat := 0
  logUnit : Nat := 0
  logSymbol : Nat := 0
  /-- R366: SPD_INJECT. -/
  injArm : Bool := false
  injBank : Nat := 0
  injFlip : BitVec 4 := 0
  /-- R279, R361: Sorrel's own grant of bank 0 has been made since the last reset. -/
  autoGranted : Bool := false
deriving DecidableEq, Repr

end Sys2Proof.Machine
end

