-- ==== Sys2Proof/Machine/Units/Security.lean ====
section
/-! DEFINITION. State of access rights, the scrambler key and the lifecycle (chapter 11). -/

namespace Sys2Proof.Machine

/-- R426: an entry at reset: disabled. -/
def noRights : RightsEntry := ⟨false, false, false, false, 0, 0, 0, 0, 0⟩

/-- A captured violation and the count (R422, R440). -/
structure Acc where
  /-- R420, R441: the table by entry. -/
  entries : List (Nat × RightsEntry) := []
  /-- R425, R440: UPDATING: the tables that some copies still hold. -/
  old : List (List (Nat × RightsEntry)) := []
  /-- R440. -/
  viol : Bool := false
  write : Bool := false
  cls : Nat := 0
  index : Nat := 0
  count : Nat := 0
  addr : Nat := 0
deriving DecidableEq, Repr

/-- The scrambler's key (R431 to R433, R438, R439). -/
structure Scm where
  keyReady : Bool := false
  keyFail : Bool := false
  attempts : Nat := 0
  /-- R433, R439: BYPASS. -/
  bypass : Bool := false
  /-- R438: KEY_SERIAL: only a power-on reset returns it to 0. -/
  keySerial : BitVec 16 := 0
  /-- R431: the key; none is readable. 0 while KEY_READY is clear (no rule; log 6). -/
  key : BitVec 128 := 0
deriving DecidableEq, Repr

/-- R436: an armed change. -/
structure Arm where
  target : Nat
  nonce : BitVec 16
  /-- The tick count at which it was armed. -/
  since : Nat
deriving DecidableEq, Repr

/-- The lifecycle (R436). The fuses themselves are in `Fuses`. -/
structure Lcs where
  arm : Option Arm := none
  /-- R436, R443: the timer of the last arm has expired, and no command has come since. -/
  expired : Bool := false
  /-- R436: BLOWING, as the target and the fuses of its group blown so far. -/
  blowing : Option (Nat × Nat) := none
deriving DecidableEq, Repr

/-- Security. -/
structure Sec where
  acc : Acc := {}
  scm : Scm := {}
  lcs : Lcs := {}
deriving DecidableEq, Repr

end Sys2Proof.Machine
end

