-- ==== Sys2Proof/Machine/Units/Spans.lean ====
section
/-! DEFINITION. State of the span pager (chapter 4). -/

namespace Sys2Proof.Machine

/-- R177: the states of a slot. -/
inductive SlotState where
  | disabled | empty | waitGrant | loading | starting | resident | draining | saving | wiping
deriving DecidableEq, Repr

/-- A span slot (R135 to R179). -/
structure Slot where
  /-- R138: the slot table of the base image holds the slot. -/
  listed : Bool := false
  /-- R139, R179: it is defined, and its definition. -/
  defined : Bool := false
  die : Bool := false
  col0 : Nat := 0
  row0 : Nat := 0
  col1 : Nat := 0
  row1 : Nat := 0
  initEnable : Bool := false
  interfaceId : Nat := 0
  /-- R137: direction maps by tile * 4 + edge (0 north, 1 east, 2 south, 3 west). -/
  dirs : List (Nat × BitVec 512) := []
  /-- R176: SPN_SLOT_CFG. -/
  evictIdle : Bool := false
  idleTime : Nat := 0
  /-- R177: SPN_SLOT_STAT. -/
  evicted : Bool := false
  stateLost : Bool := false
  aborted : Bool := false
  busyRefused : Bool := false
  loaded : Bool := false
  pendingEnable : Bool := false
  enabled : Bool := false
  state : SlotState := .disabled
  pers : Nat := 0
  /-- R178: SPN_SLOT_ERR. -/
  errCode : Nat := 0
  errFrame : Nat := 0
  /-- R167: credits held. -/
  credits : Nat := 0
  /-- R180: LOAD_CYCLES, SAVE_CYCLES and LOADS. -/
  loadCycles : Nat := 0
  saveCycles : Nat := 0
  loads : Nat := 0
  /-- R153: the header of the stream has been checked. -/
  headerOk : Bool := false
  /-- R147, R157: next frame, counted through the slot's tiles; frames written. -/
  nextFrame : Nat := 0
  /-- R146: the place in the image, in bytes from KIND; frames left in the block being read and the address of the next. -/
  imgPos : Nat := 0
  imgLeft : Nat := 0
  imgNext : Nat := 0
  /-- R164: when the pager chose the operation under way, counted over all choices. -/
  chosen : Nat := 0
  /-- R158: the load under way is a restore. -/
  restore : Bool := false
  /-- R153: running CRC-32 of the tile's image frames, and of its state frames. -/
  crc : BitVec 32 := BitVec.allOnes 32
  tileCrc : List Nat := []
  /-- R150: the step under way or next, 0 to 4; the CLK step has tiles still to start. -/
  step : Nat := 0
  clkLeft : Nat := 0
  /-- R142: span hold; R143: span set-reset. -/
  hold : Bool := false
  setReset : Bool := false
  /-- R150, R151: OUT and RST of the present span have run. -/
  outDone : Bool := false
  rstDone : Bool := false
  /-- R163: the residency of the span, or a further MAX_RES period since a refusal (R166), has run out. -/
  resExpired : Bool := false
  /-- R162: the idle timer has run out and the idle condition has held since. -/
  idle : Bool := false
  /-- R180: NoC cycle at which the operation under way began. -/
  opStart : Nat := 0
  /-- R154: the wipe follows an abort (else a disable). -/
  wipeAbort : Bool := false
deriving DecidableEq, Repr

/-- A personality descriptor (R148, R181). -/
structure Pers where
  installed : Bool := false
  homeSlot : Nat := 0
  stateless : Bool := false
  pinned : Bool := false
  blocked : Bool := false
  stateValid : Bool := false
  stateLost : Bool := false
  inDemand : Bool := false
  /-- R161: a command 0x0505 waits to be served. -/
  asked : Bool := false
  /-- R148: the descriptor: SPAN_CREDITS, MAX_RES, DEMAND_DEPTH. -/
  spanCredits : Nat := 0
  maxRes : Nat := 0
  demandDepth : Nat := 0
  /-- R161: the demand age. -/
  age : Nat := 0
  /-- R148: the descriptor: where image and state stand, and the fields of the header. -/
  imageAddr : Nat := 0
  stateAddr : Nat := 0
  startOrder : Nat := 0
  pllMask : Nat := 0
  interfaceId : Nat := 0
  tiles : Nat := 0
  imageLen : Nat := 0
  /-- R155: the save sequence number and the tick count of the latest capture. -/
  saveSeq : BitVec 32 := 0
  saveTick : Nat := 0
deriving DecidableEq, Repr

/-- The span pager. -/
structure Spn where
  /-- R174: SPN_CTRL. -/
  trimEvict : Bool := true
  pagerEn : Bool := true
  /-- R138: the personality store. -/
  storeBase : Nat := 0
  storeSize : Nat := 0
  /-- R138: the slots, by number. -/
  slots : List (Nat × Slot) := []
  /-- R148: the personalities, by ID. -/
  pers : List (Nat × Pers) := []
  /-- R164: port operations by die, in the order chosen: the slot at the head runs, the others wait. -/
  westQueue : List Nat := []
  eastQueue : List Nat := []
  /-- R164: choices made. -/
  choices : Nat := 0
  /-- R139: FABRIC has set, so that the slots are defined. -/
  live : Bool := false
deriving DecidableEq, Repr

end Sys2Proof.Machine
end

