-- ==== Sys2Proof/Machine/Units/System.lean ====
section
/-! DEFINITION. State of the whole device (chapters 1, 19, 20, 21) and of Sorrel, the mailboxes and the event controller
(chapter 17). Each field's docstring names its rule; its default is its value at reset. -/

namespace Sys2Proof.Machine

/-- The six modes of R6. -/
inductive Mode where
  | off | load | safe | run | trim | hold
deriving DecidableEq, Repr

/-- The readiness word of R32 and R33, one Bool a bit. -/
structure Ready where
  /-- R32 bit 0: root PLL locked, every divider at its nominal ratio. -/
  clock : Bool := false
  /-- R32 bit 1: current governor granting. -/
  current : Bool := false
  /-- R32 bit 2: Sorrel firmware running. -/
  sorrel : Bool := false
  /-- R32 bit 3: PCIe link trained and BAR0 decoding. -/
  pcie : Bool := false
  /-- R32 bit 4: event controller routing events. -/
  events : Bool := false
  /-- R32 bit 5: tick counter running. -/
  timebase : Bool := false
  /-- R32 bit 6: network time valid. -/
  timeValid : Bool := false
  /-- R32 bit 7: all 32 scratch groups cleared. -/
  scratch : Bool := false
  /-- R32 bit 8: queue manager accepting pushes and pops. -/
  queues : Bool := false
  /-- R32 bit 9: page map's channel ready. -/
  qspill : Bool := false
  /-- R32 bit 10: upset scrubber walking. -/
  scrubber : Bool := false
  /-- R32 bit 11: span pager accepting. -/
  spanPager : Bool := false
  /-- R32 bit 12: lane controller accepting. -/
  lanes : Bool := false
  /-- R32 bit 13: base configuration running. -/
  fabric : Bool := false
  /-- R32 bits 23:16: DRAM channels. -/
  ddrCh : BitVec 8 := 0
  /-- R33 bits 11:0: engine clusters awake. -/
  engCluster : BitVec 12 := 0
  /-- R33 bits 19:12: Ethernet ports up. -/
  ethPort : BitVec 8 := 0
deriving DecidableEq, Repr

/-- The device as a whole. -/
structure Dev where
  /-- R6, R652, R626: the mode; OFF until POR_N is released. -/
  mode : Mode := .off
  /-- R666, R625: COMPAT as sampled at the release of POR_N; low before (DESIGN CHOICE, log 2). -/
  compat : Bool := false
  /-- R32, R33: DEV_READY and DEV_READY_UNIT. -/
  ready : Ready := {}
  /-- R34: DEV_READY_LOST, laid out as DEV_READY. -/
  lost : BitVec 32 := 0
  /-- R656, R626: HOLD_CAUSE. -/
  holdCause : Nat := 0
  /-- R661: CAUSES of DEV_HOLD_INFO. -/
  holdCauses : BitVec 5 := 0
  /-- R661: BUSY_TILES of DEV_HOLD_INFO. -/
  busyTiles : Nat := 0
  /-- R661: DEV_HOLD_TICK. -/
  holdTick : BitVec 64 := 0
  /-- R627: CONFLICT. -/
  conflict : Bool := false
  /-- R627: OFFSET of DEV_CONFLICT. -/
  conflictOffset : Nat := 0
  /-- R628: DEV_HEARTBEAT. -/
  heartbeat : BitVec 32 := 0
  /-- R681: TRIP. -/
  tempTrip : Bool := false
  /-- R680, R681: THERM_N is driven low now. -/
  therm : Bool := false
  /-- R681: EAST, HUB and WEST die temperatures. -/
  tempEast : BitVec 8 := 0
  tempHub : BitVec 8 := 0
  tempWest : BitVec 8 := 0
  /-- R687: HI latches by (source port * 2^26 + LO offset); an unread pair reads its HI register's At reset value. -/
  hiLatch : List (Nat × Option Nat) := []
  /-- R588, R674: output CFG_DONE is high. -/
  cfgDone : Bool := false
  /-- R589, R674: output CFG_ERR_N is driven low. -/
  cfgErrLow : Bool := false
  /-- R528: output CLK_FAULT_N is driven low. -/
  clkFaultLow : Bool := false
  /-- R657, R659: the device drives HOLD_N low. -/
  holdLow : Bool := false
  /-- R564: CFG_MODE as sampled; 0 before (DESIGN CHOICE, log 2). -/
  cfgMode : Nat := 0
  /-- R564: PULL_CFG_N as sampled; low before (DESIGN CHOICE, log 2). -/
  pullCfgN : Bool := false
  /-- R659: CLOCK has set since the last reset, so HOLD_N, sensors and route tables are live. -/
  clockSeen : Bool := false
  /-- R680: the device has power and POR_N is high (the internal reset of R678 is released). -/
  powered : Bool := false
deriving DecidableEq, Repr

/-- The one-time fuses: the only state no reset and no loss of power clears (R435, R652). -/
structure Fuses where
  /-- R435, R442: lifecycle fuses, three groups (DEVELOP, FIELD, RETURN) of three. Unblown as made (DESIGN CHOICE, log 3). -/
  lifecycle : BitVec 9 := 0
  /-- R442: unit ID; 0 (DESIGN CHOICE, log 3). -/
  unitId : BitVec 64 := 0
  /-- R579: owner key hash; zero while not fused. -/
  ownerKey : BitVec 384 := 0
  /-- R579, R592: the owner key hash is fused. -/
  keyFused : Bool := false
  /-- R638, R646: anti-rollback steps, 128 of three fuses each. -/
  antiRollback : BitVec 384 := 0
  /-- R625: GRADE; S1 (DESIGN CHOICE, log 3). -/
  grade : BitVec 2 := 1
  /-- R625: RANGE; I (DESIGN CHOICE, log 3). -/
  range : Bool := false
deriving DecidableEq, Repr

/-- What restarts the device when a pending restart's millisecond has passed (R690). -/
inductive Restart where
  /-- 0x0104: as CFG_RESTART_N does, in HOLD too. -/
  | reset
  /-- 0x0403, 0x0405 and 0x0C02: as CFG_RESTART_N does. -/
  | restart
  /-- 0x0D05: the stop of every clocked block, then the fuses (R436). -/
  | lifecycle
deriving DecidableEq, Repr

/-- A change between RUN and TRIM under way (R653): who asked and for what. -/
structure ModeChange where
  toRun : Bool
deriving DecidableEq, Repr

/-- Sorrel (R597, R598, R623). -/
structure Sorrel where
  /-- R32 bit 2's own condition: firmware runs. -/
  running : Bool := false
  /-- R36: SORREL stays set although CLOCK or CURRENT is clear, from CLK_COAST until both are set again. -/
  coastHold : Bool := false
  /-- R598: a restart after a lockstep mismatch is under way. -/
  restarting : Bool := false
  /-- R598: the firmware's digest is recorded and its SRAM copy sound. -/
  firmwareLoaded : Bool := false
  /-- R623: SORREL has set since the last reset, so UPTIME_MS counts. -/
  uptimeOn : Bool := false
  /-- R623: UPTIME_MS. -/
  uptimeMs : BitVec 64 := 0
  /-- R623: RESTARTS, an RWS count. -/
  restarts : BitVec 32 := 0
  /-- R623: MISMATCHES, an RWS count. -/
  mismatches : BitVec 32 := 0
  /-- R623: SRAM_CE. -/
  sramCe : BitVec 32 := 0
  /-- R623: SRAM_UE. -/
  sramUe : BitVec 32 := 0
  /-- R623: COMMANDS taken. -/
  commands : BitVec 64 := 0
  /-- R625: FW_MAJOR and FW_MINOR of the running firmware. -/
  fwMajor : BitVec 8 := 0
  fwMinor : BitVec 8 := 0
  /-- R611: the round-robin pointer over mailboxes 0 to 17. -/
  pointer : Nat := 0
  /-- R653: the mode change under way. -/
  modeChange : Option ModeChange := none
  /-- R690: the restart whose millisecond is running. -/
  restart : Option Restart := none
  /-- R622: 0x0103 has been carried out; HOLD is entered once its final OK is written. The MODEL's own, 0 between
  commands. -/
  holdNext : Bool := false
  /-- R615: data a read placed for the next Capture-DR of MBXACC. -/
  jtagData : BitVec 32 := 0
  /-- R614: words the latest sideband read sent. -/
  sideband : List Nat := []
deriving DecidableEq, Repr

/-- A command taken and not finally answered (R606). -/
structure Task where
  opcode : Nat
  seq : Nat
  tag : Nat
  ordered : Bool
  /-- R610: DEADLINE_MS. -/
  deadline : Nat
  /-- The tick count at which it was taken (R605, ELAPSED_US). -/
  taken : Nat
  /-- Response slots still reserved for it (R606, R613). -/
  slots : Nat
  /-- The object it awaits (a slot, cluster, channel, quad, bank ...). -/
  obj : Nat
  /-- A second argument of the awaited operation. -/
  arg : Nat
deriving DecidableEq, Repr

/-- One mailbox (R601 to R613, R633 to R635). -/
structure Mailbox where
  /-- R633: ENC_V1; takes COMPAT's level at every reset. -/
  encV1 : Bool := false
  /-- R633: IRQ_EN. -/
  irqEn : Bool := false
  /-- R633: RSP_VECTOR. -/
  rspVector : Nat := 0
  /-- R634: EXPECT_SEQ. -/
  expectSeq : Nat := 0
  /-- R634: PTR_ERR. -/
  ptrErr : Bool := false
  /-- R635: the four ring counts, each modulo 2^16. -/
  cmdTail : Nat := 0
  cmdHead : Nat := 0
  rspTail : Nat := 0
  rspHead : Nat := 0
  /-- R634: RESERVED response slots. -/
  reserved : Nat := 0
  /-- R606: commands taken and not finally answered; OUTSTANDING is their number. -/
  tasks : List Task := []
  /-- R622: TAKEN, saturating. -/
  taken : BitVec 64 := 0
  /-- R602: command ring, 1,024 bytes. -/
  cmdRing : List (Nat × Byte) := []
  /-- R602: response ring, 1,024 bytes. -/
  rspRing : List (Nat × Byte) := []
deriving DecidableEq, Repr

/-- One EVT_ROUTE register (R630). -/
structure Route where
  msixEn : Bool := false
  sorrelEn : Bool := true
  lineEn : Bool := false
  line : Nat := 0
  vector : Nat := 0
deriving DecidableEq, Repr

/-- The event controller (R616 to R620, R629 to R632). -/
structure Events where
  /-- R629: EVT_PEND, bit n is source n. -/
  pend : BitVec 384 := 0
  /-- R630: EVT_ROUTE by source. -/
  route : List (Nat × Route) := []
  /-- R631: EVT_VEC_ARMED, all armed at reset. -/
  armed : BitVec 64 := BitVec.allOnes 64
  /-- R632: EVT_LINE_ENG by line, bit n selects engine n; all set at reset. -/
  lineEng : List (Nat × BitVec 96) := []
  /-- R620: FAB_EVT lines pulsed since the last timebase cycle. -/
  fabEvt : BitVec 16 := 0
  /-- R623: the last raises Sorrel received, newest first: (tick, event). -/
  log : List (Nat × Nat) := []
  /-- R477, R619: MSI-X messages sent, newest first, as vector numbers (what the host has seen). -/
  sent : List Nat := []
deriving DecidableEq, Repr

end Sys2Proof.Machine
end

