-- ==== Sys2Proof/Machine/State.lean ====
section
/-! DEFINITION. The whole state of the EF960 as plain data, and its reset state. Each unit's structure stands in
Machine/Units, where every field names its rule and its default is its value at reset. -/

namespace Sys2Proof.Machine

/-- The state of the block. -/
structure State where
  /-- Chapters 1, 19 to 21: mode, readiness, hold, conflict, latches, outputs. -/
  dev : Dev := {}
  /-- Chapter 14: clocks. -/
  clk : Clk := {}
  /-- Chapter 15: the current governor. -/
  gov : Gov := {}
  /-- Chapter 13: timebase and servo. -/
  tim : Tim := {}
  /-- Chapter 17: Sorrel. -/
  sor : Sorrel := {}
  /-- Chapter 17: mailboxes 0 to 17. -/
  mbx : List (Nat × Mailbox) := []
  /-- Chapter 17: the event controller. -/
  evt : Events := {}
  /-- Chapter 12: lanes, Ethernet, PCIe. -/
  lan : Lan := {}
  /-- Chapters 2 and 3: the fabric. -/
  fab : Fab := {}
  /-- Chapter 4: spans. -/
  spn : Spn := {}
  /-- Chapters 16 and 18: loading and firmware update. -/
  boot : Boot := {}
  /-- Chapters 5 and 6: engines and pins. -/
  eng : Eng := {}
  /-- Chapter 7: queues. -/
  qm : Qm := {}
  /-- Chapter 8: the network. -/
  noc : Noc := {}
  /-- Chapter 9: scratch. -/
  spd : Spd := {}
  /-- Chapter 10: DRAM. -/
  ddr : Ddr := {}
  /-- Chapter 11: rights, key, lifecycle. -/
  sec : Sec := {}
  /-- Chapters 11, 16, 18: the fuses. -/
  fuse : Fuses := {}
  /-- R312: responses that targets have given and that have not entered the network, newest first. -/
  answers : List Answer := []
  /-- R307, R93: answers that a source port has given its own owner, newest first. -/
  told : List Answer := []
  /-- The MODEL's own: how many free values have been drawn (0 at reset, DESIGN CHOICE, log 1). -/
  free : Nat := 0
  /-- The commands that wait, first in, first out. -/
  pending : List Instr := []
deriving DecidableEq, Repr

/-- What could stop the machine with a fault: nothing. No rule of the spec gives a command whose effect is to stop. -/
inductive Fault where
  /-- Raised by no meaning; safe (kept so that the type is not empty). -/
  | none
deriving DecidableEq, Repr

/-- Why a command could be refused. -/
inductive Refusal where
  /-- A command with no meaning yet; raised only by Dispatch's arms; safe. -/
  | notModelled (mnemonic : String)
deriving DecidableEq, Repr

/-- The machine right after reset: power not yet released (R652), every register at its At reset value (R11). -/
def State.reset : State := {}

end Sys2Proof.Machine
end

