-- ==== Sys2Proof/Machine/Tables.lean ====
section
/-! DEFINITION. Sparse tables in canonical form (keys strictly rising, no entry equal to the default), byte-order and
bit-field helpers. Every repeated object of the spec (tiles, queues, banks, lanes ...) is one such table. -/

namespace Sys2Proof.Machine

/-- Read key `k`: an unlisted key holds the default `d`. -/
def tget {α : Type} (d : α) : List (Nat × α) → Nat → α
  | [], _ => d
  | (j, w) :: t, k => if k < j then d else if k = j then w else tget d t k

/-- Drop the leading entries whose key is at most `k`. -/
def dropLe {α : Type} (k : Nat) : List (Nat × α) → List (Nat × α)
  | [] => []
  | (j, w) :: t => if j ≤ k then dropLe k t else (j, w) :: t

/-- Write key `k`; writing the default removes the entry, so that equal tables are equal lists. -/
def tset {α : Type} [DecidableEq α] (d : α) : List (Nat × α) → Nat → α → List (Nat × α)
  | [], k, v => if v = d then [] else [(k, v)]
  | (j, w) :: t, k, v =>
    if j < k then (j, w) :: tset d t k v
    else if v = d then dropLe k ((j, w) :: t) else (k, v) :: dropLe k ((j, w) :: t)

/-- Apply `f` to key `k`. -/
def tmod {α : Type} [DecidableEq α] (d : α) (t : List (Nat × α)) (k : Nat) (f : α → α) : List (Nat × α) :=
  tset d t k (f (tget d t k))

/-- Apply `f` to every listed entry from key `a` on (an unlisted key keeps the default, so `f d` must be `d`). -/
def tmapFrom {α : Type} [DecidableEq α] (d : α) (f : Nat → α → α) : Nat → List (Nat × α) → List (Nat × α)
  | _, [] => []
  | a, (j, w) :: t =>
    if j < a then tmapFrom d f a t else
    let v := f j w
    if v = d then tmapFrom d f (j + 1) t else (j, v) :: tmapFrom d f (j + 1) t
/-- Apply `f` to every listed entry. -/
def tmap {α : Type} [DecidableEq α] (d : α) (f : Nat → α → α) (t : List (Nat × α)) : List (Nat × α) := tmapFrom d f 0 t

/-- Every key that satisfies `p` reads as the default. -/
def tdrop {α : Type} [DecidableEq α] (d : α) (p : Nat → Bool) (t : List (Nat × α)) : List (Nat × α) :=
  tmap d (fun k v => if p k then d else v) t

/-- Keys strictly rising from above `lo`. -/
def risingFrom {α : Type} : Nat → List (Nat × α) → Bool
  | _, [] => true
  | lo, (j, _) :: t => decide (lo ≤ j) && risingFrom (j + 1) t

/-- The canonical form of a table. -/
def Tbl.wf {α : Type} [DecidableEq α] (d : α) (t : List (Nat × α)) : Bool :=
  risingFrom 0 t && t.all (fun e => decide (e.2 ≠ d))

/-- Set keys `k`, `k+1`, ... from a list. -/
def tsetMany {α : Type} [DecidableEq α] (d : α) (t : List (Nat × α)) (k : Nat) : List α → List (Nat × α)
  | [] => t
  | v :: vs => tsetMany d (tset d t k v) (k + 1) vs

/-- Read `n` keys from `k`. -/
def tgetMany {α : Type} (d : α) (t : List (Nat × α)) (k n : Nat) : List α :=
  (List.range n).map (fun i => tget d t (k + i))

/-! ### Bits and bytes -/

/-- Bits `lo + len - 1` to `lo` of a number. -/
def bits (v lo len : Nat) : Nat := v / 2 ^ lo % 2 ^ len

/-- Bit `i` of a number. -/
def bit (v i : Nat) : Bool := v / 2 ^ i % 2 == 1

/-- A flag at bit `i`. -/
def flag (b : Bool) (i : Nat) : Nat := if b then 2 ^ i else 0

/-- A field of width `len` placed at bit `lo`; wider values keep their low bits. -/
def field (v lo len : Nat) : Nat := v % 2 ^ len * 2 ^ lo

/-- A one-bit number. -/
def b2n (b : Bool) : Nat := if b then 1 else 0

/-- `v` with bit `i` set to `b`. -/
def setBit (v i : Nat) (b : Bool) : Nat :=
  if bit v i = b then v else if b then v + 2 ^ i else v - 2 ^ i

/-- A number as `n` bytes, little-endian (R11, R605). -/
def leBytes (n v : Nat) : List Byte := (List.range n).map (fun i => BitVec.ofNat 8 (v / 256 ^ i))

/-- A little-endian number of a byte list. -/
def ofLe : List Byte → Nat
  | [] => 0
  | b :: t => b.toNat + 256 * ofLe t

/-- The little-endian field of `n` bytes at offset `o`, and whether its bytes are zero. -/
def leAt (l : List Byte) (o n : Nat) : Nat := ofLe ((l.drop o).take n)
def zeroAt (l : List Byte) (o n : Nat) : Bool := ((l.drop o).take n).all (· = 0)

/-- A signed reading of the low `w` bits. -/
def sgn (w v : Nat) : Int := if v % 2 ^ w < 2 ^ (w - 1) then (v % 2 ^ w : Int) else (v % 2 ^ w : Int) - 2 ^ w

/-- An integer modulo `2^w`. -/
def wrapNat (w : Nat) (i : Int) : Nat := (i % 2 ^ w).toNat

/-- `o` lies in `len` bytes from `base`. -/
def within (o base len : Nat) : Bool := base ≤ o && o < base + len

/-- Ceiling division. -/
def cdiv (a b : Nat) : Nat := (a + b - 1) / b

/-- A 48-bit counter with a saturation flag: the value to add stops at the largest value. -/
def satAdd (w v n : Nat) : Nat := min (v + n) (2 ^ w - 1)

/-- Position `i` of a list, or a default. -/
def lget {α : Type} (d : α) (l : List α) (i : Nat) : α := l.getD i d

/-- R417: a training register's fields, by its offset within the channel. -/
def trainingMask (o : Nat) : Nat :=
  if !within o 0x1000 0x400 then 0
  else
    let j := o % 0x100
    if j < 0x50 then (if j % 8 = 0 then 0x03FF007F else 0x03FF7F7F) else if j = 0x60 then 0x03FF007F else 0

end Sys2Proof.Machine
end

