-- ==== Sys2Proof/Machine/Ops.lean ====
section
/-! DEFINITION. The operations every family shares: reading and updating one object of the state, drawing a free value,
the tick count, raising an event, faulting a context, and the shape of a command's answer. -/

namespace Sys2Proof.Machine

/-! ### One object of each kind -/

/-- Read and update one Tile by its number. -/
def State.tile (s : State) (i : Nat) : Tile := tget {} s.fab.tiles i
def State.modTile (s : State) (i : Nat) (g : Tile → Tile) : State :=
  { s with fab := { s.fab with tiles := tmod {} s.fab.tiles i g } }
/-- Read and update one Pll by its number. -/
def State.pll (s : State) (i : Nat) : Pll := tget {} s.fab.plls i
def State.modPll (s : State) (i : Nat) (g : Pll → Pll) : State :=
  { s with fab := { s.fab with plls := tmod {} s.fab.plls i g } }
/-- Read and update one BMem by its number. -/
def State.bmem (s : State) (i : Nat) : BMem := tget {} s.fab.mems i
def State.modBmem (s : State) (i : Nat) (g : BMem → BMem) : State :=
  { s with fab := { s.fab with mems := tmod {} s.fab.mems i g } }
/-- Read and update one Quad by its number. -/
def State.quad (s : State) (i : Nat) : Quad := tget {} s.lan.quads i
def State.modQuad (s : State) (i : Nat) (g : Quad → Quad) : State :=
  { s with lan := { s.lan with quads := tmod {} s.lan.quads i g } }
/-- Read and update one Lane by its number. -/
def State.lane (s : State) (i : Nat) : Lane := tget {} s.lan.lanes i
def State.modLane (s : State) (i : Nat) (g : Lane → Lane) : State :=
  { s with lan := { s.lan with lanes := tmod {} s.lan.lanes i g } }
/-- Read and update one Port by its number. -/
def State.port (s : State) (i : Nat) : Port := tget {} s.lan.ports i
def State.modPort (s : State) (i : Nat) (g : Port → Port) : State :=
  { s with lan := { s.lan with ports := tmod {} s.lan.ports i g } }
/-- Read and update one Slot by its number. -/
def State.slot (s : State) (i : Nat) : Slot := tget {} s.spn.slots i
def State.modSlot (s : State) (i : Nat) (g : Slot → Slot) : State :=
  { s with spn := { s.spn with slots := tmod {} s.spn.slots i g } }
/-- Read and update one Pers by its number. -/
def State.pers (s : State) (i : Nat) : Pers := tget {} s.spn.pers i
def State.modPers (s : State) (i : Nat) (g : Pers → Pers) : State :=
  { s with spn := { s.spn with pers := tmod {} s.spn.pers i g } }
/-- Read and update one Engine by its number. -/
def State.engine (s : State) (i : Nat) : Engine := tget {} s.eng.engines i
def State.modEngine (s : State) (i : Nat) (g : Engine → Engine) : State :=
  { s with eng := { s.eng with engines := tmod {} s.eng.engines i g } }
/-- Read and update one Ctx by its number. -/
def State.ctx (s : State) (i : Nat) : Ctx := tget {} s.eng.ctxs i
def State.modCtx (s : State) (i : Nat) (g : Ctx → Ctx) : State :=
  { s with eng := { s.eng with ctxs := tmod {} s.eng.ctxs i g } }
/-- Read and update one Cluster by its number. -/
def State.cluster (s : State) (i : Nat) : Cluster := tget {} s.eng.clusters i
def State.modCluster (s : State) (i : Nat) (g : Cluster → Cluster) : State :=
  { s with eng := { s.eng with clusters := tmod {} s.eng.clusters i g } }
/-- Read and update one Pin by its number. -/
def State.pin (s : State) (i : Nat) : Pin := tget {} s.eng.pins i
def State.modPin (s : State) (i : Nat) (g : Pin → Pin) : State :=
  { s with eng := { s.eng with pins := tmod {} s.eng.pins i g } }
/-- Read and update one Queue by its number. -/
def State.queue (s : State) (i : Nat) : Queue := tget {} s.qm.queues i
def State.modQueue (s : State) (i : Nat) (g : Queue → Queue) : State :=
  { s with qm := { s.qm with queues := tmod {} s.qm.queues i g } }
/-- Read and update one PageEntry by its number. -/
def State.page (s : State) (i : Nat) : PageEntry := tget {} s.qm.map i
def State.modPage (s : State) (i : Nat) (g : PageEntry → PageEntry) : State :=
  { s with qm := { s.qm with map := tmod {} s.qm.map i g } }
/-- Read and update one QGroup by its number. -/
def State.qgroup (s : State) (i : Nat) : QGroup := tget {} s.qm.groups i
def State.modQgroup (s : State) (i : Nat) (g : QGroup → QGroup) : State :=
  { s with qm := { s.qm with groups := tmod {} s.qm.groups i g } }
/-- Read and update one Pier by its number. -/
def State.pier (s : State) (i : Nat) : Pier := tget {} s.noc.piers i
def State.modPier (s : State) (i : Nat) (g : Pier → Pier) : State :=
  { s with noc := { s.noc with piers := tmod {} s.noc.piers i g } }
/-- Read and update one NocGroup by its number. -/
def State.nocGroup (s : State) (i : Nat) : NocGroup := tget {} s.noc.groups i
def State.modNocGroup (s : State) (i : Nat) (g : NocGroup → NocGroup) : State :=
  { s with noc := { s.noc with groups := tmod {} s.noc.groups i g } }
/-- Read and update one Monitor by its number. -/
def State.monitor (s : State) (i : Nat) : Monitor := tget {} s.noc.monitors i
def State.modMonitor (s : State) (i : Nat) (g : Monitor → Monitor) : State :=
  { s with noc := { s.noc with monitors := tmod {} s.noc.monitors i g } }
/-- Read and update one Bank by its number. -/
def State.bank (s : State) (i : Nat) : Bank := tget {} s.spd.banks i
def State.modBank (s : State) (i : Nat) (g : Bank → Bank) : State :=
  { s with spd := { s.spd with banks := tmod {} s.spd.banks i g } }
/-- Read and update one SGroup by its number. -/
def State.sgroup (s : State) (i : Nat) : SGroup := tget {} s.spd.groups i
def State.modSgroup (s : State) (i : Nat) (g : SGroup → SGroup) : State :=
  { s with spd := { s.spd with groups := tmod {} s.spd.groups i g } }
/-- Read and update one Chan by its number. -/
def State.chan (s : State) (i : Nat) : Chan := tget {} s.ddr.chans i
def State.modChan (s : State) (i : Nat) (g : Chan → Chan) : State :=
  { s with ddr := { s.ddr with chans := tmod {} s.ddr.chans i g } }
/-- Read and update one SubCh by its number. -/
def State.sub (s : State) (i : Nat) : SubCh := tget {} s.ddr.subs i
def State.modSub (s : State) (i : Nat) (g : SubCh → SubCh) : State :=
  { s with ddr := { s.ddr with subs := tmod {} s.ddr.subs i g } }
/-- Read and update one Supply by its number. -/
def State.supply (s : State) (i : Nat) : Supply := tget {} s.gov.supplies i
def State.modSupply (s : State) (i : Nat) (g : Supply → Supply) : State :=
  { s with gov := { s.gov with supplies := tmod {} s.gov.supplies i g } }
/-- Read and update one mailbox. -/
def State.mailbox (s : State) (m : Nat) : Mailbox := tget {} s.mbx m
def State.modMailbox (s : State) (m : Nat) (g : Mailbox → Mailbox) : State := { s with mbx := tmod {} s.mbx m g }
/-- Read and update one event route. -/
def State.route (s : State) (n : Nat) : Route := tget {} s.evt.route n
def State.modRoute (s : State) (n : Nat) (g : Route → Route) : State :=
  { s with evt := { s.evt with route := tmod {} s.evt.route n g } }

/-! ### The answers of a command -/

/-- The answer of a command that blows no fuse: the next state, with the queue and the fuses as they were. -/
def effect (f : State → State) (s : State) : Host.Outcome State Fault Refusal :=
  .next { f s with pending := s.pending, fuse := s.fuse }

/-- The answer of a command that may blow a fuse (R436, R596, R646). -/
def effectFuse (f : State → State) (s : State) : Host.Outcome State Fault Refusal :=
  .next { f s with pending := s.pending }

/-- `f` when `c` holds; an event that cannot happen in `s` leaves `s` as it is (log 7). -/
def when (c : Bool) (f : State → State) (s : State) : State := if c then f s else s

/-- Apply `f` to each number of a list in turn. -/
def forEach (l : List Nat) (f : Nat → State → State) (s : State) : State := l.foldl (fun a i => f i a) s

/-! ### Free values -/

/-- Draw a free value of `w` bits. -/
def draw (w : Nat) (s : State) : BitVec w × State := (Config.freeValue w s.free, { s with free := s.free + 1 })

/-! ### Time -/

/-- R489: the integer tick count. -/
def State.now (s : State) : Nat := s.tim.tick / 2 ^ 48

/-- Ticks in a millisecond (R489: 1.5 GHz). -/
def msTicks : Nat := 1500000

/-! ### Engine events and faults used by every family -/

/-- R616, R617: numbers of the device events. -/
def evMode : Nat := 0
def evReady : Nat := 1
def evCoast : Nat := 2
def evClock : Nat := 3
def evGov : Nat := 4
def evDone : Nat := 5
def evLoadFail : Nat := 6
def evTrialFail : Nat := 7
def evConflict : Nat := 11
def evSorrel : Nat := 12

/-- R620: a pulse of one event line: the pending bit of each selected engine, and FAB_EVT. A context in WAIT_EVENT
becomes READY by `wakeEvents` (R215, R244). -/
def pulseLine (line : Nat) (s : State) : State :=
  let mask := tget (BitVec.allOnes 96) s.evt.lineEng line
  { s with
    evt := { s.evt with fabEvt := s.evt.fabEvt ||| BitVec.twoPow 16 line }
    eng := { s.eng with evtPend := tmod 0 s.eng.evtPend line (· ||| mask) } }

/-- R215: ENG_EVT_PEND of engine `n`. -/
def engPend (s : State) (n : Nat) : Nat :=
  (List.range 16).foldl (fun a i => a + b2n ((tget 0 s.eng.evtPend i).getLsbD n) * 2 ^ i) 0

/-- R215, R244: every context in WAIT_EVENT whose mask meets its engine's pending bits becomes READY and goes on after
its WAITE; one whose stop at the next wait has been asked for is not there any more (R194). In HOLD every context keeps
what it had (R208). -/
def wakeEvents (s : State) : State :=
  { s with eng := { s.eng with ctxs := tmap {} (fun i c =>
      if s.dev.mode ≠ .hold ∧ c.state = .waitEvent ∧ c.mask &&& BitVec.ofNat 16 (engPend s (i / 4)) ≠ 0
      then { c with state := .ready, pc := c.pc + 1 } else c) s.eng.ctxs } }

/-- R618, R620, R623: raise source `n`: its EVT_PEND bit, its event line, and Sorrel's log. -/
def raiseEvent (n : Nat) (s : State) : State :=
  if n < 384 then
    let r := s.route n
    let s := { s with evt := { s.evt with pend := s.evt.pend ||| BitVec.twoPow 384 n } }
    let s := if r.sorrelEn ∧ s.dev.ready.sorrel then
      { s with evt := { s.evt with log := ((s.now, n) :: s.evt.log).take 256 } } else s
    if r.lineEn then wakeEvents (pulseLine r.line s) else s
  else s

/-- R190: a context may issue. -/
def issuable (c : Ctx) : Bool := decide (c.state = .ready) || decide (c.state = .running)

/-- R192: the deadline of a running context has passed for the first time since it was set. -/
def deadlinePassed (s : State) (c : Ctx) : Bool :=
  (issuable c || decide (c.state = .waitNoc) || decide (c.state = .waitPin)) && decide (c.deadline.toNat < s.now)
    && decide (c.deadline ≠ BitVec.allOnes 64) && !c.missed

/-- R192: a deadline miss is recorded. -/
def countMiss (c : Ctx) : Ctx := { c with dlMiss := true, missed := true, misses := satAdd 16 c.misses 1 }

/-- R194, R195: fault a context: it stops where it stands; event 16 + n. A deadline miss of the same cycle is recorded
too (R256). -/
def faultCtx (n k code detail : Nat) (s : State) : State :=
  let late := deadlinePassed s (s.ctx (4 * n + k))
  raiseEvent (16 + n) (s.modCtx (4 * n + k) fun c =>
    { (if late then countMiss c else c) with state := .faulted, fault := code, detail := BitVec.ofNat 16 detail })

/-- R196, R197: TIME_VALID has cleared: every engine's TIME_INVALID sets, and each context with NEED_TIME in WAIT_TICK
faults with TIME_INVALID, but in HOLD, where every context keeps its state (R208). -/
def timeInvalid (s : State) : State :=
  let s := forEach (List.range 96) (fun n a => a.modEngine n fun e => { e with timeInvalid := true }) s
  (s.eng.ctxs.filter (fun e => decide (s.dev.mode ≠ .hold) && e.2.needTime && decide (e.2.state = .waitTick))).foldl
    (fun a e => faultCtx (e.1 / 4) (e.1 % 4) 0x0B 0 a) s

/-- R248: an engine's access of 8 or 32 bytes that is not aligned to its size. -/
def askew (r : Req) : Bool := r.src.cls = 2 && (r.size = 8 || r.size = 32) && r.addr % r.size ≠ 0

/-- R304, R23, R183: the port ID of a local port, and the source port of an initiator. -/
def portId (pier port : Nat) : Nat := 8 * pier + port
def sourcePort (i : Initiator) : Nat :=
  if i.cls = 0 then portId 107 2 else if i.cls = 1 then portId 107 4
  else if i.cls = 2 then portId (36 + i.index / 8) 5 else if i.cls = 3 then portId i.index 4
  else if i.cls = 4 then portId 106 2 else if i.cls = 5 then portId 118 3 else portId 107 3

/-- R304: the local ports of scratch groups, DRAM channels and queue-manager halves. -/
def scratchPort (g : Nat) : Nat := portId (96 + (if g < 16 then g / 2 else g / 2 + 4)) (2 + g % 2)
def dramPort (c : Nat) : Nat := portId (96 + lget 0 [8, 8, 9, 9, 20, 20, 21, 21] c) (2 + c % 2)
def queuePort (half : Nat) : Nat := if half = 0 then portId 106 2 else portId 118 2

/-- R312: a response answers a request of its source and tag. -/
def answers (a : Answer) (p : Packet) : Bool :=
  p.srcClass = a.src.cls && p.srcIndex = a.src.index && p.tag = a.tag

/-- R312, R335: a target gives a response; the oldest request delivered with its source and tag is answered by it, and its
response waits to enter the network. An answer to no delivered request is only recorded (log 152). -/
def answer (a : Answer) (s : State) : State :=
  { s with
    answers := a :: s.answers
    noc := { s.noc with
      waiting := s.noc.waiting.eraseP fun e => answers a e.1
      replies := s.noc.replies ++ ((s.noc.waiting.find? fun e => answers a e.1).toList.map fun e => (e.1, a)) } }

/-- R307: a source port answers its own owner. -/
def tell (a : Answer) (s : State) : State := { s with told := a :: s.told }

/-- R312: the response codes. -/
def rOk : Nat := 0
def rDecode : Nat := 1
def rRights : Nat := 2
def rOff : Nat := 3
def rFrozen : Nat := 4
def rPoison : Nat := 5

/-- R608: the statuses. -/
def stOk : Nat := 0
def stPending : Nat := 1
def stBusy : Nat := 2
def stBudget : Nat := 3
def stBadArg : Nat := 4
def stNotReady : Nat := 5
def stRights : Nat := 6
def stFrozen : Nat := 7
def stWrong : Nat := 8
def stIntegrity : Nat := 9
def stTimeout : Nat := 10
def stUnsupported : Nat := 11

/-- R621: the status of a response code. -/
def statusOf (code : Nat) : Nat :=
  if code = rOk then stOk else if code = rDecode then stBadArg else if code = rRights then stRights
  else if code = rOff then stNotReady else if code = rFrozen then stFrozen else stIntegrity

/-- R84: a tile whose clocks run. -/
def tileRuns (x : Tile) : Bool := (decide (x.state = .on) || decide (x.state = .draining)) && !x.holdStopped

/-- R94: a fabric port is idle: no outbound tag outstanding, no unit waiting to enter the pier, no inbound request
unanswered. -/
def portIdle (x : Tile) : Bool := decide (x.tags = 0) && x.outbound.isEmpty && x.inbound.isEmpty

/-- R87: the port grants the fabric 16 outbound credits once global set-reset is released and its clocks run. -/
def openPort (x : Tile) : Tile :=
  { x with credits := if x.setReset then 0 else 16, owed := 0, inboundFree := x.inboundCfg }

/-- R78, R87: the disable is refused; the credits withheld are returned. -/
def resumeCredits (x : Tile) : Tile := { x with credits := x.credits + x.owed, owed := 0 }

end Sys2Proof.Machine
end

