-- ==== Sys2Proof/Machine/Packet.lean ====
section
/-! DEFINITION. A packet as the network carries it (chapter 8): the layout of its header unit (R310), the virtual channel of
an opcode (R311), and the extended Hamming (266,256) code of every unit (R308). -/

namespace Sys2Proof.Machine

/-- R311: the virtual channel of an opcode. -/
def channelOf (op : Nat) : Nat := if op = 0x20 then 1 else if op = 0x10 ∨ op = 0x11 then 2 else 0

/-- R310: the units of a packet. -/
def packetUnits (x : Packet) : Nat := 1 + x.data.length

/-- R310: the header unit; LEN is the number of data units, reserved bits are 0. -/
def headerUnit (x : Packet) : BitVec 256 :=
  BitVec.ofNat 256 (field x.destPier 249 7 + field x.destPort 246 3 + field x.srcPier 239 7 + field x.srcPort 236 3
    + field x.srcClass 233 3 + field x.srcIndex 226 7 + field x.vc 224 2 + flag x.epoch 223 + flag x.rclass 222
    + field x.opcode 216 6 + field x.data.length 212 4 + field x.tag 204 8 + field x.age 196 8 + field x.resp 193 3
    + field x.qout 191 2 + field x.size 183 8 + field x.laPort 180 3 + field x.addr.toNat 0 64)

/-- R310: the fields of a header unit, with the data units that follow it. -/
def packetOfUnits (h : BitVec 256) (data : List (BitVec 256)) : Packet :=
  let f (lo len : Nat) : Nat := (h.extractLsb' lo len).toNat
  { destPier := f 249 7, destPort := f 246 3, srcPier := f 239 7, srcPort := f 236 3, srcClass := f 233 3
    srcIndex := f 226 7, vc := f 224 2, epoch := h.getLsbD 223, rclass := h.getLsbD 222, opcode := f 216 6
    tag := f 204 8, age := f 196 8, resp := f 193 3, qout := f 191 2, size := f 183 8, laPort := f 180 3
    addr := h.extractLsb' 0 64, data }

/-- R310: LEN of a header unit. -/
def headerLen (h : BitVec 256) : Nat := (h.extractLsb' 212 4).toNat

/-- R310: the bytes from address `a` on, `n` of them, of the data units of a packet: byte `i` of unit `k` is the byte at
address 32 * (a / 32) + 32 * k + i. -/
def unitBytes (data : List (BitVec 256)) (a n : Nat) : List Byte :=
  ((data.flatMap fun u => leBytes 32 u.toNat).drop (a % 32)).take n

/-- R310, R311: the data units that `n` bytes from address `a` need. -/
def unitsFor (a n : Nat) : Nat := cdiv (a % 32 + n) 32

/-- R310: bytes from address `a` on as data units; the bytes outside are 0. -/
def bytesUnits (a : Nat) (l : List Byte) : List (BitVec 256) :=
  let v := ofLe l * 256 ^ (a % 32)
  (List.range (unitsFor a l.length)).map fun k => BitVec.ofNat 256 (v / 2 ^ (256 * k))

/-! ### The code of a unit (R308, log 139) -/

/-- R308: the positions of the 256 data bits in a unit of 266: those from 1 on that are no power of two. -/
def dataPositions : List Nat := (List.range 266).filter fun p => p ≠ 0 && 2 ^ p.log2 ≠ p

/-- The positions that are set in a word of 266 bits. -/
def setPositions (w : BitVec 266) : List Nat := (List.range 266).filter fun p => w.getLsbD p

/-- R308: the Hamming syndrome: the exclusive or of the positions set. -/
def unitSyndrome (w : BitVec 266) : Nat := (setPositions w).foldl (· ^^^ ·) 0

/-- R308: the overall parity, even in a code word. -/
def unitOdd (w : BitVec 266) : Bool := (setPositions w).length % 2 = 1

/-- R308: a unit's 256 data bits in their places. -/
def placeData (v : BitVec 256) : BitVec 266 :=
  (dataPositions.zip (List.range 256)).foldl (fun w e => if v.getLsbD e.2 then w ||| BitVec.twoPow 266 e.1 else w) 0

/-- R308: the 10 check bits: one at each power of two, which make the syndrome 0, and the overall parity at position 0. -/
def encodeUnit (v : BitVec 256) : BitVec 266 :=
  let w := placeData v
  let c := unitSyndrome w
  let w := (List.range 9).foldl (fun w k => if bit c k then w ||| BitVec.twoPow 266 (2 ^ k) else w) w
  if unitOdd w then w ||| 1 else w

/-- The data bits of a word of 266. -/
def takeData (w : BitVec 266) : BitVec 256 :=
  (dataPositions.zip (List.range 256)).foldl (fun v e => if w.getLsbD e.1 then v ||| BitVec.twoPow 256 e.2 else v) 0

/-- R308, R309: what a receiver makes of a unit: its data as they were, or corrected, or nothing where it finds a
double-bit error. -/
inductive UnitCheck where
  | clean (v : BitVec 256)
  | corrected (v : BitVec 256)
  | double
deriving DecidableEq, Repr

/-- The data that a receiver takes from a unit. -/
def UnitCheck.value : UnitCheck → BitVec 256
  | .clean v | .corrected v => v
  | .double => 0
def UnitCheck.wasCorrected : UnitCheck → Bool
  | .corrected _ => true
  | _ => false

def checkUnit266 (w : BitVec 266) : UnitCheck :=
  let c := unitSyndrome w
  if unitOdd w then (if c < 266 then .corrected (takeData (w ^^^ BitVec.twoPow 266 c)) else .double)
  else if c = 0 then .clean (takeData w) else .double

/-- A unit that crosses a link on which its bits `f` flip. -/
def receivedUnit (v : BitVec 256) (f : BitVec 266) : UnitCheck :=
  if f = 0 then .clean v else checkUnit266 (encodeUnit v ^^^ f)

end Sys2Proof.Machine
end

