-- ==== Sys2Proof/Machine/Codes.lean ====
section
/-! DEFINITION. The Reed-Solomon codes of scratch and DRAM over GF(2^8) with x^8 + x^4 + x^3 + x^2 + 1 (R351, R380), their
bounded-distance decoder with erasures (R381, R382), and the DRAM keystream (R429). Symbols are numbers below 256. -/

namespace Sys2Proof.Machine

/-! ### The field -/

/-- Multiplication by the root of the field polynomial. -/
def gfDouble (a : Nat) : Nat := if 128 ≤ a then (2 * a) ^^^ 0x11D else 2 * a

/-- Product, over the low `n` bits of the second factor. -/
def gfMulBits : Nat → Nat → Nat → Nat
  | 0, _, _ => 0
  | n + 1, a, b => (if b % 2 = 1 then a else 0) ^^^ gfMulBits n (gfDouble a) (b / 2)
def gfMul (a b : Nat) : Nat := gfMulBits 8 a b

/-- The root to the power `n`. -/
def gfExp : Nat → Nat
  | 0 => 1
  | n + 1 => gfDouble (gfExp n)

/-- Inverse: the 254th power. -/
def gfSquares : Nat → Nat → Nat
  | 0, _ => 1
  | n + 1, a => let b := gfMul a a; gfMul b (gfSquares n b)
def gfInv (a : Nat) : Nat := gfSquares 7 a

/-! ### Polynomials, lowest coefficient first -/

def polyEval (p : List Nat) (x : Nat) : Nat := p.foldr (fun c acc => c ^^^ gfMul x acc) 0

def polyAdd : List Nat → List Nat → List Nat
  | [], q => q
  | p, [] => p
  | a :: p, b :: q => (a ^^^ b) :: polyAdd p q

def polyScale (c : Nat) (p : List Nat) : List Nat := p.map (gfMul c)

def polyMul : List Nat → List Nat → List Nat
  | [], _ => []
  | a :: p, q => polyAdd (polyScale a q) (0 :: polyMul p q)

/-- The generator with roots 0 to n - 1 (R351, R380). -/
def genPoly : Nat → List Nat
  | 0 => [1]
  | n + 1 => polyMul (genPoly n) [gfExp n, 1]

/-- The degree of a polynomial, counting from the top. -/
def polyDegree (p : List Nat) : Nat := (p.reverse.dropWhile (· = 0)).length - 1

/-! ### Encoding: the check symbols are the remainder of the data polynomial (R351, R380) -/

def rsStep (g : List Nat) (rem : List Nat) (d : Nat) : List Nat :=
  let fb := d ^^^ rem.getLastD 0
  List.zipWith (fun r c => r ^^^ gfMul fb c) (0 :: rem.dropLast) g

/-- Check symbols 0 to n - 1 of the data symbols, data symbol 0 first. -/
def rsCheck (n : Nat) (data : List Nat) : List Nat :=
  data.reverse.foldl (rsStep (genPoly n)) (List.replicate n 0)

/-! ### Decoding -/

/-- The syndromes of a word (coefficient of x^0 first) under the code with `n` check symbols. -/
def syndromes (n : Nat) (word : List Nat) : List Nat := (List.range n).map fun i => polyEval word (gfExp i)

/-- The polynomial with a root at the inverse locator of every position listed. -/
def locator : List Nat → List Nat
  | [] => [1]
  | p :: ps => polyMul [1, gfExp p] (locator ps)

/-- One step of the search for the error locator: (locator, shifted earlier locator, length). -/
def bmStep (synd : List Nat) (e : Nat) (st : List Nat × List Nat × Nat) (r : Nat) : List Nat × List Nat × Nat :=
  let lam := st.1
  let b := 0 :: st.2.1
  let d := (List.range (r + 1)).foldl (fun a i => a ^^^ gfMul (lget 0 lam i) (lget 0 synd (r - i))) 0
  if d = 0 then (lam, b, st.2.2)
  else
    let t := polyAdd lam (polyScale d b)
    if 2 * st.2.2 ≤ r + e then (t, polyScale (gfInv d) lam, r + 1 + e - st.2.2) else (t, b, st.2.2)

/-- The error and erasure locator of the syndromes, given the erased positions. -/
def errorLocator (n : Nat) (synd erased : List Nat) : List Nat :=
  let e := erased.length
  let g := locator erased
  (((List.range n).drop e).foldl (bmStep synd e) (g, g, e)).1

/-- The formal derivative at `x`, times `x`. -/
def oddPart (p : List Nat) (x : Nat) : Nat :=
  (List.range p.length).foldl (fun a i => if i % 2 = 1 then a ^^^ gfMul (lget 0 p i) ((List.replicate i x).foldl gfMul 1)
    else a) 0

/-- The corrections (position, value) that the syndromes call for. -/
def corrections (n len : Nat) (synd erased : List Nat) : List (Nat × Nat) :=
  let lam := errorLocator n synd erased
  let omega := (polyMul synd lam).take n
  ((List.range len).filter fun p => polyEval lam (gfExp (255 - p)) = 0).map fun p =>
    let xi := gfExp (255 - p)
    (p, gfMul (polyEval omega xi) (gfInv (oddPart lam xi)))

/-- Apply corrections to a word. -/
def applyCorrections (word : List Nat) (cs : List (Nat × Nat)) : List Nat :=
  cs.foldl (fun w c => w.set c.1 (lget 0 w c.1 ^^^ c.2)) word

/-- Decode a word: the positions corrected and the corrected word, or none when no pattern within the code's bound
explains the syndromes: twice the errors outside the erasures plus the erasures is at most `n` (R381, R382). -/
def rsDecode (n : Nat) (word erased : List Nat) : Option (List Nat × List Nat) :=
  let synd := syndromes n word
  if synd.all (· = 0) then some ([], word) else
  let cs := (corrections n word.length synd erased).filter fun c => c.2 ≠ 0
  let fixed := applyCorrections word cs
  let outside := (cs.filter fun c => !erased.contains c.1).length
  if (syndromes n fixed).all (· = 0) ∧ 2 * outside + erased.length ≤ n then some (cs.map (·.1), fixed) else none

/-! ### Numbers as symbols -/

/-- The `n` low bytes of a number, as symbols. -/
def symbolsOf (n v : Nat) : List Nat := (List.range n).map fun i => v / 256 ^ i % 256

/-- A number of symbols, symbol 0 lowest. -/
def ofSymbols : List Nat → Nat
  | [] => 0
  | b :: t => b % 256 + 256 * ofSymbols t

/-! ### A scratch unit (R351): symbols 0 to 31 data, 32 to 35 check -/

/-- The word of a stored unit, coefficient of x^0 first: check symbol q is that of x^q, data byte i of x^(4+i). -/
def unitWord (u : BitVec 288) : List Nat := let s := symbolsOf 36 u.toNat; s.drop 32 ++ s.take 32

/-- The 36 symbols of a unit holding the data, number `d` of 32 bytes. -/
def unitEncode (d : Nat) : BitVec 288 :=
  let data := symbolsOf 32 d
  BitVec.ofNat 288 (ofSymbols (data ++ rsCheck 4 data))

/-- The data of a unit. -/
def unitData (u : BitVec 288) : Nat := u.toNat % 2 ^ 256

/-! ### A DRAM line (R379, R380): bytes 0 to 63 data, 64 to 79 check symbols -/

def lineWord (v : BitVec 640) : List Nat := let s := symbolsOf 80 v.toNat; s.drop 64 ++ s.take 64

def lineEncode (d : Nat) : BitVec 640 :=
  let data := symbolsOf 64 d
  BitVec.ofNat 640 (ofSymbols (data ++ rsCheck 16 data))

def lineData (v : BitVec 640) : Nat := v.toNat % 2 ^ 512

/-- R379: the device of the symbol at a position of `lineWord`. -/
def deviceAt (p : Nat) : Nat := if p < 16 then 8 + p / 8 else (p - 16) % 8

/-- The eight positions of a device. -/
def devicePositions (k : Nat) : List Nat := (List.range 80).filter fun p => deviceAt p = k

/-- R416: a line's symbols by device: symbol j of device k in byte 8k + j. -/
def byDevice (v : BitVec 640) : BitVec 640 :=
  let s := symbolsOf 80 v.toNat
  BitVec.ofNat 640 (ofSymbols ((List.range 80).map fun b =>
    let k := b / 8; let j := b % 8
    if k < 8 then lget 0 s (8 * j + k) else lget 0 s (64 + 8 * (k - 8) + j)))

/-! ### The keystream (R429) -/

def shrXor (x n : Nat) : Nat := x ^^^ (x / 2 ^ n)

/-- R429: z(j) for line number `t`. -/
def keyWord (key : BitVec 128) (t j : Nat) : Nat :=
  let k0 := key.toNat % 2 ^ 64
  let k1 := key.toNat / 2 ^ 64
  let x := k0 ^^^ ((t * 8 + j) % 2 ^ 64)
  let x := shrXor x 31 * 0xA3B195F26C4E7D0B % 2 ^ 64
  let x := (x + k1) % 2 ^ 64
  let x := shrXor x 29 * 0xE57C2A91D8B30F67 % 2 ^ 64
  shrXor x 32

/-- The eight keystream words as one number of 64 bytes. -/
def keyLine (key : BitVec 128) (t : Nat) : Nat :=
  (List.range 8).foldl (fun a j => a + keyWord key t j * 2 ^ (64 * j)) 0

end Sys2Proof.Machine
end

