-- ==== Sys2Proof/Machine/Mailbox.lean ====
section
/-! DEFINITION. The mailbox core of chapter 17: writing responses, taking a command, finishing commands that wait. Each
opcode's own checks and first step stand with its family as a handler `State → State × Reply`. -/

namespace Sys2Proof.Machine

/-- What a handler answers: a final response, or PENDING with what the command waits for. -/
inductive Reply where
  | done (status : Nat) (data : List Byte)
  /-- R609: the interim response with `data`; the command then waits for object `obj` (with `arg`). -/
  | wait (data : List Byte) (obj arg : Nat)
  /-- R609: the interim response, and the final one after it, which this step brings too (log 150). -/
  | pend (status : Nat) (data : List Byte)
deriving DecidableEq, Repr

/-- R601: the initiator class of a mailbox's commands: debug for 17, host for the others. -/
def mbxClass (m : Nat) : Nat := if m = 17 then 7 else 0

/-- Store bytes in a ring of 1,024 bytes from offset `o` on (R605). -/
def ringStore (ring : List (Nat × Byte)) (o : Nat) : List Byte → List (Nat × Byte)
  | [] => ring
  | b :: bs => ringStore (tset 0 ring (o % 1024) b) (o + 1) bs

/-- Read `n` bytes of a ring from offset `o` on (R605). -/
def ringLoad (ring : List (Nat × Byte)) (o n : Nat) : List Byte :=
  (List.range n).map fun i => tget 0 ring ((o + i) % 1024)

/-- R605, R613: slots a message of `len` payload bytes occupies. -/
def slotsOf (v1 : Bool) (len : Nat) : Nat := if v1 ∨ 240 < len then 1 else cdiv (16 + len) 64

/-- R435: the lifecycle state: 0 BLANK, 1 DEVELOP, 2 FIELD, 3 RETURN. -/
def groupBlown (f : BitVec 9) (g : Nat) : Bool :=
  decide (2 ≤ b2n (f.getLsbD (3 * g)) + b2n (f.getLsbD (3 * g + 1)) + b2n (f.getLsbD (3 * g + 2)))
def lifecycle (f : Fuses) : Nat :=
  if groupBlown f.lifecycle 2 then 3 else if groupBlown f.lifecycle 1 then 2 else if groupBlown f.lifecycle 0 then 1 else 0

/-- R605, R610: time since a command was taken, in microseconds. -/
def elapsedUs (s : State) (t : Task) : Nat := min ((s.now - t.taken) / 1500) (2 ^ 32 - 1)

/-- R605, R613: the bytes of a response. -/
def responseBytes (v1 : Bool) (s : State) (t : Task) (status : Nat) (final seqErr late : Bool) (data : List Byte) :
    List Byte :=
  if v1 then leBytes 2 t.opcode ++ leBytes 1 t.seq ++ leBytes 1 status ++ leBytes 4 t.tag ++ data
  else leBytes 2 t.opcode ++ leBytes 2 t.seq ++ leBytes 2 data.length ++ leBytes 1 status
    ++ leBytes 1 (b2n final + 2 * b2n seqErr + 4 * b2n late) ++ leBytes 4 (elapsedUs s t) ++ leBytes 4 t.tag ++ data

/-- R603, R605: write a response at MBX_RSP_TAIL and advance it. -/
def writeResponse (m : Nat) (t : Task) (status : Nat) (final seqErr late : Bool) (data : List Byte) (s : State) :
    State :=
  s.modMailbox m fun b =>
    { b with
      rspRing := ringStore b.rspRing (64 * (b.rspTail % 16)) (responseBytes b.encV1 s t status final seqErr late data)
      rspTail := (b.rspTail + slotsOf b.encV1 data.length) % 2 ^ 16 }

/-- R606: the final response of a taken command: written, its reserved slots released, the command no longer
outstanding. -/
def finalResponse (m : Nat) (t : Task) (status : Nat) (late : Bool) (data : List Byte) (s : State) : State :=
  let s := writeResponse m t status true false late data s
  s.modMailbox m fun b => { b with tasks := b.tasks.erase t, reserved := b.reserved - t.slots }

/-- Final responses for every taken command that satisfies `p`, over all mailboxes in order. While Sorrel restarts it
writes none: those commands are answered when the restart ends (R598, R612). -/
def finishIf (p : Task → Bool) (status : Task → Nat) (late : Task → Bool) (data : List Byte) (s : State) : State :=
  if s.sor.restarting then s else
  forEach (List.range 18) (fun m a =>
    ((a.mailbox m).tasks.filter p).foldl (fun a t => finalResponse m t (status t) (late t) data a) a) s

/-- The commands of opcode `op` that wait for object `obj` are finally answered. -/
def finish (op obj status : Nat) (data : List Byte) (s : State) : State :=
  finishIf (fun t => t.opcode = op && t.obj = obj) (fun _ => status) (fun _ => false) data s

/-- Whether a command of opcode `op` waits for object `obj`. -/
def waiting (op obj : Nat) (s : State) : Bool :=
  (List.range 18).any fun m => (s.mailbox m).tasks.any fun t => t.opcode = op && t.obj = obj

/-- R217: STATE of a context as a number. -/
def ctxState : CtxState → Nat
  | .idle => 0 | .ready => 1 | .running => 2 | .waitTick => 3 | .waitEvent => 4 | .waitNoc => 5 | .waitPin => 6
  | .parked => 7 | .faulted => 8

/-- R194, R225: stops (0x0703) whose context is IDLE or FAULTED are over. -/
def reapStops (s : State) : State :=
  let ended (st : CtxState) (s : State) : State :=
    finishIf (fun t => t.opcode = 0x0703 && decide ((s.ctx t.obj).state = st)) (fun _ => stOk) (fun _ => false)
      (leBytes 1 (ctxState st)) s
  ended .faulted (ended .idle s)

/-- R606: free response slots. -/
def freeSlots (b : Mailbox) : Nat := 16 - (b.rspTail + 2 ^ 16 - b.rspHead) % 2 ^ 16 - b.reserved

/-- R606, R613: response slots a command reserves. -/
def reserveOf (b : Mailbox) : Nat := if b.encV1 then 2 else 5

/-- R606, R601: a command at the head of mailbox `m` may be taken. -/
def canTake (m : Nat) (s : State) : Bool :=
  let b := s.mailbox m
  m < 18 && s.dev.ready.sorrel && b.tasks.length < 3 && !b.tasks.any (·.ordered) && reserveOf b ≤ freeSlots b

/-- R605, R613: the header at a mailbox head: what Sorrel reads of it, the opcode, LEN, and whether its zero fields are
zero. -/
def headOf (m : Nat) (s : State) : CmdCtx × Nat × Nat × Bool :=
  let b := s.mailbox m
  let h := ringLoad b.cmdRing (64 * (b.cmdHead % 16)) 16
  if b.encV1 then ({ mbx := m, seq := leAt h 2 1, tag := leAt h 4 4, ordered := true, deadline := 0 }, leAt h 0 2, leAt h 3 1, true)
  else ({ mbx := m, seq := leAt h 2 2, tag := leAt h 12 4, ordered := decide (leAt h 6 1 % 2 = 1), deadline := leAt h 8 4 },
    leAt h 0 2, leAt h 4 2, decide (leAt h 6 1 / 2 = 0) && decide (leAt h 7 1 = 0))

/-- R606: the ring holds a whole message. -/
def wholeMessage (m : Nat) (s : State) : Bool :=
  let b := s.mailbox m
  let (_, _, len, _) := headOf m s
  decide (b.cmdHead ≠ b.cmdTail) && slotsOf b.encV1 len ≤ (b.cmdTail + 2 ^ 16 - b.cmdHead) % 2 ^ 16

/-- R611: the mailboxes that the round-robin pointer passes before it comes to `m`. -/
def aheadOf (pointer m : Nat) : List Nat := (List.range ((m + 18 - pointer % 18) % 18)).map fun i => (pointer + i) % 18

/-- R611: Sorrel may take no command of a mailbox ahead of `m`, so that mailbox `m` is next in turn. -/
def ownTurn (m : Nat) (s : State) : Bool :=
  (aheadOf s.sor.pointer m).all fun j => !(canTake j s && wholeMessage j s)

/-- R612, R436: check 4 of R607: the opcodes mailbox 17 may not issue. -/
def classRefuses (m opcode : Nat) (s : State) : Bool :=
  m = 17 && ((lifecycle s.fuse = 2 && !([0x0101, 0x0201, 0x0301, 0x0401, 0x0E05].contains opcode))
    || opcode = 0x0D04 || opcode = 0x0D05)

/-- R613: the commands whose response fields exceed 56 bytes. -/
def longReply (opcode : Nat) : Bool :=
  [0x0A06, 0x0E06].contains opcode

/-- R606, R622, R611: Sorrel takes one command of `slots` slots: the head passes it, the pointer moves past the mailbox,
the counts rise; the EXPECT_SEQ advance of R607 is `advance`. -/
def takeHead (m slots : Nat) (advance : Bool) (s : State) : State :=
  let s := s.modMailbox m fun b =>
    { b with
      cmdHead := (b.cmdHead + slots) % 2 ^ 16
      taken := if b.taken = BitVec.allOnes 64 then b.taken else b.taken + 1
      expectSeq := if advance then (b.expectSeq + 1) % (if b.encV1 then 2 ^ 8 else 2 ^ 16) else b.expectSeq }
  { s with sor := { s.sor with commands := s.sor.commands + 1, pointer := (m + 1) % 18 } }

/-- R436: any command other than the matching 0x0D05 discards an arm. -/
def disarm (opcode : Nat) (s : State) : State :=
  if opcode = 0x0D05 then s
  else { s with sec := { s.sec with lcs := { s.sec.lcs with arm := none, expired := false } } }

/-- R690: a restart is due one millisecond after the PENDING response; one that is due already stays, but 0x0104 makes it
one that HOLD does not stop (log 102). -/
def armRestart (r : Restart) (s : State) : State :=
  { s with sor := { s.sor with restart := if s.sor.restart.isSome && decide (r ≠ .reset) then s.sor.restart else some r } }

/-- R607, R609: answer a command from a handler's reply. -/
def reply (m : Nat) (t : Task) (r : State × Reply) : State :=
  match r.2 with
  | .done st data => writeResponse m t st true false false data r.1
  | .pend st data => writeResponse m t st true false false data (writeResponse m t stPending false false false [] r.1)
  | .wait data obj arg =>
    let s := writeResponse m t stPending false false false data r.1
    s.modMailbox m fun b =>
      { b with tasks := b.tasks ++ [{ t with obj, arg, slots := t.slots - 1 }], reserved := b.reserved + (t.slots - 1) }

/-- R607: take and check one command of opcode `opcode` and `len` payload bytes, whose zero fields are zero as `zeroOk`
says, and run its handler (none: the opcode is not defined). -/
def takeCommand (q : CmdCtx) (opcode len : Nat) (zeroOk : Bool) (h : Option (State → State × Reply)) (s : State) :
    State :=
  let b := s.mailbox q.mbx
  let t : Task := { opcode, seq := q.seq, tag := q.tag, ordered := q.ordered || b.encV1
                    deadline := if b.encV1 then 0 else q.deadline, taken := s.now, slots := reserveOf b, obj := 0, arg := 0 }
  let n := slotsOf b.encV1 len
  let limit := if b.encV1 then 56 else 240
  if q.seq ≠ b.expectSeq then
    writeResponse q.mbx t stBadArg true true false [] (disarm opcode (takeHead q.mbx n false s))
  else if limit < len ∨ !zeroOk then
    writeResponse q.mbx t stBadArg true false false [] (disarm opcode (takeHead q.mbx n false s))
  else
    let s := disarm opcode (takeHead q.mbx n true s)
    match h with
    | none => writeResponse q.mbx t stUnsupported true false false [] s
    | some h =>
      if classRefuses q.mbx opcode s then writeResponse q.mbx t stRights true false false [] s
      else if b.encV1 && longReply opcode then writeResponse q.mbx t stUnsupported true false false [] s
      else reply q.mbx t (h s)

/-- R605, R613: the bytes of a command. -/
def commandBytes (v1 : Bool) (q : CmdCtx) (opcode : Nat) (payload : List Byte) : List Byte :=
  if v1 then leBytes 2 opcode ++ leBytes 1 q.seq ++ leBytes 1 payload.length ++ leBytes 4 q.tag ++ payload
  else leBytes 2 opcode ++ leBytes 2 q.seq ++ leBytes 2 payload.length ++ leBytes 1 (b2n q.ordered) ++ leBytes 1 0
    ++ leBytes 4 q.deadline ++ leBytes 4 q.tag ++ payload

/-- R603, R604: the host writes one whole message into the command ring and announces it. -/
def postCommand (q : CmdCtx) (opcode : Nat) (payload : List Byte) (s : State) : State :=
  s.modMailbox q.mbx fun b =>
    { b with
      cmdRing := ringStore b.cmdRing (64 * (b.cmdTail % 16)) (commandBytes b.encV1 q opcode payload)
      cmdTail := (b.cmdTail + slotsOf b.encV1 payload.length) % 2 ^ 16 }

/-- An opcode row: the command is announced in an empty ring and taken at once (R603 to R607). Where Sorrel may not take
it now (R606), or earlier commands wait or are ahead in turn (R611), the row leaves the state as it is (log 8): MBX_DOORBELL and MBX_TAKE_COMMAND
give those cases. -/
def command (q : CmdCtx) (opcode : Nat) (payload : List Byte) (h : State → State × Reply) (s : State) : State :=
  when (canTake q.mbx s && ownTurn q.mbx s && (s.mailbox q.mbx).cmdHead = (s.mailbox q.mbx).cmdTail)
    (fun s => takeCommand q opcode payload.length true (some h) (postCommand q opcode payload s)) s

/-- The commonest replies. -/
def ok (s : State) : State × Reply := (s, .done stOk [])
def okWith (data : List Byte) (s : State) : State × Reply := (s, .done stOk data)
def fail (status : Nat) (s : State) : State × Reply := (s, .done status [])

/-- R689: the first condition that fails gives the status; otherwise go on with `f`. -/
def checks (l : List (Bool × Nat)) (f : State → State × Reply) (s : State) : State × Reply :=
  match l with
  | [] => f s
  | (bad, st) :: t => if bad then fail st s else checks t f s

/-- A command field of one, two, four, six or eight bytes keeps its low bits (R605). -/
def u8 (v : Nat) : Nat := v % 2 ^ 8
def u16 (v : Nat) : Nat := v % 2 ^ 16
def u32 (v : Nat) : Nat := v % 2 ^ 32
def u48 (v : Nat) : Nat := v % 2 ^ 48
def u64 (v : Nat) : Nat := v % 2 ^ 64

/-- A payload of fields at byte offsets: (offset, size, value); gaps are zero. -/
def payloadAt (len : Nat) (fields : List (Nat × Nat × Nat)) : List Byte :=
  leBytes len (fields.foldl (fun a f => a + f.2.2 % 256 ^ f.2.1 * 256 ^ f.1) 0)

end Sys2Proof.Machine
end

