-- ==== Sys2Proof/Machine/Current.lean ====
section
/-! DEFINITION. The current governor's books (chapter 15): requests, withdrawals and returns as requesters present them,
the totals of R542, and steps 1 to 4 of a decision as functions on one supply. -/

namespace Sys2Proof.Machine

/-- R543: the kinds of requester. -/
def kTile : Nat := 0
def kPll : Nat := 1
def kSlot : Nat := 2
def kCluster : Nat := 3
def kGroup : Nat := 4
def kWipe : Nat := 5
def kChan : Nat := 6
def kQuad : Nat := 7
def kRamp : Nat := 8
def kScrub : Nat := 9

/-- R545: the class of a kind. -/
def classOf (kind : Nat) : Nat := lget 0 [2, 2, 4, 5, 1, 1, 1, 3, 2, 6] kind

/-- R540: budgets and the standing reservation, in credits. -/
def budget (sp : Nat) : Nat := lget 0 [2160, 320, 176] sp
def standingOf (sp : Nat) : Nat := if sp = 0 then 342 else 0

/-- R551: the supply a kind draws on. -/
def supplyOf (kind : Nat) : Nat := if kind = kQuad then 1 else if kind = kChan then 2 else 0

/-- R542: what is booked against a supply. -/
def heldTotal (u : Supply) : Nat := u.held.foldl (fun a e => a + e.2) 0
def booked (s : State) (sp : Nat) : Nat :=
  (if s.gov.standing then standingOf sp else 0) + heldTotal (s.supply sp)

/-- R547: a request that can never fit. -/
def neverFits (sp credits : Nat) : Bool := budget sp - standingOf sp < credits

/-- R547, R556: reject a request. -/
def rejectRequest (sp kind index : Nat) (s : State) : State :=
  let g := s.gov
  let g := if g.reject then g else { g with rejIndex := index, rejKind := kind, rejSupply := sp }
  raiseEvent evGov { s with gov := { g with reject := true } }

/-- R544: present a request; R547: one that can never fit is rejected at once. -/
def request (kind index credits : Nat) (s : State) : State :=
  let sp := supplyOf kind
  if neverFits sp credits then rejectRequest sp kind index s
  else s.modSupply sp fun u =>
    { u with newReqs := u.newReqs ++ [{ kind, index, cls := classOf kind, credits }] }

/-- R544: withdraw a request: one not yet entered goes at once, one in the queue in the next decision. -/
def withdraw (kind index : Nat) (s : State) : State :=
  s.modSupply (supplyOf kind) fun u =>
    { u with newReqs := u.newReqs.filter (fun r => !(r.kind = kind && r.index = index))
             withdrawn := if u.queue.any (fun r => r.kind = kind && r.index = index)
               then u.withdrawn ++ [(kind, index)] else u.withdrawn }

/-- R544: return credits; the next decision books it. -/
def giveBack (kind index credits : Nat) (s : State) : State :=
  s.modSupply (supplyOf kind) fun u => { u with returned := u.returned ++ [(kind * 256 + index, credits)] }

/-- R542: credits a requester holds, less the returns it has presented. -/
def heldBy (s : State) (kind index : Nat) : Nat :=
  let u := s.supply (supplyOf kind)
  tget 0 u.held (kind * 256 + index)
    - (u.returned.filter (fun e => e.1 = kind * 256 + index)).foldl (fun a e => a + e.2) 0

/-- Return everything a requester holds, and any stage of its staged start still to begin (R550). -/
def giveBackAll (kind index : Nat) (s : State) : State :=
  let s := { s with gov := { s.gov with stages := s.gov.stages.filter (fun g => !(g.kind = kind && g.index = index)) } }
  if heldBy s kind index = 0 then s else giveBack kind index (heldBy s kind index) s

/-! ### A decision (R544) -/

/-- Step 1: book the returns. -/
def bookReturns (u : Supply) : Supply :=
  { u with held := u.returned.foldl (fun h e => tmod 0 h e.1 (· - e.2)) u.held, returned := [] }

/-- Step 2: remove what was withdrawn. -/
def dropWithdrawn (now : Nat) (u : Supply) : Supply :=
  let q := u.queue.filter (fun r => !(u.withdrawn.contains (r.kind, r.index)))
  { u with queue := q, withdrawn := []
           headSince := if q.head? = u.queue.head? then u.headSince else now
           warned := if q.head? = u.queue.head? then u.warned else false }

/-- R545: the order of requests that enter together. -/
def before (a b : GovReq) : Bool :=
  a.cls < b.cls || (a.cls = b.cls && (a.kind < b.kind || (a.kind = b.kind && a.index < b.index)))
def insertReq (r : GovReq) : List GovReq → List GovReq
  | [] => [r]
  | x :: t => if before r x then r :: x :: t else x :: insertReq r t

/-- Step 3: the new requests enter the tail of the queue. -/
def enterNew (now : Nat) (u : Supply) : Supply :=
  let new := (u.newReqs.map (fun r => { r with entered := now })).foldl (fun l r => insertReq r l) []
  { u with queue := u.queue ++ new, newReqs := []
           headSince := if u.queue.isEmpty then now else u.headSince
           warned := if u.queue.isEmpty then false else u.warned }

/-- R549: the slot of a step of `num / den` credits, in ticks. -/
def slotTicks (num den : Nat) : Nat := cdiv (num * 1500) (64 * den)

/-- Grant the head of a queue: its credits are held and the peak follows (R542, R560). -/
def grantHead (now : Nat) (stand : Nat) (u : Supply) : Supply :=
  match u.queue with
  | [] => u
  | r :: t =>
    let u := { u with held := tmod 0 u.held (r.kind * 256 + r.index) (· + r.credits), queue := t
                      headSince := now, warned := false }
    { u with peak := max u.peak (stand + heldTotal u) }

/-- R554: decisions grant: CURRENT and GRANT_EN set, and not in HOLD. -/
def granting (s : State) : Bool := s.dev.ready.current && s.gov.grantEn && decide (s.dev.mode ≠ .hold)

end Sys2Proof.Machine
end

