-- ==== Sys2Proof/Machine/Pager.lean ====
section
/-! DEFINITION. The span pager's decisions (chapter 4): demand and idleness, the evaluation of a slot (R163), the start of a
load and of an eviction, and the end of a shutdown. The pager's own events and commands stand in Machine/Spans.lean. -/

namespace Sys2Proof.Machine

/-! ### Slots and personalities -/

/-- R22, R135: the tiles of a slot in ascending ID order. -/
def slotTiles (x : Slot) : List Nat :=
  (List.range 96).filter fun t => x.col0 ≤ t % 12 && t % 12 ≤ x.col1 && x.row0 ≤ t / 12 && t / 12 ≤ x.row1
def tileCount (x : Slot) : Nat := (slotTiles x).length

/-- The slot that holds a tile, if any. -/
def slotOf (s : State) (t : Nat) : Option (Nat × Slot) :=
  s.spn.slots.find? fun e => e.2.listed && (slotTiles e.2).contains t

/-- R53, R55: the tile that faces an edge (0 north, 1 east, 2 south, 3 west) of tile `t` on its die (R40). -/
def facing (t e : Nat) : Option Nat :=
  let c := t % 12
  let there (ok : Bool) (n : Nat) : Option Nat := if ok then some n else none
  match e with
  | 0 => there (t / 12 < 7) (t + 12)
  | 1 => there (c ≠ 5 && c ≠ 11) (t + 1)
  | 2 => there (12 ≤ t) (t - 12)
  | _ => there (c ≠ 0 && c ≠ 6) (t - 1)

/-- R72, R172: a PLL that stays unlocked stops the clocks of a resident span that uses it. -/
def pllStops (s : State) (t : Nat) : Bool :=
  match slotOf s t with
  | some e => decide (e.2.state = .resident) && (List.range 24).any fun n => bit (s.pers e.2.pers).pllMask n && (s.pll n).outOfRange
  | none => false

/-- The clocks of tile `t` run. -/
def tileClocks (s : State) (t : Nat) : Bool := tileRuns (s.tile t) && !pllStops s t

/-- R95, R142: the port of tile `t` is live: its clocks run and no span hold stands. -/
def portLive (s : State) (t : Nat) : Bool := tileClocks s t && !(s.tile t).spanHold

/-- R263: the depth of a queue. -/
def depthOf (x : Queue) : Nat := (x.tail + 2 ^ 32 - x.head) % 2 ^ 32

/-- R159: the queues bound to a personality. -/
def boundTo (s : State) (p : Nat) : List (Nat × Queue) := s.qm.queues.filter fun e => e.2.pers = p

/-- The slot's personality stands there: R177 PERS counts from WAIT_GRANT on. -/
def occupied (x : Slot) : Bool := decide (x.state ≠ .disabled) && decide (x.state ≠ .empty)
/-- R148, R177: the slot in which a personality is under operation; a RESIDENT one is not (log 145). -/
def operatedIn (s : State) (p : Nat) : Option Nat :=
  (s.spn.slots.find? fun e => occupied e.2 && decide (e.2.state ≠ .resident) && e.2.pers = p).map (·.1)
def residentNow (s : State) (p : Nat) : Bool :=
  s.spn.slots.any fun e => decide (e.2.state = .resident) && e.2.pers = p

/-- R161: a personality is in demand. -/
def demandNow (s : State) (p : Nat) : Bool :=
  let x := s.pers p
  x.installed && !x.blocked && (x.pinned || x.asked
    || (x.demandDepth ≠ 0
        && (boundTo s p).any fun e => decide (e.2.state ≠ .faulted) && x.demandDepth ≤ depthOf e.2))

/-- R162: the two conditions of idleness hold now. -/
def idleNow (s : State) (i : Nat) : Bool :=
  let x := s.slot i
  (boundTo s x.pers).all (fun e => depthOf e.2 = 0) && (slotTiles x).all (fun t => portIdle (s.tile t))

/-- R162: the conditions have been broken: the idle time starts again. -/
def breakIdle (i : Nat) (s : State) : State :=
  if (s.slot i).idle ∧ !idleNow s i then s.modSlot i fun x => { x with idle := false } else s

/-- R160: pause, or end the pause of, the queues bound to a personality. -/
def pauseQueues (p : Nat) (v : Bool) (s : State) : State :=
  let queues := tmap {} (fun _ x => if x.pers = p then { x with paused := v } else x) s.qm.queues
  { s with qm := { s.qm with queues } }

/-- R177: a flag of the slot sets: event 112 + s. -/
def slotEvent (i : Nat) (s : State) : State := raiseEvent (112 + i) s

/-- R163: the personality stands in the slot, or a load of it has been chosen. -/
def standsIn (x : Slot) (p : Nat) : Bool :=
  x.pers = p && [SlotState.waitGrant, .loading, .starting, .resident].contains x.state

/-- R163: `cand` of a slot. -/
def cand (s : State) (i : Nat) : List (Nat × Pers) :=
  s.spn.pers.filter fun e => e.2.installed && e.2.homeSlot = i && e.2.inDemand && !e.2.blocked && !standsIn (s.slot i) e.1

/-- R163, R164: smallest demand age, then smallest ID. -/
def better (a b : Nat × Pers) : Bool := a.2.age < b.2.age || (a.2.age = b.2.age && a.1 ≤ b.1)
/-- R174: with PAGER_EN 0 only a waiting command 0x0505 makes a candidate act (log 47). -/
def candidates (s : State) (i : Nat) : List (Nat × Pers) := (cand s i).filter fun e => s.spn.pagerEn || e.2.asked
def bestOf (l : List (Nat × Pers)) : Option (Nat × Pers) :=
  l.foldl (fun b e => match b with
    | none => some e
    | some x => if better x e then some x else some e) none

/-- R164: the pager chooses an operation of slot `i`. -/
def noteChoice (i : Nat) (s : State) : State :=
  let s := s.modSlot i fun x => { x with chosen := s.spn.choices }
  { s with spn := { s.spn with choices := s.spn.choices + 1 } }

/-- R165, R167: a load is chosen. -/
def chooseLoad (i p : Nat) (s : State) : State :=
  let s := (noteChoice i s).modSlot i fun x => { x with state := .waitGrant, pers := p, idle := false, resExpired := false }
  request kSlot i ((s.pers p).spanCredits + 8) s

/-- R165: an eviction begins: pause and fence. Stages of the CLK step still to begin are dropped (R152). -/
def startDrain (i : Nat) (s : State) : State :=
  let x := s.slot i
  let s := noteChoice i s
  let s := { s with gov := { s.gov with stages := s.gov.stages.filter fun g => !(g.kind = kSlot && g.index = i) } }
  let s := pauseQueues x.pers true (s.modSlot i fun x => { x with state := .draining, clkLeft := 0 })
  forEach (slotTiles x) (fun t a => a.modTile t fun y =>
    { y with state := if y.state = .on then .draining else y.state, fence := true }) s

/-- R163, R164: evaluate a slot; HOLD has stopped the pager (R172). -/
def evaluate (i : Nat) (s : State) : State :=
  if s.dev.mode = .hold then s else
  let x := s.slot i
  let best := bestOf (candidates s i)
  let p := s.pers x.pers
  if x.state = .waitGrant ∧ !p.inDemand then
    let s := withdraw kSlot i (s.modSlot i fun x => { x with state := .empty, pers := 0 })
    match bestOf (candidates s i) with
    | some e => if s.dev.ready.spanPager then chooseLoad i e.1 s else s
    | none => s
  else if !s.dev.ready.spanPager then s
  else if x.state = .empty then
    match best with
    | some e => chooseLoad i e.1 s
    | none => s
  else if (x.state = .resident ∨ x.state = .starting) ∧ !p.pinned ∧ s.spn.pagerEn then
    let idle := x.idle && idleNow s i
    if (if best.isSome then idle || (decide (x.state = .resident) && p.maxRes ≠ 0 && x.resExpired)
        else idle && (x.evictIdle || (decide (s.dev.mode = .trim) && s.spn.trimEvict)))
    then startDrain i s else s
  else s

/-- R161: bring a personality's demand in line, and evaluate its home slot. -/
def refreshPers (p : Nat) (s : State) : State :=
  if !(s.pers p).installed then s else
  let d := demandNow s p
  let s := if d = (s.pers p).inDemand then s else
    s.modPers p fun x => { x with inDemand := d, age := if d then s.noc.cycle else x.age }
  evaluate (s.pers p).homeSlot (breakIdle (s.pers p).homeSlot s)

/-- R273: a queue's depth or state has changed. -/
def queueChanged (q : Nat) (s : State) : State :=
  let p := (s.queue q).pers
  if p < 1024 then refreshPers p s else s

/-- R162: a fabric port's idleness may have ended. -/
def portChanged (t : Nat) (s : State) : State :=
  match s.spn.slots.find? fun e => e.2.defined && (slotTiles e.2).contains t with
  | some e => breakIdle e.1 s
  | none => s

/-- R163: every slot is evaluated (SPAN_PAGER has set, or a policy has changed). -/
def evaluateAll (s : State) : State := forEach (s.spn.slots.map (·.1)) evaluate s

end Sys2Proof.Machine
end

