-- ==== Sys2Proof/Machine/QueueCore.lean ====
section
/-! DEFINITION. What the queue manager shares with the rest of the machine: DRAM addresses (R375), group causes and counters,
the answer of a pop wherever it goes, and how a queue becomes FAULTED (R286). -/

namespace Sys2Proof.Machine

/-- R372, R405: capacity of a channel in GiB. -/
def capGiB (x : Chan) : Nat := if x.populated then 16 * x.ranks * (x.density + 1) else 0

/-- R375: the channel and channel address of a device address, if it names a target. -/
def dramTarget (s : State) (addr : Nat) : Option (Nat × Nat) :=
  if addr < 0x10000000000 ∨ 0x18000000000 ≤ addr then none else
  let o := addr - 0x10000000000
  let v := tget 0 s.ddr.wins (o / 2 ^ 36)
  let n := 2 ^ bits v 24 2
  let g := o % 2 ^ 36 / 256
  let c := bits v 16 3 + g % n
  let a := bits v 0 6 * 2 ^ 30 + g / n * 256 + o % 256
  if bit v 31 ∧ a < capGiB (s.chan c) * 2 ^ 30 then some (c, a) else none

/-- R373, R378: the subchannel of a channel address. -/
def subOf (c a : Nat) : Nat := 2 * c + a / 64 % 2

/-- R257: the group of a queue. -/
def queueGroup (q : Nat) : Nat := q / 2048

/-- R295: set a cause of a queue's group; the first of all is captured; its event goes with its enable. -/
def queueCause (q b : Nat) (s : State) : State :=
  let g := queueGroup q
  let x := s.qgroup g
  let s := s.modQgroup g fun x =>
    let x := if x.causes = 0 then { x with firstCause := b, firstQ := q % 2048 } else x
    { x with causes := x.causes ||| BitVec.twoPow 7 b }
  if x.en.getLsbD b then raiseEvent (224 + g) s else s

/-- R298: count in counter `k` of a queue's group. -/
def queueCount (q k : Nat) (s : State) : State :=
  s.modQgroup (queueGroup q) fun x => { x with counters := tmod 0 x.counters k (fun v => satAdd 48 v 1) }

/-- Causes of R295. -/
def qStale : Nat := 0
def qFull : Nat := 1
def qUnderrun : Nat := 2
def qFaulted : Nat := 3
def qPoison : Nat := 4
def qNoPage : Nat := 5
def qDbErr : Nat := 6

/-- R301: the status of a push or pop by command. -/
def queueStatus (code : Nat) (hold : Bool) : Nat :=
  if code = rDecode then stWrong else if code = rPoison then stIntegrity
  else if code = rOff ∧ hold then stWrong else statusOf code

/-- R276: the halves of a pop doorbell's record. -/
def recordHalves (code outcome index : Nat) (item : BitVec 256) : List Byte × List Byte :=
  let o := if code = rOk then outcome else 3
  (leBytes 32 (if code = rOk ∧ outcome < 2 then item.toNat else 0),
    leBytes 1 o ++ leBytes 1 code ++ leBytes 1 0 ++ leBytes 1 0x80 ++ leBytes 4 index ++ leBytes 24 0)

/-- R265, R276, R301: the answer of a pop goes where the pop came from. -/
def answerPop (o : Origin) (q code outcome index : Nat) (item : BitVec 256) (s : State) : State :=
  let data := if code = rOk ∧ outcome < 2 then leBytes 32 item.toNat else []
  match o with
  | .noc src tag => answer ⟨src, tag, code, if code = rOk then outcome else 0, data⟩ s
  | .doorbell dest =>
    let h := recordHalves code outcome index item
    { s with qm := { s.qm with doorbells := s.qm.doorbells ++ [⟨q, false, dest, h.1, h.2, false⟩] } }
  | .mailbox m =>
    match (s.mailbox m).tasks.find? (fun t => t.opcode = 0x0607 && t.obj = q) with
    | none => s
    | some t =>
      finalResponse m t (queueStatus code (decide (s.dev.mode = .hold))) false
        (if code = rOk then leBytes 8 outcome ++ leBytes 32 (if outcome < 2 then item.toNat else 0) else []) s

/-- Answer every held pop of a queue with a code. -/
def answerHeld (q code : Nat) (s : State) : State :=
  let x := s.queue q
  let s := x.held.foldl (fun a o => answerPop o q code 0 x.head 0 a) s
  if x.held.isEmpty then s else s.modQueue q fun x => { x with held := [] }

/-- R286: an ACTIVE queue becomes FAULTED: its group's cause, and FROZEN for every held pop. -/
def faultQueue (q : Nat) (s : State) : State :=
  if (s.queue q).state = .active then
    queueChanged q (answerHeld q rFrozen (queueCause q qFaulted (s.modQueue q fun x => { x with state := .faulted })))
  else s

/-- R286: whether a page's entry is DRAM or MOVING. -/
def pageOut (e : PageEntry) : Bool := decide (e.whr = .dram) || decide (e.whr = .moving)

/-- R286: the queues with a page that is DRAM or MOVING and satisfies `p` become FAULTED. -/
def faultPages (p : Nat → Bool) (s : State) : State :=
  forEach ((s.qm.map.filter (fun e => pageOut e.2 && p e.1)).map (fun e => e.2.queue)) faultQueue s

/-- R281, R286: the home frame of virtual page `v` has a line in subchannel `u`. -/
def homedIn (s : State) (u v : Nat) : Bool :=
  (List.range 64).any fun j =>
    match dramTarget s (s.qm.storeBase + 4096 * v + 64 * j) with
    | some (c, a) => subOf c a = u
    | none => false

end Sys2Proof.Machine
end

