-- ==== Sys2Proof/Machine/Life.lean ====
section
/-! DEFINITION. What concerns the whole machine: the readiness words (R31 to R36), the modes (R652), entering HOLD (R657)
and every kind of reset (R437, R652). -/

namespace Sys2Proof.Machine

/-! ### Readiness -/

/-- R518: nominal and largest ratios, in units of 1/16. -/
def nominalRatio (d : Nat) : Nat := lget 0 [32, 64, 128, 256] d
def largestRatio (d : Nat) : Nat := lget 0 [128, 256, 512, 512] d
def Clk.div (c : Clk) (d : Nat) : Divider :=
  if d = 0 then c.div0 else if d = 1 then c.div1 else if d = 2 then c.div2 else c.div3
def Clk.setDiv (c : Clk) (d : Nat) (x : Divider) : Clk :=
  if d = 0 then { c with div0 := x } else if d = 1 then { c with div1 := x }
  else if d = 2 then { c with div2 := x } else { c with div3 := x }

/-- R521: a divider stands at its nominal ratio, or in TRIM between its nominal and its TRIM ratio. -/
def dividerOk (mode : Mode) (d : Nat) (x : Divider) : Bool :=
  x.ratio = nominalRatio d || (decide (mode = .trim) && nominalRatio d ≤ x.ratio && x.ratio ≤ x.trim)

/-- R32 bit 0, R521: CLOCK sets when the root PLL is locked and the dividers stand right; only losing its source or
coasting clears it. -/
def clockHolds (s : State) : Bool :=
  s.clk.lock && !s.clk.coast &&
    (s.dev.ready.clock || (List.range 4).all (fun d => dividerOk s.dev.mode d (s.clk.div d)))

/-- R375: the channels that the device addresses from `base` on, `len` bytes, reach. -/
def channelsOf (s : State) (base len : Nat) : List Nat :=
  if len = 0 then [] else
  let o := base - 0x10000000000
  (List.range 8).flatMap fun w =>
    let v := tget 0 s.ddr.wins w
    let lo := max o (w * 2 ^ 36)
    let hi := min (o + len) ((w + 1) * 2 ^ 36)
    if bit v 31 ∧ lo < hi then
      let n := 2 ^ bits v 24 2
      let g := (lo - w * 2 ^ 36) / 256
      let g' := (hi - 1 - w * 2 ^ 36) / 256
      (List.range (min n (g' - g + 1))).map fun j => bits v 16 3 + (g + j) % n
    else []

/-- R32 bits 23:16: channel `n` serves. -/
def chanHolds (s : State) (n : Nat) : Bool :=
  decide ((s.chan n).state = .ready) && !(s.sub (2 * n)).frozen && !(s.sub (2 * n + 1)).frozen

/-- A bit vector from a predicate on its bit numbers. -/
def ofBits (w : Nat) (p : Nat → Bool) : BitVec w :=
  BitVec.ofNat w ((List.range w).foldl (fun a i => a + b2n (p i) * 2 ^ i) 0)

/-- R32, R33, R36: what the readiness words are, from what each function does and what each bit needs. -/
def derive (s : State) : Ready :=
  let clock := clockHolds s
  let current := s.gov.granting && clock
  let sorrel := s.sor.running && ((clock && current) || (s.sor.coastHold && s.dev.ready.sorrel))
  let timebase := clock
  let scratch := current && sorrel && (List.range 32).all (fun g => decide ((s.sgroup g).state = .on))
  let queues := scratch && (decide (s.qm.banks ≠ 0) || s.dev.ready.queues) && decide (s.dev.mode ≠ .hold)
  let ddr := ofBits 8 (fun n => current && sorrel && chanHolds s n)
  { clock, current, sorrel, timebase, scratch, queues
    pcie := sorrel && s.lan.pci.linkUp && s.lan.pci.memEnabled
    events := sorrel
    timeValid := s.tim.timeValid && timebase && !s.clk.coast
    qspill := queues && ddr.getLsbD s.qm.mapCh
    scrubber := current && (decide (s.dev.mode = .run) || decide (s.dev.mode = .safe) || decide (s.dev.mode = .trim))
      && (s.fab.scrub.en || s.spd.scrubEn || (List.range 8).any (fun c => (s.chan c).scrubEn))
    spanPager := queues && s.spn.live && (channelsOf s s.spn.storeBase s.spn.storeSize).all (fun c => ddr.getLsbD c)
    lanes := s.dev.clockSeen || clock
    fabric := s.dev.cfgDone && clock && current
    ddrCh := ddr
    engCluster := ofBits 12 (fun c => (s.cluster c).serving && timebase && current)
    ethPort := ofBits 8 (fun p => (s.port p).linkUp) }

/-- R32: DEV_READY as a word. -/
def readyWord (r : Ready) : BitVec 32 :=
  BitVec.ofNat 32 (b2n r.clock + flag r.current 1 + flag r.sorrel 2 + flag r.pcie 3 + flag r.events 4 + flag r.timebase 5
    + flag r.timeValid 6 + flag r.scratch 7 + flag r.queues 8 + flag r.qspill 9 + flag r.scrubber 10
    + flag r.spanPager 11 + flag r.lanes 12 + flag r.fabric 13 + r.ddrCh.toNat * 2 ^ 16)

/-- R33: DEV_READY_UNIT as a word. -/
def readyUnitWord (r : Ready) : BitVec 32 :=
  BitVec.ofNat 32 (r.engCluster.toNat + r.ethPort.toNat * 2 ^ 12)

/-- R393, R397: CLOCK has set: a channel in self-refresh leaves it. -/
def leaveSelfRefresh (c : Chan) : Chan :=
  if c.state = .selfRefresh then
    if c.disablePending then { c with state := .draining, disablePending := false } else { c with state := .ready }
  else c

/-- R504: CLOCK has set: the servo leaves COAST. -/
def servoClockSet (t : Tim) : Tim :=
  if t.servo = .coast then
    if t.coastFrom = .grandmaster then { t with servo := .free } else { t with servo := .holdover, lockRun := 0 }
  else t

/-- What the setting of CLOCK starts: the tick count (R489), HOLD_N and the sensors (R659, R680), DRAM out of
self-refresh (R397), the servo (R504). -/
def onClockSet (s : State) : State :=
  { s with
    dev := { s.dev with clockSeen := true }
    tim := { servoClockSet s.tim with running := true }
    ddr := { s.ddr with chans := tmap {} (fun _ c => leaveSelfRefresh c) s.ddr.chans } }

/-- R541, R554: CURRENT has set: the standing reservation is booked and the slew slot counts as free. -/
def onCurrentSet (s : State) : State :=
  let s := { s with gov := { s.gov with standing := true, slewLeft := 0 } }
  forEach (List.range 3) (fun sp a => a.modSupply sp fun u => { u with peak := max u.peak (booked a sp) }) s

/-- R30: the ports of a function whose bit has cleared are fenced, and no longer once the bit is set; a frozen DRAM
channel's port goes on accepting (R328). -/
def fenceFunction (was is_ : Bool) (ports : List Nat) (t : List (Nat × Bool)) : List (Nat × Bool) :=
  if was = is_ then t else ports.foldl (fun t p => tset false t p was) t
def hubFences (s : State) (old r : Ready) : List (Nat × Bool) :=
  let t := fenceFunction old.pcie r.pcie [858] s.noc.fences
  let t := fenceFunction old.events r.events [861] t
  let t := fenceFunction old.sorrel r.sorrel [859, 860] t
  let t := fenceFunction old.timebase r.timebase [955] t
  let t := fenceFunction old.current r.current [957] t
  let t := fenceFunction old.spanPager r.spanPager [947] t
  let t := fenceFunction old.queues r.queues [queuePort 0, queuePort 1] t
  let t := fenceFunction old.scratch r.scratch ((List.range 32).map scratchPort) t
  (List.range 8).foldl (fun t c =>
    fenceFunction (old.ddrCh.getLsbD c) (r.ddrCh.getLsbD c || (s.sub (2 * c)).frozen || (s.sub (2 * c + 1)).frozen)
      [dramPort c] t) t

/-- R31, R34, R36: bring the readiness words in line: event 1 at any change, lost bits recorded, and what follows from
a bit that has changed. -/
def settle (s : State) : State :=
  let old := s.dev.ready
  let r := derive s
  if r = old then s else
  let s := { s with
    noc := { s.noc with fences := hubFences s old r }
    dev := { s.dev with ready := r, lost := s.dev.lost ||| (readyWord old &&& ~~~ readyWord r) }
    sor := { s.sor with coastHold := s.sor.coastHold && !(r.clock && r.current)
                        uptimeOn := s.sor.uptimeOn || r.sorrel }
    gov := { s.gov with granting := s.gov.granting && r.clock } }
  let s := if r.clock && !old.clock then onClockSet s else s
  let s := if r.current && !old.current then onCurrentSet s else s
  let s := if old.timeValid && !r.timeValid then reapStops (timeInvalid s) else s
  let s := if old.qspill && !r.qspill && decide (s.dev.mode ≠ .hold) then faultPages (fun _ => true) s else s
  let s := if r.spanPager && !old.spanPager then evaluateAll s else s
  raiseEvent evReady s

/-! ### Modes and HOLD -/

/-- R652: change the mode: event 0. Leaving SAFE discards an armed lifecycle change (R436). -/
def setMode (m : Mode) (s : State) : State :=
  if s.dev.mode = m then s else
  let s := { s with dev := { s.dev with mode := m }
                    sec := { s.sec with lcs := { s.sec.lcs with
                      arm := if s.dev.mode = .safe then none else s.sec.lcs.arm } } }
  raiseEvent evMode s

/-- R612, R658: the waiting commands whose operation HOLD stops: those that wait for a grant (R554) or for a function
that stops, and the restarts that are due, for of the commands only 0x0104 leaves HOLD (R652, log 165). -/
def holdStops (s : State) (t : Task) : Bool :=
  [0x0102, 0x0203, 0x0402, 0x0403, 0x0405, 0x0504, 0x0505, 0x0506, 0x0602, 0x0605, 0x0606, 0x0607, 0x0703, 0x0705,
    0x0901, 0x0A02, 0x0C02, 0x0D05].contains t.opcode
  || (t.opcode = 0x0904 && decide ((s.chan t.obj).state = .waitGrant))
  || ([0x0801, 0x0802, 0x0803].contains t.opcode && (decide ((s.bank t.obj).state = .waitGrant)
      || (decide ((s.bank t.obj).state = .draining) && (s.bank t.obj).wipe)))

/-- R208, R657: a pin at HOLD entry: its scheduler's events are gone and it drives its SAFE_LEVEL. -/
def pinHold (p : Pin) : Pin :=
  { p with flying := [], stored := [], released := [], out := p.safeLevel }

/-- R530, R660: a TRIM ramp stops at its present ratio; the ramps of a start, of COAST and of the return go on (log 9). -/
def stopRamp (x : Divider) : Divider := { x with target := x.ratio }
def stopRamps (s : State) : State :=
  let s := if s.clk.rampWait then withdraw kRamp 0 s else s
  let s := if s.clk.rampHolds then giveBack kRamp 0 32 s else s
  let s := { s with clk := { s.clk with rampWait := false, rampHolds := false } }
  if s.clk.phase = .running then
    { s with clk := { s.clk with
        div0 := stopRamp s.clk.div0, div1 := stopRamp s.clk.div1, div2 := stopRamp s.clk.div2
        div3 := stopRamp s.clk.div3 } }
  else s

/-- R288: every held pop is answered DOMAIN_OFF. -/
def dropHeld (s : State) : State := forEach (s.qm.queues.map (·.1)) (fun q => answerHeld q rOff) s

/-- R119, R352, R361: write-backs not yet performed are abandoned. -/
def dropWriteBacks (s : State) : State :=
  { s with
    fab := { s.fab with mems := tmap {} (fun _ m => { m with writeBack := none }) s.fab.mems }
    spd := { s.spd with banks := tmap {} (fun _ b => { b with writeBacks := [] }) s.spd.banks } }

/-- R656 to R661: a HOLD cause. In OFF it does nothing; in HOLD it sets its bit in CAUSES, and in the tick of entry the
lower code stands (R660). -/
def enterHold (cause : Nat) (s : State) : State :=
  if s.dev.mode = .off then s
  else if s.dev.mode = .hold then
    { s with dev := { s.dev with
        holdCauses := s.dev.holdCauses ||| BitVec.twoPow 5 (cause - 1)
        holdCause := if s.dev.holdTick.toNat = s.now ∧ cause < s.dev.holdCause then cause else s.dev.holdCause } }
  else
    let s := finishIf (holdStops s) (fun _ => stWrong) (fun _ => false) [] s
    let s := stopRamps s
    let s := dropHeld (dropWriteBacks s)
    let s := { s with
      dev := { s.dev with holdCause := cause, holdCauses := BitVec.twoPow 5 (cause - 1), busyTiles := 0
                          holdTick := BitVec.ofNat 64 s.now, holdLow := true }
      sor := { s.sor with modeChange := none, restart := if s.sor.restart = some .reset then s.sor.restart else none }
      sec := { s.sec with lcs := { s.sec.lcs with blowing := none } }
      eng := { s.eng with pins := tmap {} (fun _ p => pinHold p) s.eng.pins } }
    settle (setMode .hold s)

/-! ### Resets -/

/-- R12, R412: the marks of a subchannel survive; nothing else of it does. -/
def keepMarks (t : List (Nat × SubCh)) : List (Nat × SubCh) :=
  tmap {} (fun _ u => { mark0 := u.mark0, chip0 := u.chip0, mark1 := u.mark1, chip1 := u.chip1 }) t

/-- R570: what stands in boot flash, and the versions of the firmware there, outlive every reset. -/
def keepFlash (b : Boot) : Boot :=
  { dir := b.dir, dirOther := b.dirOther, fwAVersion := b.fwAVersion, fwASvn := b.fwASvn, fwBVersion := b.fwBVersion, fwBSvn := b.fwBSvn
    setAFmt := b.setAFmt, setA := b.setA, setBFmt := b.setBFmt, setB := b.setB }

/-- R570: a directory write: the other copy, with SEQ + 1. -/
def writeDir (g : Directory → Directory) (s : State) : State :=
  let d := g s.boot.dir
  { s with boot := { s.boot with
    dir := { d with seq := s.boot.dir.seq + 1, second := !s.boot.dir.second }, dirOther := s.boot.dir } }

/-- R642, R572: a window ends unconfirmed: every running trial has failed, in one directory write. -/
def trialEnds (s : State) : State :=
  if !s.boot.winOn then s else
  writeDir (fun d => { d with
    fwTrial := if s.boot.fwTrialRun then 3 else d.fwTrial, baseTrial := if s.boot.trial then 3 else d.baseTrial }) s

/-- R666: the four EF400 bits take COMPAT's sampled level at every reset. -/
def applyCompat (s : State) : State :=
  if s.dev.compat then
    { s with mbx := (List.range 18).map (fun m => (m, { encV1 := true }))
             boot := { s.boot with giturV1 := true }
             qm := { s.qm with emptyZero := true }
             noc := { s.noc with cnt32 := true } }
  else s

/-- R17, R437: the state every reset leaves: every field at its At reset value, but for fuses, flash, what COMPAT and
CFG_MODE sampled, the sources outside, and (`rws`) the RWS fields; `serial` keeps KEY_SERIAL. -/
def cleared (rws serial : Bool) (s : State) : State :=
  applyCompat { State.reset with
    dev := { compat := s.dev.compat, cfgMode := s.dev.cfgMode, pullCfgN := s.dev.pullCfgN, mode := s.dev.mode }
    clk := { attempts := s.clk.attempts, refclk := { edges := s.clk.refclk.edges }
             xo := { edges := s.clk.xo.edges && s.clk.xoRun } }
    sor := if rws then { restarts := s.sor.restarts, mismatches := s.sor.mismatches } else {}
    boot := { keepFlash s.boot with
      holdSafe := rws && s.boot.holdSafe, fwFellBack := rws && s.boot.fwFellBack, altBoot := rws && s.boot.altBoot }
    ddr := { subs := if rws then keepMarks s.ddr.subs else [] }
    sec := { scm := { keySerial := if serial then s.sec.scm.keySerial else 0 } }
    fuse := s.fuse, free := s.free, pending := s.pending }

/-- R516, R532, R564: clock start-up begins, in LOAD: XO starts and the sources are judged. CFG_MODE 0b101 to 0b111 stay
in reset with CFG_ERR_N low. -/
def startUp (s : State) : State :=
  let held := 5 ≤ s.dev.cfgMode
  let s := { s with
    dev := { s.dev with powered := true, cfgErrLow := held }
    clk := if held then s.clk else { s.clk with phase := .judging, xoRun := true } }
  setMode .load s

/-- R437, R590, R652: a restart as CFG_RESTART_N makes it: RWS fields and KEY_SERIAL stay, ATTEMPTS clears (R528). -/
def restartDevice (s : State) : State :=
  let s := cleared true true s
  startUp { s with clk := { s.clk with attempts := 0 }, boot := { s.boot with heldStart := true } }

/-- R527: the reset of a clock failure under RESET: the root PLL holds, ATTEMPTS stays, and the first candidate is PRIMARY
(REFCLK after the reset) when it shows edges, else XO. -/
def clockFailReset (s : State) : State :=
  let s := startUp (cleared true true s)
  { s with clk := { s.clk with attempt := some (if s.clk.refclk.edges then .refclk else .xo) } }

/-- R652, R678: the power-on reset: OFF, and every state is lost except fuses (and what stands in flash). -/
def powerOff (s : State) : State :=
  let s := { s with clk := { s.clk with attempts := 0, refclk := {}, xo := {} } }
  let c := cleared false false { s with dev := { s.dev with compat := false, cfgMode := 0, pullCfgN := false } }
  { c with dev := { c.dev with mode := .off } }

/-- R437: the reset of a lifecycle change returns RWS fields too. -/
def lifecycleReset (s : State) : State :=
  let s := cleared false true s
  startUp { s with clk := { s.clk with attempts := 0 } }

end Sys2Proof.Machine
end

