-- ==== Sys2Proof/Machine/Clocks.lean ====
section
/-! DEFINITION. Clock generation and supervision (chapter 14). -/

namespace Sys2Proof.Machine

/-! ### The fabric PLLs' reference (R69, R71, R72) -/

def evPllLost : Nat := 8

/-- R69, R72: the reference in kHz: VCO / 32, at 6.0 GHz or parked at 3.0 GHz. -/
def pllRef (s : State) : Nat := if s.clk.vcoLow then 93750 else 187500

/-- R69: the VCO stands within 3.0 to 6.0 GHz; `d` is IN_D. -/
def vcoInRange (s : State) (m d : Nat) : Bool :=
  3000000 * (d + 1) ≤ pllRef s * m && pllRef s * m ≤ 6000000 * (d + 1)

/-- R71: LOCK clears: LOST and event 8. -/
def pllUnlock (n : Nat) (s : State) : State :=
  if (s.pll n).lock then raiseEvent evPllLost (s.modPll n fun x => { x with lock := false, lost := true }) else s

/-- R71, R72: an enabled PLL loses lock; a VCO out of range keeps it unlocked, with RANGE_ERR. -/
def pllRelock (n : Nat) (s : State) : State :=
  if !(s.pll n).granted then s else
  let bad := !vcoInRange s (s.pll n).appM (s.pll n).appD
  (pllUnlock n s).modPll n fun x => { x with outOfRange := bad, rangeErr := x.rangeErr || bad }

/-- R72: the root PLL's VCO has changed its frequency: every enabled fabric PLL relocks. -/
def refChanged (s : State) : State := forEach (s.fab.plls.map (·.1)) pllRelock s

/-! ### Registers -/

/-- R516, R534: the preferred source. -/
def primarySource (c : Clk) : Source := if c.primaryRecov then .recov else .refclk

def Clk.src (c : Clk) : Source → SourceState
  | .refclk => c.refclk
  | .xo => c.xo
  | .recov => c.recov
def Clk.setSrc (c : Clk) (x : Source) (v : SourceState) : Clk :=
  match x with
  | .refclk => { c with refclk := v }
  | .xo => { c with xo := v }
  | .recov => { c with recov := v }

/-- R535: the code of SOURCE, and the source of a code. -/
def sourceCode : Source → Nat
  | .refclk => 0
  | .xo => 1
  | .recov => 2
def sourceNamed (n : Nat) : Source := if n = 0 then .refclk else if n = 1 then .xo else .recov

def ramping (c : Clk) : Bool := (List.range 4).any fun d => decide ((c.div d).ratio ≠ (c.div d).target)

/-- R522: the phases of a start-up, before CLOCK first sets. -/
def startingUp (c : Clk) : Bool :=
  decide (c.phase = .off) || decide (c.phase = .judging) || decide (c.phase = .locking) || decide (c.phase = .startRamp)

/-- R522, R535: XO_STABLE sets with CLOCK at a start. -/
def xoStable (c : Clk) : Bool := c.xoRun && c.xo.stable && !startingUp c

/-- R534, R535, R538. -/
def clkCtrlWord (c : Clk) : Nat :=
  flag c.policyCoast 7 + flag c.autoReturn 6 + flag c.xoWarm 5 + flag c.primaryRecov 4 + field c.recovPort 0 3
def clkStatWord (c : Clk) : Nat :=
  flag c.coast 31 + flag c.switched 30 + flag c.trip 29 + field c.tripCause 26 3 + field c.source 24 2
    + flag (xoStable c) 23 + flag c.xoRun 22 + flag c.rampWait 21 + flag (ramping c) 20 + flag c.lock 19
    + field c.attempts 0 2
def clkMonWord (c : Clk) : Nat := c.lastPpm.toNat * 2 ^ 16 + field c.lastKind 0 2

/-! ### The reference of the quads (R446, R466, R515) -/

/-- R474: a quad PCI_LANES selects. -/
def isPcie (s : State) (q : Nat) : Bool := q < lget 0 [4, 2, 1, 0] s.lan.pci.pciLanes

/-- R467: in HOLD the states of the quads that do not carry PCIe are kept. -/
def quadMoves (s : State) (q : Nat) : Bool := q < 20 && (isPcie s q || decide (s.dev.mode ≠ .hold))
/-- R466: a quad that needs its reference. -/
def quadRuns (s : State) (q : Nat) : Bool := decide ((s.quad q).state = .waking) || decide ((s.quad q).state = .on)

/-- R446, R515: the code of the source a quad takes its reference from: the one in use, but for the quad of the port that
RECOV_PORT names, which takes the last of REFCLK and XO to be judged stable; and whether that reference is there. -/
def quadSource (s : State) (q : Nat) : Nat :=
  if q = 4 + s.clk.recovPort then sourceCode s.clk.lastStable else s.clk.source
def quadRefOk (s : State) (q : Nat) : Bool :=
  if q = 4 + s.clk.recovPort then (s.clk.src s.clk.lastStable).stable else s.clk.lock

/-- R466: a quad loses its reference, and has it again. -/
def quadLosesRef (q : Nat) (s : State) : State :=
  raiseEvent (192 + q) (s.modQuad q fun y => { y with refLost := true })
def quadGainsRef (q : Nat) (s : State) : State :=
  s.modQuad q fun y => { y with refLost := false, state := if y.state = .on ∧ quadMoves s q then .waking else y.state }

/-- R466: source `x` has failed: the quads that run on it lose their reference. -/
def referenceLost (x : Source) (s : State) : State :=
  forEach (List.range 20) (fun q a =>
    if !isPcie a q ∧ quadRuns a q ∧ quadSource a q = sourceCode x then quadLosesRef q a else a) s
/-- R524, R466: the quads take up the reference that is there. -/
def referenceBack (s : State) : State :=
  forEach (List.range 20) (fun q a => if (a.quad q).refLost ∧ !isPcie a q ∧ quadRefOk a q then quadGainsRef q a else a) s

/-! ### Tests of sources (R522) -/

def hasTest (c : Clk) (k : TestKind) (x : Source) : Bool := c.tests.any fun t => decide (t.kind = k) && decide (t.src = x)
def addTest (k : TestKind) (x y : Source) (c : Clk) : Clk :=
  if hasTest c k x then c else { c with tests := c.tests ++ [⟨k, x, y⟩] }

/-- R526, R529: the device coasts, or has parked. -/
def coasting (c : Clk) : Bool := c.coast

/-- Whether `x` is the source the root PLL uses. -/
def inUse (c : Clk) (x : Source) : Bool := c.source = sourceCode x && c.lock

/-- R522: the tests that are due now begin. -/
def startTests (c : Clk) : Clk :=
  let c := if c.phase = .judging then
      match c.attempt with
      | none => if c.refclk.edges && c.xo.edges then addTest .startup .refclk .xo c else c
      | some x => if (c.src x).edges then addTest .resetStart x x c else c
    else c
  let c := if !startingUp c && c.xoRun && c.xo.edges && !c.xo.stable then addTest .inService .xo .xo c else c
  let p := primarySource c
  if (c.src p).edges && !c.primaryPassed && !startingUp c && (if c.coast then c.xo.stable else !inUse c p)
  then addTest .recovery p (if c.coast then .xo else sourceNamed c.source) c else c

/-- R516: XO stops when it may: then it is no longer judged. -/
def xoPower (c : Clk) : Clk :=
  if c.xoWarm then { c with xoRun := true }
  else if startingUp c || c.coast || inUse c .xo || hasTest c .inService .xo then c
  else { c with xoRun := false, xo := {}, tests := c.tests.filter fun t => decide (t.src ≠ .xo) }

/-- R528: an attempt has failed: three in a row hold the device in reset with CLK_FAULT_N low, fewer begin a new attempt
with the candidate of R527. -/
def attemptFailed (s : State) : State :=
  let c := s.clk
  let n := c.attempts + 1
  if 3 ≤ n then
    { s with clk := { c with attempts := 3, phase := .off, tests := [] }
             dev := { s.dev with clkFaultLow := true } }
  else
    let next := match c.attempt with
      | none => none
      | some .xo => some (if c.refclk.edges then .refclk else .xo)
      | some _ => some .xo
    { s with clk := startTests { c with attempts := n, tests := [], attempt := next } }

/-! ### Switching, coasting, returning -/

/-- R524, R529: the root PLL, running, changes to `x` without a step. -/
def switchTo (x : Source) (s : State) : State :=
  let c := { s.clk with source := sourceCode x, switched := true, lock := true }
  raiseEvent evClock (referenceBack { s with clk := startTests (xoPower c) })

/-- R529: from COAST, a judged source is relocked to once the sequence of R526 has parked the VCO. -/
def tryReturn (s : State) : State :=
  let c := s.clk
  if c.coast && decide (c.phase = .parked) && (c.autoReturn || c.returnOrdered) then
    let p := primarySource c
    if (c.src p).edges && (c.src p).stable then { s with clk := { c with phase := .relocking, lockTo := p } }
    else if c.xoRun && c.xo.stable then { s with clk := { c with phase := .relocking, lockTo := .xo } }
    else s
  else s

/-- R529: while running on another source, PRIMARY that has passed its recovery test is switched to, on AUTO_RETURN, command 0x0205, or a
change of PRIMARY by 0x0202. -/
def trySwitch (s : State) : State :=
  let c := s.clk
  let p := primarySource c
  if c.lock && !c.coast && !startingUp c && !inUse c p && (c.src p).edges && (c.src p).stable
      && c.primaryPassed && (c.autoReturn || c.returnOrdered || c.setPending) then
    finishIf (fun t => t.opcode = 0x0202 || t.opcode = 0x0205) (fun _ => stOk) (fun _ => false) []
      (switchTo p { s with clk := { c with returnOrdered := false, setPending := false } })
  else s

/-- R504: CLK_COAST has set: the servo, unless FREE, goes to COAST. -/
def servoCoast (t : Tim) : Tim :=
  if t.servo = .free ∨ t.servo = .coast then t else { t with coastFrom := t.servo, servo := .coast, timeValid := false }

/-- R526: every divider ramps to its largest ratio, once no DRAM channel is READY any more. -/
def coastProgress (s : State) : State :=
  if decide (s.clk.phase = .coastWait) && (List.range 8).all (fun n => decide ((s.chan n).state ≠ .ready)) then
    let c := s.clk
    { s with clk := { c with
        phase := .coastRamp
        div0 := { c.div0 with target := largestRatio 0 }, div1 := { c.div1 with target := largestRatio 1 }
        div2 := { c.div2 with target := largestRatio 2 }, div3 := { c.div3 with target := largestRatio 3 } } }
  else s

/-- R525, R526: the device begins to coast. -/
def beginCoast (s : State) : State :=
  let s := stopRamps s
  let s := { s with
    clk := { s.clk with coast := true, lock := false, source := 3, phase := .coastWait }
    sor := { s.sor with coastHold := s.dev.ready.sorrel }
    tim := servoCoast s.tim }
  coastProgress (raiseEvent evCoast (settle s))

/-- R523: what a trip leaves of a source: no longer judged stable, and without edges unless it was the frequency. -/
def tripped (x : Source) (cause : Nat) (c : Clk) : Clk :=
  let c := c.setSrc x { edges := (c.src x).edges && cause = 2, stable := false }
  { c with trip := true, tripCause := cause, tests := c.tests.filter fun t => decide (t.src ≠ x)
           primaryPassed := c.primaryPassed && decide (x ≠ primarySource c)
           lastStable := if x = .refclk ∧ c.xo.stable then .xo else if x = .xo ∧ c.refclk.stable then .refclk
             else c.lastStable }

/-- R524, R525: source `used` has failed: another that is judged and runs is changed to, XO before REFCLK; without one XO
starts and the device coasts or resets. -/
def afterTrip (used : Source) (s : State) : State :=
  let c := s.clk
  if used ≠ .xo ∧ c.xoRun ∧ c.xo.stable then switchTo .xo s
  else if used ≠ .refclk ∧ c.refclk.edges ∧ c.refclk.stable then switchTo .refclk s
  else
    let s := { s with clk := startTests { s.clk with xoRun := true } }
    if s.clk.policyCoast ∨ s.dev.mode = .hold then beginCoast s else clockFailReset s

/-- R523 to R527: the monitor trips on the source in use. A trip while XO is still being judged fails XO's test, which
starts again (R530). -/
def clockTrip (cause : Nat) (s : State) : State :=
  let c := s.clk
  if hasTest c .inService .xo && c.coast then
    raiseEvent evClock { s with clk := startTests (tripped .xo cause c) }
  else if hasTest c .resetStart .xo then attemptFailed (raiseEvent evClock { s with clk := tripped .xo cause c })
  else if c.coast then s
  else if c.lock then
    let used := sourceNamed c.source
    afterTrip used (raiseEvent evClock (referenceLost used { s with clk := tripped used cause c }))
  else s

/-- POR_N has been released and a source has locked: the dividers' next targets (R529, R530: the mode in force). -/
def aimDividers (s : State) : State :=
  let c := s.clk
  let trim := decide (s.dev.mode = .trim) && decide (s.sor.modeChange ≠ some ⟨true⟩)
  let aim := fun d (x : Divider) => { x with target := if trim then x.trim else nominalRatio d }
  { s with clk := { c with div0 := aim 0 c.div0, div1 := aim 1 c.div1, div2 := aim 2 c.div2, div3 := aim 3 c.div3 } }

/-- R653: a change between RUN and TRIM ends once the ramps have, and to TRIM once every quad put to sleep has reached
DEEP or refused. -/
def modeChangeCheck (s : State) : State :=
  match s.sor.modeChange with
  | none => s
  | some ch =>
    if ramping s.clk || s.clk.rampWait || s.clk.coast || !s.clk.lock then s
    else if ch.toRun then
      let s := setMode .run { s with sor := { s.sor with modeChange := none } }
      finish 0x0102 0 stOk (leBytes 1 3) s
    else if (List.range 20).any (fun q => (s.quad q).trimSlept && decide ((s.quad q).state = .draining)) then s
    else finish 0x0102 0 stOk (leBytes 1 4) { s with sor := { s.sor with modeChange := none } }

/-- R520, R526, R529, R531: what the end of a ramp brings. -/
def rampEnd (s : State) : State :=
  if ramping s.clk then s else
  let s := if s.clk.phase = .startRamp ∨ s.clk.phase = .returnRamp then
      { s with clk := startTests (xoPower { s.clk with phase := .running }) }
    else if s.clk.phase = .coastRamp then { s with clk := { s.clk with phase := .glide } }
    else s
  let s := if s.clk.rampHolds then giveBack kRamp 0 32 { s with clk := { s.clk with rampHolds := false } } else s
  settle (modeChangeCheck s)

/-! ### Events of the clock tree -/

/-- R520: divider `d` moves one step toward its target. -/
def stepDivider (x : Divider) : Divider :=
  if x.ratio < x.target then { x with ratio := x.ratio + 1 }
  else if x.target < x.ratio then { x with ratio := x.ratio - 1 } else x

def execDividerRampStep (d : Nat) (s : State) : Host.Outcome State Fault Refusal :=
  effect (when (d < 4 && decide ((s.clk.div d).ratio ≠ (s.clk.div d).target)) fun s =>
    rampEnd { s with clk := s.clk.setDiv d (stepDivider (s.clk.div d)) }) s

/-- R522, R532: XO shows no edges within 10 ms of being started, or REFCLK none at a start that needs both (log 163). -/
def execXoEdgeTimeout (s : State) : Host.Outcome State Fault Refusal :=
  effect (when (s.clk.xoRun && (!s.clk.xo.edges
      || (decide (s.clk.phase = .judging) && decide (s.clk.attempt = none) && !s.clk.refclk.edges))) fun s =>
    if s.clk.phase = .judging then
      if s.clk.attempt = some .refclk then s else attemptFailed s
    else { s with clk := { s.clk with tests := s.clk.tests.filter fun t => decide (t.src ≠ .xo) } }) s

/-- R515: the divider that makes RECOV of a lane signal at a SPEED (R468). -/
def recovDivider (speed : Nat) : Nat := lget 0 [66, 165, 170, 165, 170, 340, 170, 340, 340] speed
/-- R515: RECOV is a candidate only with the nominated port's LINK_UP and its first lane's RX_LOCK. -/
def recovCandidate (s : State) : Bool :=
  let x := s.port s.clk.recovPort
  x.linkUp && (s.lane (16 + 4 * s.clk.recovPort)).rxLock && recovDivider x.speed ≠ 0

/-- R522, R529: a source begins to show edges. -/
def execSourceShowsEdges (src : Source) (s : State) : Host.Outcome State Fault Refusal :=
  effect (when ((src ≠ .xo || s.clk.xoRun) && (src ≠ .recov || recovCandidate s)) fun s =>
    { s with clk := startTests (s.clk.setSrc src { (s.clk.src src) with edges := true }) }) s

/-- R522: the difference found, as LAST_PPM holds it. -/
def ppmWord (ppm : Int) : BitVec 16 := BitVec.ofInt 16 (max (-32767) (min 32767 ppm))

/-- R538: LAST_KIND; the in-service test compares nothing. -/
def kindCode : TestKind → Nat
  | .startup | .resetStart => 0
  | .recovery => 1
  | .command => 2
  | .inService => 0

/-- R539: the number of a comparison of command 0x0204. -/
def testNumber (a b : Source) : Nat := 4 * sourceCode a + sourceCode b

/-- R522, R528, R529: the outcome of a finished test. -/
def testOutcome (t : ClkTest) (pass : Bool) (ppm : Int) (s : State) : State :=
  let c := s.clk
  let judged := c.setSrc t.src { (c.src t.src) with stable := pass }
  let judged := if pass ∧ t.src ≠ .recov then { judged with lastStable := t.src } else judged
  match t.kind with
  | .startup =>
    if pass then { s with clk := { judged with xo := { judged.xo with stable := true }, attempts := 0
                                               phase := .locking, lockTo := .refclk } }
    else attemptFailed s
  | .resetStart =>
    if pass then { s with clk := { judged with attempts := 0, phase := .locking, lockTo := t.src, attempt := none } }
    else attemptFailed s
  | .recovery =>
    let s := tryReturn (trySwitch { s with clk := startTests { judged with primaryPassed := pass } })
    if pass || !s.clk.setPending then s
    else finishIf (fun t => t.opcode = 0x0202) (fun _ => stTimeout) (fun _ => false) []
      { s with clk := { s.clk with setPending := false } }
  | .inService =>
    tryReturn { s with clk := startTests judged }
  | .command => finish 0x0204 (testNumber t.src t.other) stOk (leBytes 2 (ppmWord ppm).toNat) s

def execSourceTestDone (t : Nat) (ppm : Int) (missed : Bool) (s : State) : Host.Outcome State Fault Refusal :=
  effect (fun s =>
    match s.clk.tests[t]? with
    | none => s
    | some x =>
      if !(s.clk.src x.src).edges || (decide (x.kind = .command) && !(s.clk.src x.other).edges) then s else
      let pass := if x.kind = .inService then !missed else decide (-200 ≤ ppm ∧ ppm ≤ 200)
      let c := { s.clk with tests := s.clk.tests.eraseIdx t }
      let c := if x.kind = .inService then c else { c with lastPpm := ppmWord ppm, lastKind := kindCode x.kind }
      settle (testOutcome x pass ppm { s with clk := c })) s

/-- R517, R529, R532: the root PLL locks to the judged source it was given. -/
def execRootPllLock (s : State) : Host.Outcome State Fault Refusal :=
  effect (fun s =>
    let c := s.clk
    let locked := { c with lock := true, source := sourceCode c.lockTo, attempt := none, attempts := 0 }
    if c.phase = .locking then
      settle (rampEnd (aimDividers { s with clk := { locked with phase := .startRamp } }))
    else if c.phase = .relocking then
      let s := { s with clk := startTests (xoPower { locked with
        phase := .returnRamp, coast := false, vcoLow := false, returnOrdered := false }) }
      let s := raiseEvent evCoast (referenceBack (refChanged s))
      let s := finishIf (fun t => t.opcode = 0x0205) (fun _ => stOk) (fun _ => false) [] s
      rampEnd (aimDividers s)
    else s) s

/-- R523: the monitor trips on the source in use; a source can only fail against a judged XO that runs (cause 2), and
only RECOV by its link (cause 3). -/
def execClockMonitorTrip (cause : Nat) (s : State) : Host.Outcome State Fault Refusal :=
  effect (when (cause = 1 || (cause = 2 && s.clk.xoRun && s.clk.xo.stable && s.clk.source ≠ 1)
    || (cause = 3 && s.clk.source = 2)) (clockTrip cause)) s

/-- R526: the glide ends and the VCO parks; the increment is 4 from below 4.5 GHz on (R491). -/
def execVcoGlideDone (s : State) : Host.Outcome State Fault Refusal :=
  effect (when (decide (s.clk.phase = .glide)) fun s =>
    tryReturn (refChanged { s with clk := { s.clk with phase := .parked, vcoLow := true } })) s

/-! ### TRIM ratios (R531, R537) -/

/-- R518, R537: a TRIM ratio the domain may take. -/
def trimOk (d v : Nat) : Bool := 1 ≤ d && d ≤ 3 && nominalRatio d ≤ v && v ≤ largestRatio d

/-- R531: no ramp toward nominal is wanted any more: its request is withdrawn, and commands 0x0203 that wait for it end. -/
def endRampWait (s : State) : State :=
  if s.clk.rampWait then
    finish 0x0203 0 stOk [] (withdraw kRamp 0 { s with clk := { s.clk with rampWait := false } })
  else s

/-- R531: in TRIM, ramp toward the TRIM ratios: away from nominal at once, toward nominal under a grant of 32 credits. -/
def trimRamp (s : State) : State :=
  if s.dev.mode = .trim ∧ s.sor.modeChange ≠ some ⟨true⟩ ∧ s.clk.lock ∧ s.clk.phase = .running then
    let rising := (List.range 4).any fun d => (s.clk.div d).trim < (s.clk.div d).ratio
    if rising ∧ ¬ s.clk.rampHolds then
      if s.clk.rampWait then s else request kRamp 0 32 { s with clk := { s.clk with rampWait := true } }
    else rampEnd (aimDividers (endRampWait s))
  else s

def setTrim (d v : Nat) (c : Clk) : Clk := c.setDiv d { (c.div d) with trim := v }

def clkTrimDivWrite (d v : Nat) (s : State) : State :=
  if trimOk d v then trimRamp { s with clk := setTrim d v s.clk } else s

def execClkTrimDivWrite (d v : Nat) (s : State) : Host.Outcome State Fault Refusal :=
  effect (clkTrimDivWrite d v) s

/-- R653: RUN to TRIM: dividers 1 to 3 ramp to their TRIM ratios, booking nothing; while coasting it is recorded. -/
def dividersToTrim (s : State) : State :=
  if s.clk.phase = .running then rampEnd (aimDividers s) else s

/-- R531, R653: TRIM to RUN: the return ramp requests its credits; while coasting the return of R529 serves (R530). -/
def dividersToRun (s : State) : State :=
  if s.clk.phase = .running then
    let c := s.clk
    let s := { s with clk := { c with
      div0 := stopRamp c.div0, div1 := stopRamp c.div1, div2 := stopRamp c.div2, div3 := stopRamp c.div3 } }
    if s.clk.rampHolds then rampEnd (aimDividers s)
    else if s.clk.rampWait then s
    else request kRamp 0 32 { s with clk := { s.clk with rampWait := true } }
  else s

/-- The grant of a divider ramp (R531): it begins. -/
def rampGranted (s : State) : State :=
  let s := { s with clk := { s.clk with rampWait := false, rampHolds := true } }
  rampEnd (aimDividers (finish 0x0203 0 stOk [] s))

/-! ### Commands (R539) -/

/-- 0x0201. -/
def clkStatusCmd (s : State) : State × Reply :=
  okWith (leBytes 4 (clkStatWord s.clk) ++ leBytes 4 (clkCtrlWord s.clk)
    ++ (List.range 4).flatMap (fun d => leBytes 2 (s.clk.div d).ratio) ++ leBytes 2 s.clk.lastPpm.toNat) s

def execClkStatus (q : CmdCtx) (s : State) : Host.Outcome State Fault Refusal :=
  effect (command q 0x0201 [] clkStatusCmd) s

/-- R539: a change of PRIMARY that a later one takes back ends without its test (log 164). -/
def endSet (back : Bool) (s : State) : State :=
  if back then finish 0x0202 0 stTimeout [] s else s

/-- R534, R539: CLK_CTRL takes new values; a change of PRIMARY while a judged source is in use goes through the test of
R529. -/
def applyClkCtrl (primary recovPort xoWarm autoReturn policy : Nat) (s : State) : State :=
  let c := s.clk
  let sameSrc := c.primaryRecov = (primary = 1) ∧ (primary = 0 ∨ c.recovPort = recovPort)
  let c := { c with primaryRecov := primary = 1, recovPort, xoWarm := xoWarm = 1, autoReturn := autoReturn = 1
                    policyCoast := policy = 1 }
  let c := if s.clk.recovPort = recovPort ∨ inUse c .recov then c
    else { c with recov := {}, tests := c.tests.filter fun t => decide (t.src ≠ .recov) }
  let c := if sameSrc then c
    else { c with primaryPassed := false, tests := c.tests.filter fun t => decide (t.kind ≠ .recovery) }
  let here := inUse c (primarySource c)
  let c := { c with setPending := (c.setPending || (!decide sameSrc && c.lock)) && !here }
  tryReturn (trySwitch (endSet (here && s.clk.setPending) { s with clk := startTests (xoPower c) }))

/-- 0x0202. -/
def clkSourceSetCmd (primary recovPort xoWarm autoReturn policy : Nat) (s : State) : State × Reply :=
  checks [(1 < primary || 7 < recovPort || 1 < xoWarm || 1 < autoReturn || 1 < policy, stBadArg)]
    (fun s =>
      let t := applyClkCtrl primary recovPort xoWarm autoReturn policy s
      if t.clk.setPending then (t, .wait [] 0 0) else ok t) s

def execClkSourceSet (q : CmdCtx) (primary recovPort xoWarm autoReturn policy : Nat) (s : State) :
    Host.Outcome State Fault Refusal :=
  effect (command q 0x0202 (payloadAt 5 [(0, 1, primary), (1, 1, recovPort), (2, 1, xoWarm), (3, 1, autoReturn),
    (4, 1, policy)]) (clkSourceSetCmd (primary % 256) (recovPort % 256) (xoWarm % 256) (autoReturn % 256)
      (policy % 256))) s

/-- 0x0203. -/
def clkTrimSetCmd (r1 r2 r3 : Nat) (s : State) : State × Reply :=
  checks [(!(trimOk 1 r1 && trimOk 2 r2 && trimOk 3 r3), stBadArg)]
    (fun s =>
      let s := trimRamp { s with clk := setTrim 1 r1 (setTrim 2 r2 (setTrim 3 r3 s.clk)) }
      if s.clk.rampWait then (s, .wait [] 0 0) else ok s) s

def execClkTrimSet (q : CmdCtx) (r1 r2 r3 : Nat) (s : State) : Host.Outcome State Fault Refusal :=
  effect (command q 0x0203 (leBytes 2 r1 ++ leBytes 2 r2 ++ leBytes 2 r3)
    (clkTrimSetCmd (r1 % 65536) (r2 % 65536) (r3 % 65536))) s

/-- 0x0204: the comparison runs once both sources show edges; the selection stays. -/
def clkTestCmd (a b : Nat) (s : State) : State × Reply :=
  checks [(2 < a || 2 < b, stBadArg)]
    (fun s =>
      let t : ClkTest := ⟨.command, sourceNamed a, sourceNamed b⟩
      ({ s with clk := { s.clk with tests := s.clk.tests.erase t ++ [t] } }, .wait [] (testNumber t.src t.other) 0)) s

def execClkTest (q : CmdCtx) (a b : Nat) (s : State) : Host.Outcome State Fault Refusal :=
  effect (command q 0x0204 (leBytes 1 a ++ leBytes 1 b) (clkTestCmd (a % 256) (b % 256))) s

/-- 0x0205. -/
def clkReturnCmd (s : State) : State × Reply :=
  checks [(!(s.clk.coast || (s.clk.lock && !inUse s.clk (primarySource s.clk))), stWrong)]
    (fun s =>
      let s := { s with clk := startTests { s.clk with returnOrdered := true } }
      let coast := s.clk.coast
      let s' := tryReturn (trySwitch s)
      if !coast && inUse s'.clk (primarySource s'.clk) then ok s' else (s', .wait [] 0 0)) s

def execClkReturn (q : CmdCtx) (s : State) : Host.Outcome State Fault Refusal :=
  effect (command q 0x0205 [] clkReturnCmd) s

/-- R539: no source passes within 20 ms of 0x0205. -/
def execClkReturnTimeout (s : State) : Host.Outcome State Fault Refusal :=
  effect (when (waiting 0x0205 0 s && decide (s.clk.phase ≠ .relocking)) fun s =>
    finish 0x0205 0 stTimeout [] { s with clk := { s.clk with returnOrdered := false } }) s

/-- R539: a source named in 0x0204 shows no edges within 10 ms. -/
def execClkTestEdgeTimeout (s : State) : Host.Outcome State Fault Refusal :=
  effect (fun s =>
    let dead (t : ClkTest) := decide (t.kind = .command) && !((s.clk.src t.src).edges && (s.clk.src t.other).edges)
    (s.clk.tests.filter dead).foldl (fun a t => finish 0x0204 (testNumber t.src t.other) stNotReady [] a)
      { s with clk := { s.clk with tests := s.clk.tests.filter fun t => !dead t } }) s

end Sys2Proof.Machine
end

