-- ==== Sys2Proof/Machine/Governor.lean ====
section
/-! DEFINITION. The governor's own commands (chapter 15), its registers, and scratch group clears as CURRENT starts them.
The decision itself stands in Machine/Grants.lean, after the families whose transitions it starts. -/

namespace Sys2Proof.Machine

/-- R548, R562: the head's wait, in units of 1,024 ticks. -/
def headWaited (s : State) (sp : Nat) : Nat :=
  let u := s.supply sp
  if u.queue.isEmpty then 0 else min ((s.now - u.headSince) / 1024) 0xFFFF

/-- R556. -/
def curEvtWord (g : Gov) : Nat :=
  (if g.reject then field g.rejIndex 24 8 + field g.rejKind 20 4 + field g.rejSupply 18 2 else 0)
    + field g.longWait.toNat 8 3 + flag g.reject 0

/-- R559: STANDING. -/
def standingNow (s : State) (sp : Nat) : Nat := if s.dev.ready.current then standingOf sp else 0

/-- R559 to R562. -/
def curAcctWord (s : State) (sp : Nat) : Nat := field (budget sp) 16 12 + field (standingNow s sp) 0 12
def curBookedWord (s : State) (sp : Nat) : Nat := field (s.supply sp).peak 16 12 + field (booked s sp) 0 12
def curQueueWord (s : State) (sp : Nat) : Nat :=
  match (s.supply sp).queue with
  | [] => 0
  | r :: t => field r.credits 20 12 + field r.cls 17 3 + field (t.length + 1) 0 10
def curHeadWord (s : State) (sp : Nat) : Nat :=
  match (s.supply sp).queue with
  | [] => 0
  | r :: _ => field (headWaited s sp) 16 16 + field r.kind 12 4 + field r.index 0 8

/-- R548: the head of supply `sp` has waited WAIT_WARN * 1,024 ticks. -/
def execGovLongWait (sp : Nat) (s : State) : Host.Outcome State Fault Refusal :=
  effect (when (sp < 3 && s.gov.waitWarn ≠ 0 && !(s.supply sp).queue.isEmpty && !(s.supply sp).warned
      && s.gov.waitWarn * 1024 ≤ s.now - (s.supply sp).headSince) fun s =>
    let s := s.modSupply sp fun u => { u with warned := true }
    raiseEvent evGov { s with gov := { s.gov with longWait := s.gov.longWait ||| BitVec.twoPow 3 sp } }) s

/-- R357: the next group to clear, when none is under way, requests 16 credits. -/
def nextGroupClear (s : State) : State :=
  if (List.range 32).any (fun g => decide ((s.sgroup g).state = .waitGrant) || decide ((s.sgroup g).state = .clearing))
  then s else
  match (List.range 32).find? (fun g => decide ((s.sgroup g).state = .off)) with
  | none => s
  | some g => request kGroup g 16 (s.modSgroup g fun x => { x with state := .waitGrant })

/-- R541: the governor starts granting, a few Sorrel cycles after CLOCK sets; the group clears begin (R357). -/
def execCurrentReady (s : State) : Host.Outcome State Fault Refusal :=
  effect (when (s.dev.ready.clock && !s.gov.granting) fun s =>
    nextGroupClear (settle { s with gov := { s.gov with granting := true } })) s

/-- R560. -/
def execCurClrPeak (sp : Nat) (s : State) : Host.Outcome State Fault Refusal :=
  effect (when (sp < 3) fun s => s.modSupply sp fun u => { u with peak := booked s sp }) s

/-- 0x0301 (R563). -/
def curStatusCmd (s : State) : State × Reply :=
  okWith ((List.range 3).flatMap (fun sp =>
      leBytes 2 (budget sp) ++ leBytes 2 (standingNow s sp) ++ leBytes 2 (booked s sp) ++ leBytes 2 (s.supply sp).peak
        ++ leBytes 2 (s.supply sp).queue.length ++ leBytes 2 (headWaited s sp) ++ leBytes 4 0)
    ++ leBytes 4 (curEvtWord s.gov)) s

def execCurStatus (q : CmdCtx) (s : State) : Host.Outcome State Fault Refusal :=
  effect (command q 0x0301 [] curStatusCmd) s

/-- R563: the entry at a queue position; past the tail it reads zero. -/
def queueEntryBytes (s : State) (sp pos : Nat) : List Byte :=
  match (s.supply sp).queue[pos]? with
  | none => leBytes 8 0
  | some r =>
    let waited := if pos = 0 then headWaited s sp else min ((s.now - r.entered) / 1024) 0xFFFF
    leBytes 1 r.kind ++ leBytes 1 r.index ++ leBytes 1 r.cls ++ leBytes 1 0 ++ leBytes 2 r.credits ++ leBytes 2 waited

/-- 0x0302. -/
def curQueueReadCmd (sp first : Nat) (s : State) : State × Reply :=
  checks [(decide (2 < sp), stBadArg)]
    (fun s => okWith (leBytes 8 (s.supply sp).queue.length
      ++ (List.range 6).flatMap (fun i => queueEntryBytes s sp (first + i))) s) s

def execCurQueueRead (q : CmdCtx) (sp first : Nat) (s : State) : Host.Outcome State Fault Refusal :=
  effect (command q 0x0302 (payloadAt 4 [(0, 1, sp), (2, 2, first)]) (curQueueReadCmd (u8 sp) (u16 first))) s

/-- 0x0303. -/
def kindHeld (u : Supply) (kind : Nat) : Nat :=
  (u.held.filter (fun e => e.1 / 256 = kind)).foldl (fun a e => a + e.2) 0
def curHoldingsCmd (sp : Nat) (s : State) : State × Reply :=
  checks [(decide (2 < sp), stBadArg)]
    (fun s => okWith ((List.range 10).flatMap (fun k => leBytes 2 (kindHeld (s.supply sp) k))
      ++ leBytes 2 (standingNow s sp)) s) s

def execCurHoldings (q : CmdCtx) (sp : Nat) (s : State) : Host.Outcome State Fault Refusal :=
  effect (command q 0x0303 (leBytes 1 sp) (curHoldingsCmd (u8 sp))) s

end Sys2Proof.Machine
end

