-- ==== Sys2Proof/Machine/Modes.lean ====
section
/-! DEFINITION. Power, reset, HOLD and temperature (chapters 19 and 20). -/

namespace Sys2Proof.Machine

/-- R564, R652, R666: POR_N is released: COMPAT, CFG_MODE and PULL_CFG_N are sampled, and clock start-up begins in LOAD. -/
def powerOn (compat : Bool) (cfgMode : Nat) (pull : Bool) (s : State) : State :=
  startUp (applyCompat { s with dev := { s.dev with compat, cfgMode := cfgMode % 8, pullCfgN := pull } })

def execPorNRelease (compat : Bool) (cfgMode : Nat) (pull : Bool) (s : State) : Host.Outcome State Fault Refusal :=
  effect (when (decide (s.dev.mode = .off)) (powerOn compat cfgMode pull)) s

/-- R652: POR_N low loses every state except fuses. -/
def execPorNAssert (s : State) : Host.Outcome State Fault Refusal := effect powerOff s

/-- R678: a supply below its trip level for 2 us resets exactly as POR_N low does. -/
def execSupplyMonitorTrip (s : State) : Host.Outcome State Fault Refusal := effect (fun s => powerOff s) s

/-- R678: 1 ms after the supplies stand, the internal reset releases; it counts as a release of POR_N. -/
def execResetReleaseTimer (compat : Bool) (cfgMode : Nat) (pull : Bool) (s : State) : Host.Outcome State Fault Refusal :=
  effect (when (decide (s.dev.mode = .off)) (fun s => powerOn compat cfgMode pull s)) s

/-- R564, R590, R652: CFG_RESTART_N low for at least 1 us; CFG_MODE and PULL_CFG_N are sampled at its release. -/
def execCfgRestart (cfgMode : Nat) (pull : Bool) (s : State) : Host.Outcome State Fault Refusal :=
  effect (when (decide (s.dev.mode ≠ .off)) fun s =>
    restartDevice { s with dev := { s.dev with cfgMode := cfgMode % 8, pullCfgN := pull } }) s

/-- R659: HOLD_N held low from outside for `ns` nanoseconds: below 20 ignored, from 100 on HOLD with cause 0x02; between
the two the spec leaves it open, so a free value decides (log 10). -/
def execHoldNLow (ns : Nat) (s : State) : Host.Outcome State Fault Refusal :=
  effect (when (s.dev.clockSeen && 20 ≤ ns) fun s =>
    if 100 ≤ ns then enterHold 2 s
    else
      let (b, s) := draw 1 s
      if b = 1 then enterHold 2 s else s) s

/-- R657: after HOLD entry a tile's port is idle, and its clocks stop; its state and credits stay as they were. -/
def execHoldTileIdle (t : Nat) (s : State) : Host.Outcome State Fault Refusal :=
  effect (when (t < 96 && decide (s.dev.mode = .hold) && s.dev.busyTiles = 0 && tileClocks s t && portIdle (s.tile t))
    fun s => s.modTile t fun x => { x with holdStopped := true }) s

/-- R657, R661: 4,096 NoC cycles after HOLD entry the tiles still running are counted. -/
def execHoldTileTimeout (s : State) : Host.Outcome State Fault Refusal :=
  effect (when (decide (s.dev.mode = .hold)) fun s =>
    { s with dev := { s.dev with busyTiles := ((List.range 96).filter fun t => tileClocks s t).length } }) s

/-- R680, R681: the three sensors are read, from the first setting of CLOCK on: THERM_N is driven at 110 degrees or more,
released once all read below 105. -/
def execTempSensorRead (east hub west : Int) (s : State) : Host.Outcome State Fault Refusal :=
  effect (when s.dev.clockSeen fun s =>
    let hot := decide (110 ≤ east ∨ 110 ≤ hub ∨ 110 ≤ west)
    let cool := decide (east < 105 ∧ hub < 105 ∧ west < 105)
    let therm := hot || (s.dev.therm && !cool)
    { s with dev := { s.dev with
        therm, tempTrip := s.dev.tempTrip || (therm && !s.dev.therm)
        tempEast := BitVec.ofInt 8 east, tempHub := BitVec.ofInt 8 hub, tempWest := BitVec.ofInt 8 west } }) s

/-- R681. -/
def devTempWord (d : Dev) : Nat :=
  flag d.tempTrip 31 + flag d.therm 30 + d.tempEast.toNat * 2 ^ 16 + d.tempHub.toNat * 2 ^ 8 + d.tempWest.toNat

end Sys2Proof.Machine
end

