-- ==== Sys2Proof/Machine/Timebase.lean ====
section
/-! DEFINITION. The timebase, network time and the servo (chapter 13). -/

namespace Sys2Proof.Machine

/-- R493: network time wraps at 2^48 seconds, in units of 2^-16 ns. -/
def ntModulus : Nat := 2 ^ 48 * 10 ^ 9 * 2 ^ 16

/-- R493: two thirds of a nanosecond a tick, rounded down to 2^-16 ns; `t` in units of 2^-48 tick. -/
def ntOfTick (t : Nat) : Nat := t / (3 * 2 ^ 31)

/-- R493: network time N. -/
def netTime (t : Tim) : Nat := (t.ntOffset + ntOfTick t.tick) % ntModulus

def ntSeconds (n : Nat) : Nat := n / (10 ^ 9 * 2 ^ 16)
def ntNanos (n : Nat) : Nat := n / 2 ^ 16 % 10 ^ 9
def ntFraction (n : Nat) : Nat := n % 2 ^ 16

/-- R489, R491, R549, R620: one cycle of the timebase clock: the count advances by 2 (or 4 while the VCO stands below
4.5 GHz) times (1 + RATE * 2^-48), the slew slot shortens, NoC cycles pass, and FAB_EVT pulses end. -/
def timebaseCycle (s : State) : State :=
  if s.tim.running then
    let inc := if s.clk.vcoLow then 4 else 2
    let frac := s.noc.cycleFrac + 128
    { s with
      tim := { s.tim with tick := ((s.tim.tick : Int) + inc * (2 ^ 48 + s.tim.rate)).toNat % 2 ^ 112 }
      gov := { s.gov with slewLeft := s.gov.slewLeft - inc }
      noc := { s.noc with pending := [], cycle := s.noc.cycle + frac / max 1 s.clk.div1.ratio, cycleFrac := frac % max 1 s.clk.div1.ratio }
      evt := { s.evt with fabEvt := 0 } }
  else s

/-! ### The servo -/

/-- R503: every clamp. -/
def clampRate (x : Int) : Int := max (-(2 ^ 38)) (min (2 ^ 38) x)

/-- R503: multiplication by a power of two; a negative exponent shifts arithmetically to the right. -/
def shiftBy (e k : Int) : Int := if 0 ≤ k then e * 2 ^ k.toNat else e / 2 ^ (-k).toNat

/-- R493: move NT_OFFSET by `d` units. -/
def moveOffset (n : Nat) (d : Int) : Nat := (((n : Int) + d) % ntModulus).toNat

/-- R504: the states that an applied offset leads to, judged once: an event 221 goes with a change of lock. -/
def judgeLock (t : Tim) (e : Int) : Tim × Bool :=
  if t.servo = .acquire ∧ t.lockCount ≤ t.lockRun then ({ t with servo := .locked, timeValid := true }, true)
  else if t.servo = .locked ∧ 2 * t.lockBound * 2 ^ 16 < e.natAbs then
    ({ t with servo := .acquire, timeValid := false }, true)
  else (t, false)

/-- R503: an offset below the step threshold steers the rate. -/
def steer (t : Tim) (e : Int) : Tim :=
  let integ := clampRate (t.integ - shiftBy e t.kiExp)
  { t with integ, rate := clampRate (integ - shiftBy e t.kpExp)
           lockRun := if e.natAbs ≤ t.lockBound * 2 ^ 16 then min 15 (t.lockRun + 1) else 0 }

/-- R503, R504, R507: the servo receives offset `e`. -/
def servoOffset (e : Int) (s : State) : State :=
  let t := { s.tim with lastOffset := e }
  if t.servo = .coast ∨ t.forceHold ∨ s.dev.mode = .hold then { s with tim := { t with offsetDrop := true } }
  else if t.servo = .free ∨ t.servo = .grandmaster then { s with tim := t }
  else if t.stepThresh * 1000 * 2 ^ 16 ≤ e.natAbs then
    settle (raiseEvent 222 { s with tim := { t with
      ntOffset := moveOffset t.ntOffset (-e), lockRun := 0, stepped := true, timeValid := false, servo := .acquire } })
  else
    let t := steer t e
    let t := if t.servo = .holdover then { t with servo := if t.timeValid then .locked else .acquire } else t
    let r := judgeLock t e
    let s := settle { s with tim := r.1 }
    if r.2 then raiseEvent 221 s else s

/-- The offset as TIM_OFFSET_HI and TIM_OFFSET_LO hold it (R510). -/
def execTimOffset (e : Int) (s : State) : Host.Outcome State Fault Refusal :=
  effect (fun s =>
    let v := wrapNat 64 e
    servoOffset (sgn 64 v) { s with tim := { s.tim with offsetLo := v % 2 ^ 32, offsetHi := v / 2 ^ 32 } }) s

/-- R494. -/
def snap (s : State) : State :=
  { s with tim := { s.tim with snapTick := s.now, snapTime := netTime s.tim } }
def execTimSnap (s : State) : Host.Outcome State Fault Refusal := effect snap s

/-- R504: SERVO_EN is set. -/
def servoEnSet (s : State) : State :=
  let t := { s.tim with servoEn := true }
  { s with tim := if t.servo = .free then { t with servo := .acquire, lockRun := 0 } else t }
def execServoEnSet (s : State) : Host.Outcome State Fault Refusal :=
  effect (when (!s.tim.servoEn) servoEnSet) s

/-- R504: SERVO_EN is cleared. -/
def servoEnClear (s : State) : State :=
  settle { s with tim := { s.tim with servoEn := false, servo := .free, timeValid := false } }
def execServoEnClear (s : State) : Host.Outcome State Fault Refusal :=
  effect (when s.tim.servoEn servoEnClear) s

/-- R504, R507: HOLDOVER: RATE becomes the integrator, but stays frozen in HOLD; event 222. -/
def holdover (s : State) : State :=
  if s.tim.servo = .acquire ∨ s.tim.servo = .locked then
    raiseEvent 222 { s with tim := { s.tim with
      servo := .holdover, rate := if s.dev.mode = .hold then s.tim.rate else s.tim.integ } }
  else s

/-- R504: FORCE_HOLD is set. -/
def forceHoldSet (s : State) : State := holdover { s with tim := { s.tim with forceHold := true } }
def execForceHoldSet (s : State) : Host.Outcome State Fault Refusal :=
  effect (when (!s.tim.forceHold) forceHoldSet) s

/-- R504: FORCE_HOLD is cleared: the next offset may leave HOLDOVER. -/
def forceHoldClear (s : State) : State := { s with tim := { s.tim with forceHold := false } }
def execForceHoldClear (s : State) : Host.Outcome State Fault Refusal :=
  effect (when s.tim.forceHold forceHoldClear) s

/-- R504, R512: no offset for TIMEOUT ms; a TIMEOUT of 0 turns it off. -/
def execServoTimeout (s : State) : Host.Outcome State Fault Refusal :=
  effect (when (s.tim.timeout ≠ 0 && decide (s.dev.mode ≠ .hold)) holdover) s

/-- R504: HOLD_LIMIT seconds in HOLDOVER. -/
def execHoldLimitExpiry (s : State) : Host.Outcome State Fault Refusal :=
  effect (when (decide (s.tim.servo = .holdover)) fun s =>
    raiseEvent 222 (settle { s with tim := { s.tim with timeValid := false, holdExpired := true } })) s

/-! ### Registers -/

/-- R509: the code of STATE. -/
def servoCode : Servo → Nat
  | .free => 0
  | .acquire => 1
  | .locked => 2
  | .holdover => 3
  | .grandmaster => 4
  | .coast => 5

/-- R508, R509, R511, R512. -/
def timCtrlWord (t : Tim) : Nat := flag t.forceHold 1 + flag t.servoEn 0
def timStatWord (t : Tim) : Nat :=
  flag t.timeValid 31 + field (servoCode t.servo) 28 3 + flag t.stepped 27 + flag t.holdExpired 26 + flag t.offsetDrop 25
    + flag t.tsOvf 24 + flag t.tsBad 23 + flag t.tcDrop 22 + field t.lockRun 0 4
def timServoWord (t : Tim) : Nat :=
  wrapNat 5 t.kpExp * 2 ^ 24 + wrapNat 5 t.kiExp * 2 ^ 16 + field t.lockCount 8 4
def timLockWord (t : Tim) : Nat := field t.stepThresh 16 16 + field t.lockBound 0 16
def timHoldWord (t : Tim) : Nat := field t.holdLimit 16 16 + field t.timeout 0 16
def timTcWord (t : Tim) : Nat := flag t.tcAll 31 + field t.tcDomain 16 8 + field t.tcPorts 0 8

/-! ### Commands (R513) -/

/-- 0x0B01. -/
def timeGetCmd (s : State) : State × Reply :=
  let n := netTime s.tim
  okWith (leBytes 8 s.now ++ leBytes 6 (ntSeconds n) ++ leBytes 4 (ntNanos n) ++ leBytes 2 (ntFraction n) ++ leBytes 4 0
    ++ leBytes 8 (wrapNat 64 s.tim.rate) ++ leBytes 1 (servoCode s.tim.servo) ++ leBytes 1 (b2n s.tim.timeValid)
    ++ leBytes 6 0 ++ leBytes 8 (wrapNat 64 s.tim.lastOffset)) s

def execTimeGet (q : CmdCtx) (s : State) : Host.Outcome State Fault Refusal :=
  effect (command q 0x0B01 [] timeGetCmd) s

/-- R511: an exponent byte from -16 to 15. -/
def expOk (v : Nat) : Bool := decide (-16 ≤ sgn 8 v ∧ sgn 8 v ≤ 15)

/-- 0x0B02. -/
def timeServoSetCmd (kp ki count bound step timeout limit : Nat) (s : State) : State × Reply :=
  checks [(!(expOk kp && expOk ki && 1 ≤ count && count ≤ 15), stBadArg), (!s.dev.ready.timebase, stNotReady)]
    (fun s => ok { s with tim := { s.tim with
      kpExp := sgn 8 kp, kiExp := sgn 8 ki, lockCount := count, lockBound := bound, stepThresh := step
      timeout := timeout, holdLimit := limit } }) s

def execTimeServoSet (q : CmdCtx) (kp ki count bound step timeout limit : Nat) (s : State) :
    Host.Outcome State Fault Refusal :=
  effect (command q 0x0B02 (payloadAt 12 [(0, 1, kp), (1, 1, ki), (2, 1, count), (4, 2, bound), (6, 2, step),
      (8, 2, timeout), (10, 2, limit)])
    (timeServoSetCmd (u8 kp) (u8 ki) (u8 count) (u16 bound) (u16 step) (u16 timeout) (u16 limit))) s

/-- 0x0B03: N at `tick` is the value given (R504); a change of NT_OFFSET is a step: STEPPED and event 222. -/
def timeSetCmd (mode tick sec ns frac : Nat) (s : State) : State × Reply :=
  checks [(1 < mode || 10 ^ 9 ≤ ns, stBadArg), (!s.dev.ready.timebase, stNotReady),
      (!(decide (s.tim.servo = .free) || decide (s.tim.servo = .grandmaster)), stWrong)]
    (fun s =>
      let value := (sec * 10 ^ 9 + ns) * 2 ^ 16 + frac
      let off := moveOffset (value % ntModulus) (-(ntOfTick (tick * 2 ^ 48) : Int))
      let moved := decide (off ≠ s.tim.ntOffset)
      let s := settle { s with tim := { s.tim with
        ntOffset := off, servo := if mode = 1 then .grandmaster else .free, timeValid := mode = 1
        stepped := s.tim.stepped || moved } }
      ok (if moved then raiseEvent 222 s else s)) s

def execTimeSet (q : CmdCtx) (mode tick sec ns frac : Nat) (s : State) : Host.Outcome State Fault Refusal :=
  effect (command q 0x0B03 (payloadAt 28 [(0, 1, mode), (8, 8, tick), (16, 6, sec), (22, 4, ns), (26, 2, frac)])
    (timeSetCmd (u8 mode) (u64 tick) (u48 sec) (u32 ns) (u16 frac))) s

/-- 0x0B04. -/
def timeTcSetCmd (ports domain all : Nat) (s : State) : State × Reply :=
  checks [(1 < all, stBadArg), (!s.dev.ready.timebase, stNotReady)]
    (fun s => ok { s with tim := { s.tim with tcPorts := ports, tcDomain := domain, tcAll := all = 1 } }) s

def execTimeTcSet (q : CmdCtx) (ports domain all : Nat) (s : State) : Host.Outcome State Fault Refusal :=
  effect (command q 0x0B04 (leBytes 1 ports ++ leBytes 1 domain ++ leBytes 1 all)
    (timeTcSetCmd (u8 ports) (u8 domain) (u8 all))) s

/-- 0x0B05. -/
def timeTsReadCmd (p : Nat) (s : State) : State × Reply :=
  checks [(decide (7 < p), stBadArg), (!s.dev.ready.timebase, stNotReady)]
    (fun s => match (s.port p).tsFifo with
      | [] => okWith (leBytes 17 0) s
      | e :: t => okWith (leBytes 1 t.length ++ leBytes 1 e.msgType ++ leBytes 2 e.seqId ++ leBytes 1 e.domain
          ++ leBytes 1 1 ++ leBytes 2 0 ++ leBytes 8 e.tick ++ leBytes 1 e.sub)
          (s.modPort p fun x => { x with tsFifo := t })) s

def execTimeTsRead (q : CmdCtx) (p : Nat) (s : State) : Host.Outcome State Fault Refusal :=
  effect (command q 0x0B05 (leBytes 1 p) (timeTsReadCmd (u8 p))) s

/-- 0x0B06. -/
def timePtpConfigCmd (p domain transport logSync role : Nat) (s : State) : State × Reply :=
  checks [((7 < p && p ≠ 255) || 239 < domain || 2 < transport || !decide (-7 ≤ sgn 8 logSync ∧ sgn 8 logSync ≤ 0)
      || 1 < role, stBadArg), (!s.dev.ready.timebase, stNotReady)]
    (fun s => ok { s with tim := { s.tim with
      ptpPort := p, ptpDomain := domain, ptpTransport := transport, ptpLogSync := sgn 8 logSync, ptpRole := role } }) s

def execTimePtpConfig (q : CmdCtx) (p domain transport logSync role : Nat) (s : State) :
    Host.Outcome State Fault Refusal :=
  effect (command q 0x0B06 (leBytes 1 p ++ leBytes 1 domain ++ leBytes 1 transport ++ leBytes 1 logSync ++ leBytes 1 role)
    (timePtpConfigCmd (u8 p) (u8 domain) (u8 transport) (u8 logSync) (u8 role))) s

/-- 0x0B07: portState, the grandmaster's identity and the mean path delay are the protocol's own; no rule fixes them, so
they are free values (log 20). -/
def timePtpStatusCmd (s : State) : State × Reply :=
  let (st, s) := draw 8 s
  let (gm, s) := draw 64 s
  let (delay, s) := draw 64 s
  okWith (leBytes 1 st.toNat ++ leBytes 7 0 ++ leBytes 8 gm.toNat ++ leBytes 8 delay.toNat
    ++ leBytes 8 (wrapNat 64 s.tim.lastOffset) ++ leBytes 4 s.tim.syncRx.toNat) s

def execTimePtpStatus (q : CmdCtx) (s : State) : Host.Outcome State Fault Refusal :=
  effect (command q 0x0B07 [] timePtpStatusCmd) s

/-- 0x0B08. -/
def timeHoldoverCmd (enter : Nat) (s : State) : State × Reply :=
  checks [(1 < enter, stBadArg), (!s.dev.ready.timebase, stNotReady)]
    (fun s => ok (if enter = 1 then forceHoldSet s else forceHoldClear s)) s

def execTimeHoldover (q : CmdCtx) (enter : Nat) (s : State) : Host.Outcome State Fault Refusal :=
  effect (command q 0x0B08 (leBytes 1 enter) (timeHoldoverCmd (u8 enter))) s

end Sys2Proof.Machine
end

