-- ==== Sys2Proof/Machine/Security.lean ====
section
/-! DEFINITION. Access rights, the scrambler key and the lifecycle (chapter 11). -/

namespace Sys2Proof.Machine

/-! ### The rights table (R420 to R427) -/

/-- R441: an entry from its CTL, BASE and LIMIT words, and back. -/
def rightsOf (ctl base limit : Nat) : RightsEntry :=
  { en := bit ctl 31, lock := bit ctl 30, rd := bit ctl 29, wr := bit ctl 28, cls := bits ctl 24 3, idxLo := bits ctl 16 7
    idxHi := bits ctl 8 7, base := bits base 0 29, limit := bits limit 0 29 }
def accCtlWord (e : RightsEntry) : Nat :=
  flag e.en 31 + flag e.lock 30 + flag e.rd 29 + flag e.wr 28 + field e.cls 24 3 + field e.idxLo 16 7 + field e.idxHi 8 7

/-- R426: the default table. -/
def defaultRights : List (Nat × RightsEntry) :=
  [(0, ⟨true, false, true, true, 0, 0, 0, 0x00000000, 0x00003FFF⟩),
   (1, ⟨true, false, true, true, 0, 0, 0, 0x00100000, 0x00103FFF⟩),
   (2, ⟨true, false, true, true, 0, 0, 0, 0x10000000, 0x17FFFFFF⟩),
   (3, ⟨true, false, true, true, 4, 0, 0, 0x00100000, 0x00103FFF⟩),
   (4, ⟨true, false, true, true, 4, 0, 0, 0x10000000, 0x17FFFFFF⟩),
   (5, ⟨true, false, true, true, 7, 0, 0, 0x00000000, 0x17FFFFFF⟩)]

/-- R421, R424: entry `e` grants the page to the initiator; of a class without indices both of the entry must be 0. -/
def grants (e : RightsEntry) (cls index page : Nat) (rd : Bool) : Bool :=
  e.en && e.cls = cls && (cls = 2 || cls = 3 || (e.idxLo = 0 && e.idxHi = 0)) && e.idxLo ≤ index && index ≤ e.idxHi && e.base ≤ page && page ≤ e.limit && (if rd then e.rd else e.wr)

/-- R421: the table grants every right needed on every page from `addr` to `addr + last`. -/
def tablePasses (t : List (Nat × RightsEntry)) (cls index : Nat) (rd wr : Bool) (addr last : Nat) : Bool :=
  (List.range ((addr + last) / 4096 - addr / 4096 + 1)).all fun i =>
    (!rd || t.any (fun e => grants e.2 cls index (addr / 4096 + i) true))
    && (!wr || t.any (fun e => grants e.2 cls index (addr / 4096 + i) false))

/-- R421, R425, R427: the source port judges a request: by the table as it stands in one cycle, which while changes
spread is the new one or one that some copy still holds (a free value). -/
def rightsJudge (cls index : Nat) (rd wr : Bool) (addr last : Nat) (s : State) : Bool × State :=
  if cls = 1 ∨ cls = 6 then (true, s)
  else if cls = 7 ∧ (lifecycle s.fuse = 0 ∨ lifecycle s.fuse = 3) then (true, s)
  else if cls = 7 ∧ lifecycle s.fuse = 2 then (rd && !wr && (addr + last) / 4096 ≤ 1, s)
  else match s.sec.acc.old with
    | [] => (tablePasses s.sec.acc.entries cls index rd wr addr last, s)
    | old =>
      let (b, s) := draw 8 s
      (tablePasses (lget [] (s.sec.acc.entries :: old) (b.toNat % (old.length + 1))) cls index rd wr addr last, s)

/-- R422: a refused request is counted and, while VIOL is 0, captured; event 323. -/
def recordViolation (cls index : Nat) (wr : Bool) (addr : Nat) (s : State) : State :=
  let a := s.sec.acc
  let a := { a with count := satAdd 16 a.count 1 }
  let a := if a.viol then a else { a with viol := true, write := wr, cls, index, addr }
  raiseEvent 323 { s with sec := { s.sec with acc := a } }

/-- R425: the table changes; the copies follow. -/
def setTable (t : List (Nat × RightsEntry)) (s : State) : State :=
  { s with sec := { s.sec with acc := { s.sec.acc with entries := t, old := s.sec.acc.entries :: s.sec.acc.old } } }

/-- R426: the whole-table replacements, of an image's RIGHTS or of the default table. Page numbers have 29 bits (R420);
reserved bits read zero (R15). -/
def installTable (es : List (Nat × RightsEntry)) (s : State) : State :=
  setTable (es.foldl (fun t e =>
    tset noRights t e.1 { e.2 with base := e.2.base % 2 ^ 29, limit := e.2.limit % 2 ^ 29 }) []) s

def execAccTablePropagated (s : State) : Host.Outcome State Fault Refusal :=
  effect (fun s => { s with sec := { s.sec with acc := { s.sec.acc with old := [] } } }) s

/-- R440, R438, R442. -/
def accStatWord (a : Acc) : Nat :=
  flag a.viol 31 + flag a.write 30 + field a.cls 27 3 + field a.index 20 7 + flag (!a.old.isEmpty) 16 + field a.count 0 16
def scmStatWord (m : Scm) : Nat :=
  flag m.keyReady 31 + flag m.keyFail 30 + field m.attempts 28 2 + flag m.bypass 27 + m.keySerial.toNat
def lcsStateWord (s : State) : Nat :=
  field (lifecycle s.fuse) 30 2 + flag s.sec.lcs.arm.isSome 29 + s.fuse.lifecycle.toNat

/-- R424, R443: what 0x0D01 accepts. -/
def entryOk (e : RightsEntry) : Bool :=
  e.base ≤ e.limit && e.cls ≠ 1 && e.cls ≠ 6 && (e.cls = 2 || e.cls = 3 || (e.idxLo = 0 && e.idxHi = 0))

/-- 0x0D01. -/
def accSetEntryCmd (entry ctl base limit : Nat) (s : State) : State × Reply :=
  let e := rightsOf ctl base limit
  checks [(63 < entry || !entryOk e, stBadArg), ((tget noRights s.sec.acc.entries entry).lock, stWrong)]
    (fun s => ok (setTable (tset noRights s.sec.acc.entries entry e) s)) s

def execAccSetEntry (q : CmdCtx) (entry ctl base limit : Nat) (s : State) : Host.Outcome State Fault Refusal :=
  effect (command q 0x0D01 (payloadAt 16 [(0, 1, entry), (4, 4, ctl), (8, 4, base), (12, 4, limit)])
    (accSetEntryCmd (u8 entry) (u32 ctl) (u32 base) (u32 limit))) s

/-- 0x0D02. -/
def accGetEntryCmd (entry : Nat) (s : State) : State × Reply :=
  let e := tget noRights s.sec.acc.entries entry
  checks [(decide (63 < entry), stBadArg)]
    (okWith (leBytes 4 (accCtlWord e) ++ leBytes 4 e.base ++ leBytes 4 e.limit)) s

def execAccGetEntry (q : CmdCtx) (entry : Nat) (s : State) : Host.Outcome State Fault Refusal :=
  effect (command q 0x0D02 (leBytes 1 entry) (accGetEntryCmd (u8 entry))) s

/-- 0x0D03. -/
def accViolLogCmd (s : State) : State × Reply :=
  okWith (leBytes 8 (accStatWord s.sec.acc) ++ leBytes 8 s.sec.acc.addr) s

def execAccViolLog (q : CmdCtx) (s : State) : Host.Outcome State Fault Refusal :=
  effect (command q 0x0D03 [] accViolLogCmd) s

/-! ### The key (R431 to R433) -/

/-- R376: the default windows of the populated channels. -/
def defaultWindows (s : State) : List (Nat × Nat) :=
  (List.range 8).foldl (fun t c => if (s.chan c).populated then tset 0 t c (2 ^ 31 + field c 16 3) else t) []

/-- R576, R398: channel `c` takes the values of the board description in force, if there is one. -/
def boardToChannel (c : Nat) (s : State) : State :=
  if s.boot.board = [] then s else
  let s := s.modChan c fun x =>
    match s.boot.board.find? fun b => b.channel = c with
    | none => { x with populated := false }
    | some b =>
      let t := b.training.foldl (fun t e => tset 0 t e.1 (e.2 &&& trainingMask e.1)) []
      { x with populated := b.populated, ranks := b.ranks, rdimm := b.rdimm, density := b.density % 2
               tim0 := u32 b.tim0, tim1 := b.tim1 &&& 0x3FFF0FFF, tim2 := u32 b.tim2, training := t, boardTraining := t }
  if s.boot.windowsSet then s else { s with ddr := { s.ddr with wins := defaultWindows s } }

/-- R393, R576: a channel that may start takes the board's values and requests its credits. -/
def startChannel (c : Nat) (s : State) : State :=
  let s := boardToChannel c s
  request kChan c 22 (s.modChan c fun x => { x with state := .waitGrant, pendingEnable := false })

/-- R393: the enables held while no key was ready: they start, or are discarded. -/
def releaseHeldEnables (go : Bool) (s : State) : State :=
  forEach (List.range 8) (fun c a =>
    if (a.chan c).state = .off ∧ (a.chan c).pendingEnable then
      if go then startChannel c a
      else finish 0x0901 c stNotReady [] (a.modChan c fun x => { x with pendingEnable := false })
    else a) s

/-- R431: an attempt ends: the key is made (its bits come from the entropy source, a free value), or after three failures
KEY_FAIL sets with event 322. -/
def execKeyAttemptDone (pass : Bool) (s : State) : Host.Outcome State Fault Refusal :=
  effect (when (s.dev.clockSeen && !s.sec.scm.keyReady && !s.sec.scm.keyFail) fun s =>
    if pass then
      let (k, s) := draw 128 s
      releaseHeldEnables true { s with sec := { s.sec with scm := { s.sec.scm with
        key := k, keyReady := true, keySerial := s.sec.scm.keySerial + 1 } } }
    else
      let n := s.sec.scm.attempts + 1
      let s := { s with sec := { s.sec with scm := { s.sec.scm with attempts := n, keyFail := decide (3 ≤ n) } } }
      if 3 ≤ n then raiseEvent 322 (releaseHeldEnables false s) else s) s

/-- R433: BYPASS, in BLANK or DEVELOP with every channel OFF; else the write is discarded. -/
def bypassWrite (v : Bool) (s : State) : State :=
  if lifecycle s.fuse ≤ 1 ∧ (List.range 8).all (fun c => decide ((s.chan c).state = .off)) then
    { s with sec := { s.sec with scm := { s.sec.scm with bypass := v } } }
  else s

def execScmBypassWrite (v : Bool) (s : State) : Host.Outcome State Fault Refusal := effect (bypassWrite v) s

/-- 0x0D06. -/
def scmStatusCmd (s : State) : State × Reply :=
  okWith (leBytes 4 (scmStatWord s.sec.scm) ++ leBytes 4 (lcsStateWord s)) s

def execScmStatus (q : CmdCtx) (s : State) : Host.Outcome State Fault Refusal :=
  effect (command q 0x0D06 [] scmStatusCmd) s

/-! ### The lifecycle (R435, R436) -/

/-- 0x0D04: the nonce is a free value. -/
def lcsArmCmd (target : Nat) (s : State) : State × Reply :=
  checks [(decide (3 < target), stBadArg),
      (decide (s.dev.mode ≠ .safe) || decide (target ≤ lifecycle s.fuse) || s.sec.lcs.blowing.isSome, stWrong)]
    (fun s =>
      let (n, s) := draw 16 s
      okWith (leBytes 2 n.toNat) { s with sec := { s.sec with lcs := { s.sec.lcs with
        arm := some { target, nonce := n, since := s.now }, expired := false } } }) s

def execLcsArm (q : CmdCtx) (target : Nat) (s : State) : Host.Outcome State Fault Refusal :=
  effect (command q 0x0D04 (leBytes 1 target) (lcsArmCmd (u8 target))) s

/-- 0x0D05: the matching commit within 1 s begins BLOWING once its millisecond has passed (R690). One that comes after the
timer of the arm has expired, with no command between, answers TIMEOUT. -/
def lcsCommitCmd (target nonce : Nat) (s : State) : State × Reply :=
  let clear := { s with sec := { s.sec with lcs := { s.sec.lcs with arm := none, expired := false } } }
  match s.sec.lcs.arm with
  | none => fail (if 3 < target then stBadArg else if s.sec.lcs.expired then stTimeout else stWrong) clear
  | some a =>
    if 3 < target then fail stBadArg clear
    else if 1000 * msTicks < s.now - a.since then fail stTimeout clear
    else if a.target ≠ target ∨ a.nonce.toNat ≠ nonce then fail stIntegrity clear
    else
      (armRestart .lifecycle
        { clear with sec := { clear.sec with lcs := { clear.sec.lcs with blowing := some (target, 0) } } }, .wait [] 0 0)

def execLcsCommit (q : CmdCtx) (target nonce : Nat) (s : State) : Host.Outcome State Fault Refusal :=
  effect (command q 0x0D05 (payloadAt 4 [(0, 1, target), (2, 2, nonce)]) (lcsCommitCmd (u8 target) (u16 nonce))) s

def execLcsArmTimeout (s : State) : Host.Outcome State Fault Refusal :=
  effect (when (s.sec.lcs.arm.any fun a => 1000 * msTicks ≤ s.now - a.since) fun s =>
    { s with sec := { s.sec with lcs := { s.sec.lcs with arm := none, expired := true } } }) s

/-- R436: BLOWING begins: every clocked block is under reset. -/
def beginBlowing (s : State) : State :=
  let c := cleared false true (trialEnds s)
  { c with sec := { c.sec with lcs := { blowing := s.sec.lcs.blowing } } }

/-- R436: the next fuse of the target group finishes blowing; after the third the device wipes and starts. -/
def fuseBlown (s : State) : State :=
  match s.sec.lcs.blowing with
  | none => s
  | some (t, k) =>
    let s := { s with fuse := { s.fuse with lifecycle := s.fuse.lifecycle ||| BitVec.twoPow 9 (3 * (t - 1) + k) } }
    if k < 2 then { s with sec := { s.sec with lcs := { s.sec.lcs with blowing := some (t, k + 1) } } }
    else lifecycleReset s

def execLcsFuseBlown (s : State) : Host.Outcome State Fault Refusal :=
  effectFuse (when (s.sor.restart.isNone && decide (s.clk.phase = .off)) fuseBlown) s

end Sys2Proof.Machine
end

