-- ==== Sys2Proof/Machine/Dram.lean ====
section
/-! DEFINITION. The DRAM controllers (chapter 10): reads and writes through the chip-loss code, freezing and unfreezing,
the channel states, the scrubber, activate counting and the DRAM commands. -/

namespace Sys2Proof.Machine

/-! ### Places (R373, R378) -/

/-- R378: rank, bank index within the rank, and row of line `L`. -/
def bankBits (x : Chan) : Nat := 3 + (1 + x.density)
def rankOf (x : Chan) (l : Nat) : Nat := if x.ranks = 2 then bits l (7 + bankBits x) 1 else 0
def bankOf (x : Chan) (l : Nat) : Nat := bits l 7 (bankBits x) + 64 * rankOf x l
def rowOf (x : Chan) (l : Nat) : Nat := bits l (7 + bankBits x + (if x.ranks = 2 then 1 else 0)) 16

/-- R382, R412: the marked device of a rank. -/
def markOf (u : SubCh) (rank : Nat) : Option Nat :=
  if rank = 0 then (if u.mark0 then some u.chip0 else none) else (if u.mark1 then some u.chip1 else none)

/-- R378: the key of a line in the store of lines. -/
def lineKey (u l : Nat) : Nat := u * 2 ^ 29 + l

/-- R429: the keystream of line `L` of a subchannel (none under BYPASS, R433). -/
def streamOf (s : State) (u l : Nat) : Nat :=
  if s.sec.scm.bypass then 0 else keyLine s.sec.scm.key ((2 * l + u % 2) * 8 + u / 2)

/-- R416: the raw symbols of a line, as stored behind the scrambler. -/
def rawLine (s : State) (u l : Nat) (v : BitVec 640) : BitVec 640 := v ^^^ lineEncode (streamOf s u l)

/-- R389: flips that have happened to a stored line. -/
def upsetLine (u l : Nat) (f : BitVec 640) (s : State) : State :=
  { s with ddr := { s.ddr with lines := tmod 0 s.ddr.lines (lineKey u l) (· ^^^ f) } }

/-- Store a line as encoded. -/
def storeLine (u l : Nat) (v : BitVec 640) (s : State) : State :=
  { s with ddr := { s.ddr with lines := tset 0 s.ddr.lines (lineKey u l) v } }

/-- R396: a fill of subchannel `u`: every line reads as zero data, and the page map entries that DRAM held there are NONE
(R283). -/
def fillSub (u : Nat) (s : State) : State :=
  let gone (v : Nat) : Bool := match dramTarget s (s.qm.mapBase + 8 * v) with
    | some (c, a) => subOf c a = u
    | none => false
  { s with
    ddr := { s.ddr with lines := tdrop 0 (fun k => decide (k / 2 ^ 29 = u)) s.ddr.lines }
    qm := { s.qm with map := tmap {} (fun v e =>
      if e.whr = .dram && !(tget false s.qm.cached v) && gone v then {} else e) s.qm.map } }

/-! ### Errors (R381 to R385, R389) -/

/-- R410: set a cause of a subchannel; its event goes with its enable. -/
def subCause (u b : Nat) (s : State) : State :=
  let s := s.modSub u fun x => { x with causes := x.causes ||| BitVec.twoPow 5 b }
  if (s.sub u).en.getLsbD b then raiseEvent (176 + u) s else s
def scCe : Nat := 0
def scUe : Nat := 1
def scCaParity : Nat := 2
def scMarked : Nat := 3
def scActTrig : Nat := 4

/-- R385, R414: capture a line in the log. -/
def logLine (kind : Bool) (u l src rank : Nat) (erasure : Bool) (chips : BitVec 10) (v : BitVec 640) (s : State) : State :=
  s.modSub u fun x =>
    { x with logValid := true, logKind := kind, logSource := src, logRank := rank, logErasure := erasure
             logChips := chips, logLine := l, capture := byDevice (rawLine s u l v) }

/-- R390: the queues with pages homed in a frozen subchannel become FAULTED; the readiness bits follow. -/
def freezeSub (u : Nat) (c : FreezeCause) (s : State) : State :=
  let s := s.modSub u fun x => { x with frozen := true, cause := c }
  settle (faultPages (homedIn s u) s)

/-- R383: a correction within one device counts for it, and may mark it. -/
def countDevice (c u rank k : Nat) (s : State) : State :=
  let n := satAdd 8 (tget 0 (s.sub u).chipCnt (rank * 10 + k)) 1
  let s := s.modSub u fun x => { x with chipCnt := tset 0 x.chipCnt (rank * 10 + k) n }
  if (s.chan c).markThresh ≤ n ∧ (s.chan c).autoMark ∧ markOf (s.sub u) rank = none then
    subCause u scMarked (s.modSub u fun x =>
      if rank = 0 then { x with mark0 := true, chip0 := k } else { x with mark1 := true, chip1 := k })
  else s

/-- R383, R385: a corrected line. -/
def lineCorrected (c u l src rank : Nat) (ps : List Nat) (v : BitVec 640) (s : State) : State :=
  let devs := (ps.map deviceAt).eraseDups
  let erasure := (markOf (s.sub u) rank).isSome
  let s := subCause u scCe (s.modSub u fun x => { x with ce := satAdd 48 x.ce 1 })
  let s := if (s.sub u).logValid then s else
    logLine false u l src rank erasure (ofBits 10 fun k => devs.contains k) v s
  match devs with
  | [k] => countDevice c u rank k s
  | _ => s

/-- R384: the unmarked devices whose erasure, beside the mark in force, makes the word decode. -/
def suspects (mark : Option Nat) (word : List Nat) : BitVec 10 :=
  let m := match mark with
    | some k => devicePositions k
    | none => []
  ofBits 10 fun k => decide (mark ≠ some k) && (rsDecode 16 word (m ++ devicePositions k)).isSome

/-- R384, R385, R389: an uncorrectable line freezes its subchannel. -/
def lineLost (u l src rank : Nat) (v : BitVec 640) (s : State) : State :=
  let mark := markOf (s.sub u) rank
  let s := subCause u scUe (s.modSub u fun x => { x with ue := satAdd 16 x.ue 1, failLine := l })
  freezeSub u .data (logLine true u l src rank mark.isSome (suspects mark (lineWord v)) v s)

/-- R386: the write queue's newest entry for a line. -/
def queued (x : SubCh) (l : Nat) : Option (BitVec 640) := (x.queue.reverse.find? fun e => e.1 = l).map (·.2)

/-- R381, R382: the decoder's answer for a stored line. -/
def decodeStored (s : State) (c u l : Nat) : Option (List Nat × List Nat) :=
  rsDecode 16 (lineWord (tget 0 s.ddr.lines (lineKey u l)))
    (match markOf (s.sub u) (rankOf (s.chan c) l) with
      | some k => devicePositions k
      | none => [])

/-- R381, R386: read a line for source `src` (0 read, 1 merge, 2 scrubber): its data, from the write queue or through
the decoder. -/
def readLine (c u l src : Nat) (s : State) : Option Nat × State :=
  match queued (s.sub u) l with
  | some v => (some (lineData v), s)
  | none =>
    let v := tget 0 s.ddr.lines (lineKey u l)
    let rank := rankOf (s.chan c) l
    match decodeStored s c u l with
    | some ([], w) => (some (ofSymbols (w.drop 16)), s)
    | some (p :: ps, w) => (some (ofSymbols (w.drop 16)), lineCorrected c u l src rank (p :: ps) v s)
    | none => (none, lineLost u l src rank v s)

/-! ### The write queue (R386, R389) -/

/-- Perform every queued write of a subchannel, oldest first. -/
def performQueue (u : Nat) (s : State) : State :=
  let s := (s.sub u).queue.foldl (fun a e => storeLine u e.1 e.2 a) s
  s.modSub u fun x => { x with queue := [] }

/-- R386: place a line in the write queue; past 64 entries the oldest is performed (R393). -/
def enqueue (u l : Nat) (data : Nat) (s : State) : State :=
  let s := s.modSub u fun x => { x with queue := x.queue ++ [(l, lineEncode data)] }
  match (s.sub u).queue with
  | [] => s
  | e :: t => if 64 < t.length + 1 then storeLine u e.1 e.2 (s.modSub u fun x => { x with queue := t }) else s

/-! ### Activate counting (R401, R402) -/

/-- R401: the smallest count of a table. -/
def smallest (t : List (Nat × Nat)) : Nat := t.foldl (fun a e => min a e.2) (match t with
  | [] => 0
  | e :: _ => e.2)

/-- R401: an activate of a row in a bank's table of 16. -/
def countRow (row : Nat) (t : List (Nat × Nat)) : List (Nat × Nat) :=
  match t.find? (fun e => e.1 = row) with
  | some e => t.map fun f => if f.1 = row then (row, e.2 + 1) else f
  | none =>
    if t.length < 16 then t ++ [(row, 1)]
    else
      let i := t.findIdx fun e => e.2 = smallest t
      t.set i (row, smallest t + 1)

/-- R402: the rows that a neighbour refresh of row `r` activates; none where RFMsb does it. -/
def neighbours (x : Chan) (r : Nat) : List Nat :=
  if x.rfmEn then [] else
    (if 2 ≤ r then [r - 2] else []) ++ (if 1 ≤ r then [r - 1] else []) ++ [r + 1, r + 2].filter (· < 2 ^ 16)

/-- R402: the lowest row of a table whose count has reached `n`. -/
def lowestHit (n : Nat) (t : List (Nat × Nat)) : Option Nat :=
  (t.filter fun e => n ≤ e.2).foldl (fun a e => match a with
    | none => some e.1
    | some r => some (min r e.1)) none

/-- R402: the neighbour refreshes that a bank's table asks for, the lowest row first: their number, and the table. Their own
activates count too (R401); each refresh takes at least 512 from the table and adds at most 4, so `fuel` bounds them. -/
def serveHits (x : Chan) : Nat → List (Nat × Nat) → Nat × List (Nat × Nat)
  | 0, t => (0, t)
  | fuel + 1, t =>
    match lowestHit x.actThresh t with
    | none => (0, t)
    | some r =>
      let t := (neighbours x r).foldl (fun t m => countRow m t) t
      let (k, t) := serveHits x fuel (t.map fun e => if e.1 = r then (r, 0) else e)
      (k + 1, t)

/-- R401, R402: line `L` of a subchannel is activated. -/
def activate (c u l : Nat) (s : State) : State :=
  let x := s.chan c
  let b := bankOf x l
  let (k, t) := serveHits x 4096 (countRow (rowOf x l) (tget [] (s.sub u).rows b))
  let s := s.modSub u fun y => { y with rows := tset [] y.rows b t, actHits := satAdd 16 y.actHits k }
  if k = 0 then s else subCause u scActTrig s

/-! ### Requests (R377, R386 to R390, R403) -/

/-- The lines of a request within its 256-byte block, as (subchannel, L). -/
def linesOf (c a size : Nat) : List (Nat × Nat) :=
  (List.range ((a + size - 1) / 64 - a / 64 + 1)).map fun i => (2 * c + (a / 64 + i) % 2, (a / 64 + i) / 2)

/-- R30, R393: a request that came to its port before the channel began to drain, which completes. -/
def pastFence (s : State) (r : Req) : Bool := s.noc.waiting.any fun e => answers ⟨r.src, r.tag, 0, 0, []⟩ e.1

/-- Why a channel does not serve a request: its response code (R29, R248, R307, R377, R388, R390, R403). -/
def dramRefusal (r : Req) (s : State) : Option Nat :=
  if r.size = 0 ∨ askew r ∨ r.addr / 256 ≠ (r.addr + r.size - 1) / 256 then some rDecode else
  match dramTarget s r.addr with
  | none => some rDecode
  | some (c, a) =>
    if s.dev.mode = .hold ∧ r.src.cls ≠ 0 ∧ r.src.cls ≠ 1 ∧ r.src.cls ≠ 7 then some rOff
    else if ((s.chan c).state ≠ .ready ∧ !((s.chan c).state = .draining ∧ pastFence s r)) ∨ !s.dev.ready.current ∨ !s.dev.ready.sorrel then some rOff
    else if (linesOf c a r.size).any (fun e => (s.sub e.1).frozen) then some rFrozen
    else none

/-- The upsets and activates that precede a request; its channel leaves precharge power-down (R395). -/
def dramArrive (c : Nat) (ls : List (Nat × Nat)) (upset : List (Nat × BitVec 640)) (acts : Bool) (s : State) : State :=
  let s := s.modChan c fun x => { x with powerDown := false }
  let s := upset.foldl (fun a e => match ls[e.1]? with
    | some (u, l) => upsetLine u l e.2 a
    | none => a) s
  if acts then
    ((ls.map (·.1)).eraseDups).foldl (fun a u => match ls.find? (fun e => e.1 = u) with
      | some e => activate c e.1 e.2 a
      | none => a) s
  else s

/-- Read lines in turn until one is lost. -/
def readLines (c src : Nat) : List (Nat × Nat) → State → Option (List Nat) × State
  | [], s => (some [], s)
  | e :: t, s =>
    match readLine c e.1 e.2 src s with
    | (none, s) => (none, s)
    | (some d, s) =>
      match readLines c src t s with
      | (none, s) => (none, s)
      | (some ds, s) => (some (d :: ds), s)

/-- A read at its channel: its response code and data. -/
def dramReadAt (r : Req) (upset : List (Nat × BitVec 640)) (acts : Bool) (s : State) : (Nat × List Byte) × State :=
  match dramRefusal r s, dramTarget s r.addr with
  | some code, _ => ((code, []), s)
  | none, none => ((rDecode, []), s)
  | none, some (c, a) =>
    let ls := linesOf c a r.size
    match readLines c 0 ls (dramArrive c ls upset acts s) with
    | (none, s) => ((rFrozen, []), s)
    | (some ds, s) => ((rOk, ((ds.flatMap (leBytes 64)).drop (a % 64)).take r.size), s)

/-- The bytes a write gives line `i` of its lines: (covers the whole line, merged data). -/
def writeByte (r : Req) (a i j : Nat) : Option Byte :=
  let at_ := 64 * (a / 64 + i) + j
  if a ≤ at_ ∧ at_ < a + r.size ∧ bit r.enables (at_ - a) then some (lget 0 r.data (at_ - a)) else none
def wholeLine (r : Req) (a i : Nat) : Bool := (List.range 64).all fun j => (writeByte r a i j).isSome
def mergeLine (r : Req) (a i : Nat) (old : Nat) : Nat :=
  ofLe ((List.range 64).map fun j => (writeByte r a i j).getD (BitVec.ofNat 8 (old / 256 ^ j)))

/-- R387: the old data of every line of a write: every partial line is decoded first, unless its subchannel has frozen by
then; whole lines are not read. -/
def readPartial (c : Nat) (r : Req) (a : Nat) : Nat → List (Nat × Nat) → State → Option (List Nat) × State
  | _, [], s => (some [], s)
  | i, e :: t, s =>
    let (d, s) := if wholeLine r a i then (some 0, s) else if (s.sub e.1).frozen then (none, s) else readLine c e.1 e.2 1 s
    let (ds, s) := readPartial c r a (i + 1) t s
    match d, ds with
    | some d, some ds => (some (d :: ds), s)
    | _, _ => (none, s)

/-- Place every line of a write in its write queue. -/
def writeLines (r : Req) (a : Nat) : Nat → List ((Nat × Nat) × Nat) → State → State
  | _, [], s => s
  | i, e :: t, s => writeLines r a (i + 1) t (enqueue e.1.1 e.1.2 (mergeLine r a i e.2) s)

/-- A write at its channel: its response code. -/
def dramWriteAt (r : Req) (upset : List (Nat × BitVec 640)) (acts : Bool) (s : State) : Nat × State :=
  match dramRefusal r s, dramTarget s r.addr with
  | some code, _ => (code, s)
  | none, none => (rDecode, s)
  | none, some (c, a) =>
    let ls := linesOf c a r.size
    match readPartial c r a 0 ls (dramArrive c ls upset acts s) with
    | (none, s) => (rFrozen, s)
    | (some ds, s) => (rOk, writeLines r a 0 (ls.zip ds) s)

/-- R386: a read reaches its channel. -/
def execDramRead (r : Req) (upset : List (Nat × BitVec 640)) (acts : Bool) (s : State) : Host.Outcome State Fault Refusal :=
  effect (fun s =>
    let x := dramReadAt r upset acts s
    answer ⟨r.src, r.tag, x.1.1, 0, x.1.2⟩ x.2) s

/-- R387: a write reaches its channel. -/
def execDramWrite (r : Req) (upset : List (Nat × BitVec 640)) (acts : Bool) (s : State) : Host.Outcome State Fault Refusal :=
  effect (fun s =>
    let x := dramWriteAt r upset acts s
    answer ⟨r.src, r.tag, x.1, 0, []⟩ x.2) s

/-- The DRAM of a channel is powered and takes commands. -/
def chanPowered (x : Chan) : Bool := x.state ≠ .off && x.state ≠ .waitGrant && x.state ≠ .selfRefresh

/-- R389: ALERT_n: both subchannels freeze. -/
def execDramCaParityAlert (c : Nat) (s : State) : Host.Outcome State Fault Refusal :=
  effect (when (c < 8 && chanPowered (s.chan c)) fun s =>
    let s := freezeSub (2 * c) .caParity (subCause (2 * c) scCaParity s)
    freezeSub (2 * c + 1) .caParity (subCause (2 * c + 1) scCaParity s)) s

/-- R374: a refresh of a rank is due: sent, or postponed while traffic is pending, at most four times. -/
def execDramRefresh (c : Nat) (hot postpone : Bool) (s : State) : Host.Outcome State Fault Refusal :=
  effect (when (c < 8 && chanPowered (s.chan c)) fun s => s.modChan c fun x =>
    if postpone ∧ x.postponed < 4 then { x with hot, postponed := x.postponed + 1 }
    else { x with hot, postponed := 0, powerDown := false }) s

/-- R401: the tables are cleared every 32 ms. -/
def execDramActWindowClear (s : State) : Host.Outcome State Fault Refusal :=
  effect (fun s => { s with ddr := { s.ddr with subs := tmap {} (fun _ u => { u with rows := [] }) s.ddr.subs } }) s

/-- R395: 64 idle DRAM cycles on a READY channel. -/
def execPrechargePowerDown (c : Nat) (s : State) : Host.Outcome State Fault Refusal :=
  effect (when (c < 8 && (s.chan c).state = .ready) fun s => s.modChan c fun x => { x with powerDown := true }) s

/-! ### Bulk data that Sorrel, the span pager and the engines' loads move (log 50) -/

/-- The byte a device address reads as, without a request of its own; 0 where nothing can be read. -/
def peekByte (s : State) (addr : Nat) : Byte :=
  match dramTarget s addr with
  | none => 0
  | some (c, a) =>
    let u := subOf c a
    let l := a / 128
    let d := match queued (s.sub u) l with
      | some v => lineData v
      | none => match decodeStored s c u l with
        | some (_, w) => ofSymbols (w.drop 16)
        | none => 0
    BitVec.ofNat 8 (d / 256 ^ (a % 64))

/-- Write one byte at a device address, through the write queue. -/
def pokeByte (addr : Nat) (b : Byte) (s : State) : State :=
  match dramTarget s addr with
  | none => s
  | some (c, a) =>
    let u := subOf c a
    let l := a / 128
    let old := ofLe ((List.range 64).map fun j => peekByte s (addr - a % 64 + j))
    enqueue u l (old - bits old (8 * (a % 64)) 8 * 256 ^ (a % 64) + b.toNat * 256 ^ (a % 64)) s

/-- Write bytes from a device address on. -/
def pokeBytes (addr : Nat) : List Byte → State → State
  | [], s => s
  | b :: t, s => pokeBytes (addr + 1) t (pokeByte addr b s)

/-- Copy `n` bytes. -/
def copyBytes (src dst n : Nat) (s : State) : State := pokeBytes dst ((List.range n).map fun i => peekByte s (src + i)) s

/-- R421, R621: an access that Sorrel makes for a mailbox, or the pager for itself, over a range of DRAM: the response
code of its first refusal, or OK. -/
def rangeAccess (cls : Nat) (rd wr : Bool) (addr len : Nat) (s : State) : Nat × State :=
  if len = 0 then (rOk, s) else
  let (ok, s) := rightsJudge cls 0 rd wr addr (len - 1) s
  if !ok then (rRights, recordViolation cls 0 wr addr s)
  else if (dramTarget s addr).isNone || (dramTarget s (addr + len - 1)).isNone then (rDecode, s)
  else if !(channelsOf s addr len).all (fun c => s.dev.ready.ddrCh.getLsbD c) then
    (if (channelsOf s addr len).any (fun c => (s.sub (2 * c)).frozen || (s.sub (2 * c + 1)).frozen) then rFrozen else rOff, s)
  else (rOk, s)

/-! ### Channel states (R393 to R399) -/

/-- The waiting commands `op` on object `obj` whose argument satisfies `p` are finally answered. -/
def finishArg (op obj : Nat) (p : Nat → Bool) (status : Nat) (data : List Byte) (s : State) : State :=
  finishIf (fun t => t.opcode = op && t.obj = obj && p t.arg) (fun _ => status) (fun _ => false) data s

/-- R404: STATE as a number. -/
def chState : ChState → Nat
  | .off => 0 | .waitGrant => 1 | .init => 2 | .sweep => 3 | .filling => 4 | .ready => 5 | .selfRefresh => 6 | .draining => 7

/-- R419: a channel has reached READY (1) or OFF (0): the commands that asked for it are answered. -/
def chanReached (c want : Nat) (s : State) : State :=
  finishArg 0x0901 c (· = want) stOk (leBytes 1 (chState (s.chan c).state)) s

/-- R225, R663: a later command undoes what earlier ones asked for. -/
def chanUndone (c want : Nat) (s : State) : State :=
  finishArg 0x0901 c (· = want) stWrong (leBytes 1 (chState (s.chan c).state)) s

/-- R393, R392: the credits have come: INIT. -/
def chanGranted (c : Nat) (s : State) : State := s.modChan c fun x => { x with state := .init }

/-- R393: an enable. -/
def chanEnable (c : Nat) (s : State) : State :=
  let x := s.chan c
  match x.state with
  | .off =>
    if s.sec.scm.keyReady then startChannel c s
    else if s.sec.scm.keyFail then s
    else s.modChan c fun x => { x with pendingEnable := true }
  | .draining => s.modChan c fun x => { x with pendingEnable := true }
  | .selfRefresh => if x.disablePending then chanUndone c 0 (s.modChan c fun x => { x with disablePending := false }) else s
  | _ => s

/-- R393: a disable. -/
def chanDisable (c : Nat) (s : State) : State :=
  let s := chanUndone c 1 s
  let s := finish 0x0904 c stWrong [] s
  let s := s.modChan c fun x => { x with sweep := none }
  match (s.chan c).state with
  | .off => s.modChan c fun x => { x with pendingEnable := false }
  | .draining => s.modChan c fun x => { x with pendingEnable := false }
  | .waitGrant => withdraw kChan c (s.modChan c fun x => { x with state := .off })
  | .selfRefresh => s.modChan c fun x => { x with disablePending := true }
  | _ => settle (s.modChan c fun x => { x with state := .draining })

/-- R393: INIT completes. -/
def execDdrInitDone (c : Nat) (s : State) : Host.Outcome State Fault Refusal :=
  effect (when (c < 8 && (s.chan c).state = .init) fun s => s.modChan c fun x =>
    { x with state := if x.sweep.isSome then .sweep else .filling }) s

/-- The channel gives back its credits and stands OFF; an enable that waited starts it again (R393). -/
def chanOff (c : Nat) (s : State) : State :=
  let s := giveBackAll kChan c (s.modChan c fun x => { x with state := .off, powerDown := false })
  let s := chanReached c 0 s
  if (s.chan c).pendingEnable then startChannel c s else s

/-- R399, R419: the sweep ends: `found` gives the centred delays as (offset, value), `width` and `nibble` the smallest
window; with `failed` some nibble has no passing setting, and the channel is left OFF. -/
def execDdrSweepDone (c : Nat) (failed : Bool) (found : List (Nat × Nat)) (width nibble : Nat) (s : State) :
    Host.Outcome State Fault Refusal :=
  effect (when (c < 8 && (s.chan c).state = .sweep) fun s =>
    if failed then
      chanOff c (finish 0x0904 c stTimeout [] (chanUndone c 1 (s.modChan c fun x => { x with sweep := none })))
    else s.modChan c fun x =>
      { x with
        state := .filling, sweepWidth := width % 2 ^ 16, sweepNibble := nibble % 10
        training := if x.sweep = some true then found.foldl (fun t e => tset 0 t e.1 (e.2 &&& trainingMask e.1)) x.training
          else x.boardTraining }) s

/-- R393, R396: the fill completes: the channel is READY. -/
def execDdrFillDone (c : Nat) (s : State) : Host.Outcome State Fault Refusal :=
  effect (when (c < 8 && (s.chan c).state = .filling) fun s =>
    let s := fillSub (2 * c + 1) (fillSub (2 * c) s)
    let s := s.modChan c fun x => { x with state := .ready, sweep := none, nextLine := 0 }
    let x := s.chan c
    let s := finish 0x0904 c stOk (leBytes 2 x.sweepWidth ++ leBytes 1 x.sweepNibble) s
    settle (chanReached c 1 s)) s

/-- R393: a request waits at the channel's port. -/
def chanBusy (s : State) (c : Nat) : Bool := s.noc.waiting.any fun e => portId e.1.destPier e.1.destPort = dramPort c

/-- R393: a draining channel holds no request (R326: none has been delivered and waits): its write queues are performed (a frozen subchannel discards its own). -/
def execDdrDrainDone (c : Nat) (s : State) : Host.Outcome State Fault Refusal :=
  effect (when (c < 8 && (s.chan c).state = .draining && !chanBusy s c) fun s =>
    let s := forEach [2 * c, 2 * c + 1] (fun u a =>
      if (a.sub u).frozen then a.modSub u fun x => { x with queue := [] } else performQueue u a) s
    settle (chanOff c s)) s

/-- R397: the channel has performed its queue and stands in self-refresh; the start of COAST goes on (R526). -/
def execDdrSelfRefreshEntered (c : Nat) (s : State) : Host.Outcome State Fault Refusal :=
  effect (when (c < 8 && (s.chan c).state = .ready && !s.dev.ready.clock) fun s =>
    let s := forEach [2 * c, 2 * c + 1] (fun u a => if (a.sub u).frozen then a else performQueue u a) s
    coastProgress (settle (s.modChan c fun x => { x with state := .selfRefresh, powerDown := false }))) s

/-- R391: the unfreeze of a subchannel completes. -/
def execDdrUnfreezeDone (u : Nat) (s : State) : Host.Outcome State Fault Refusal :=
  effect (when (u < 16) fun s =>
    match (s.sub u).unfreezing with
    | none => s
    | some mode =>
      let s := if mode = 2 then fillSub u (s.modSub u fun x => { x with queue := [] })
        else performQueue u (if mode = 1 then storeLine u (s.sub u).failLine 0 s else s)
      let s := s.modSub u fun x => { x with frozen := false, cause := .none, unfreezing := none }
      finish 0x0903 u stOk [] (settle s)) s

/-! ### The scrubber (R400) -/

/-- R400: modes in which the scrubbers walk. -/
def scrubMode (s : State) : Bool := s.dev.mode = .run || s.dev.mode = .safe || s.dev.mode = .trim

/-- R400: the lines of a channel. -/
def chanLines (x : Chan) : Nat := capGiB x * 2 ^ 24

/-- R400: the gap ends, and the next burst asks for its credit. -/
def execDdrScrubGapEnd (c : Nat) (s : State) : Host.Outcome State Fault Refusal :=
  effect (when (c < 8 && scrubMode s && (s.chan c).state = .ready && (s.chan c).scrubEn && !(s.chan c).burst
      && !(s.chan c).waitGrant) fun s =>
    request kScrub (2 + c) 1 (s.modChan c fun x => { x with waitGrant := true })) s

/-- R400: the burst's credit has come. -/
def chanBurst (c : Nat) (s : State) : State :=
  s.modChan c fun x => { x with waitGrant := false, burst := true, burstLeft := 4096 }

/-- R400: the walk moves to the next line; past the last the pass is complete, and the device counts clear (R383). -/
def scrubAdvance (c : Nat) (s : State) : State :=
  let n := (s.chan c).nextLine + 1
  if n < chanLines (s.chan c) then s.modChan c fun x => { x with nextLine := n }
  else
    let s := s.modChan c fun x => { x with nextLine := 0, passes := (x.passes + 1) % 2 ^ 16 }
    forEach [2 * c, 2 * c + 1] (fun u a => a.modSub u fun x => { x with chipCnt := [] }) s

/-- R400: a corrected line is written back unless a write to it waits. -/
def scrubLine (c u l : Nat) (s : State) : State :=
  if (queued (s.sub u) l).isSome then s else
  match readLine c u l 2 s with
  | (some d, s) => storeLine u l (lineEncode d) s
  | (none, s) => s

/-- The burst ends and its credit returns. -/
def endBurst (c : Nat) (s : State) : State :=
  giveBackAll kScrub (2 + c) (s.modChan c fun x => { x with burst := false, burstLeft := 0 })

/-- R400: the scrubber takes the next line of its burst of 4,096, reads it or skips it (log 161); a burst that the mode or the channel stops ends (a
SCRUB_EN cleared in a burst waits for its end, R663). -/
def execDdrScrubRead (c : Nat) (upset : BitVec 640) (acts : Bool) (s : State) : Host.Outcome State Fault Refusal :=
  effect (when (c < 8 && (s.chan c).burst) fun s =>
    if !scrubMode s || (s.chan c).state ≠ .ready then endBurst c s else
    let n := (s.chan c).nextLine
    let u := 2 * c + n % 2
    let s := s.modChan c fun x => { x with burstLeft := x.burstLeft - 1 }
    let s := if (s.sub u).frozen then s.modChan c fun x => { x with skipped := true }
      else
        let s := upsetLine u (n / 2) upset s
        let s := if acts then activate c u (n / 2) s else s
        scrubLine c u (n / 2) (s.modChan c fun x => { x with powerDown := false })
    let s := scrubAdvance c s
    if (s.chan c).burstLeft = 0 then endBurst c s else s) s

/-! ### Registers with rows of their own -/

/-- R407: CLR_COUNTS. -/
def clearChanCounts (c : Nat) (s : State) : State :=
  forEach [2 * c, 2 * c + 1] (fun u a => a.modSub u fun x => { x with ce := 0, ue := 0, chipCnt := [] }) s

def execDdrClrCounts (c : Nat) (s : State) : Host.Outcome State Fault Refusal :=
  effect (when (c < 8) (clearChanCounts c)) s

/-- R412: in RUN and TRIM a rank's mark may be placed, not cleared or changed. -/
def strictMarks (s : State) : Bool := s.dev.mode = .run || s.dev.mode = .trim

/-- R412: a write of DDR_SC_MARK, each rank judged separately. -/
def writeMark (u v : Nat) (s : State) : State :=
  let strict := strictMarks s
  s.modSub u fun x =>
    let x := if strict ∧ x.mark0 ∧ (!bit v 7 ∨ bits v 0 4 ≠ x.chip0) then x
      else { x with mark0 := bit v 7, chip0 := bits v 0 4 }
    if strict ∧ x.mark1 ∧ (!bit v 15 ∨ bits v 8 4 ≠ x.chip1) then x
    else { x with mark1 := bit v 15, chip1 := bits v 8 4 }

def execDdrMarkWrite (u v : Nat) (s : State) : Host.Outcome State Fault Refusal :=
  effect (when (u < 16) (writeMark u v)) s

/-- R412. -/
def markWord (x : SubCh) : Nat := flag x.mark1 15 + field x.chip1 8 4 + flag x.mark0 7 + field x.chip0 0 4

/-- R404: CREDITS. -/
def chanCredits (s : State) (c : Nat) : Nat := heldBy s kChan c

/-! ### Commands (R419) -/

/-- 0x0901: R663, R225: OK at once in the state asked for, else PENDING. -/
def ddrChEnableCmd (c en : Nat) (s : State) : State × Reply :=
  checks [(7 < c || 1 < en || !(s.chan c).populated, stBadArg), (s.sec.scm.keyFail, stNotReady),
      (decide (s.dev.mode ≠ .safe), stWrong)]
    (fun s =>
      let st := (s.chan c).state
      let s := if en = 1 then chanEnable c s else chanDisable c s
      if (st = .ready ∧ en = 1) ∨ (st = .off ∧ en = 0) then okWith (leBytes 1 (chState st)) s
      else if en = 0 ∧ (s.chan c).state = .off then (s, .pend stOk (leBytes 1 (chState .off)))
      else (s, .wait [] c en)) s

def execDdrChEnable (q : CmdCtx) (c en : Nat) (s : State) : Host.Outcome State Fault Refusal :=
  effect (command q 0x0901 (payloadAt 2 [(0, 1, c), (1, 1, en)]) (ddrChEnableCmd (u8 c) (u8 en))) s

/-- 0x0902. -/
def ddrChStatusCmd (c : Nat) (s : State) : State × Reply :=
  checks [(decide (7 < c), stBadArg)] (fun s =>
    let a := s.sub (2 * c)
    let b := s.sub (2 * c + 1)
    okWith (payloadAt 28 [(0, 1, chState (s.chan c).state), (1, 1, b2n a.frozen + 2 * b2n b.frozen),
      (2, 1, chanCredits s c), (8, 6, a.ce), (14, 6, b.ce), (20, 2, a.ue), (22, 2, b.ue), (24, 2, markWord a),
      (26, 2, markWord b)]) s) s

def execDdrChStatus (q : CmdCtx) (c : Nat) (s : State) : Host.Outcome State Fault Refusal :=
  effect (command q 0x0902 (leBytes 1 c) (ddrChStatusCmd (u8 c))) s

/-- 0x0903. -/
def ddrUnfreezeCmd (u mode : Nat) (s : State) : State × Reply :=
  let x := s.sub u
  checks [(15 < u || 2 < mode || (decide (x.cause = .caParity) && decide (mode ≠ 2)), stBadArg),
      ((decide (s.dev.mode ≠ .safe) && decide (s.dev.mode ≠ .hold)) || !x.frozen, stWrong), (x.unfreezing.isSome, stBusy)]
    (fun s => (s.modSub u fun x => { x with unfreezing := some mode }, .wait [] u mode)) s

def execDdrUnfreeze (q : CmdCtx) (u mode : Nat) (s : State) : Host.Outcome State Fault Refusal :=
  effect (command q 0x0903 (payloadAt 2 [(0, 1, u), (1, 1, mode)]) (ddrUnfreezeCmd (u8 u) (u8 mode))) s

/-- 0x0904: an OFF channel starts, a READY one passes through its shutdown (R393), both to INIT and SWEEP. -/
def ddrSweepCmd (c keep : Nat) (s : State) : State × Reply :=
  checks [(7 < c || 1 < keep || !(s.chan c).populated, stBadArg), (s.sec.scm.keyFail, stNotReady),
      (decide (s.dev.mode ≠ .safe), stWrong),
      (decide ((s.chan c).state ≠ .off) && decide ((s.chan c).state ≠ .ready), stBusy)]
    (fun s =>
      let s := s.modChan c fun x => { x with sweep := some (decide (keep = 1)) }
      let s := if (s.chan c).state = .ready
        then settle (s.modChan c fun x => { x with state := .draining, pendingEnable := true }) else chanEnable c s
      (s, .wait [] c keep)) s

def execDdrSweep (q : CmdCtx) (c keep : Nat) (s : State) : Host.Outcome State Fault Refusal :=
  effect (command q 0x0904 (payloadAt 2 [(0, 1, c), (1, 1, keep)]) (ddrSweepCmd (u8 c) (u8 keep))) s

/-- 0x0905. -/
def ddrMarkChipCmd (u rank chip : Nat) (s : State) : State × Reply :=
  let x := s.sub u
  let new := if chip = 0xFF then none else some chip
  checks [(15 < u || decide ((s.chan (u / 2)).ranks ≤ rank) || (9 < chip && chip ≠ 0xFF), stBadArg),
      (strictMarks s && (markOf x rank).isSome && decide (markOf x rank ≠ new), stWrong)]
    (fun s => ok (s.modSub u fun x =>
      if rank = 0 then { x with mark0 := new.isSome, chip0 := new.getD x.chip0 }
      else { x with mark1 := new.isSome, chip1 := new.getD x.chip1 })) s

def execDdrMarkChip (q : CmdCtx) (u rank chip : Nat) (s : State) : Host.Outcome State Fault Refusal :=
  effect (command q 0x0905 (payloadAt 3 [(0, 1, u), (1, 1, rank), (2, 1, chip)])
    (ddrMarkChipCmd (u8 u) (u8 rank) (u8 chip))) s

end Sys2Proof.Machine
end

