-- ==== Sys2Proof/Machine/Scratch.lean ====
section
/-! DEFINITION. The scratch banks (chapter 9): units with their check code and poison, ownership and handover, clears and
wipes, the scrubber's walk, and the scratch commands. -/

namespace Sys2Proof.Machine

/-! ### The check code (R351) -/

/-- What the decoder makes of a stored unit. -/
inductive UnitRead where
  | clean (data : Nat)
  | fixed (data symbol : Nat)
  | lost
deriving DecidableEq, Repr

/-- R351: the position of `unitWord` as a symbol number: check symbols 32 to 35 stand first there. -/
def symbolAt (p : Nat) : Nat := if p < 4 then 32 + p else p - 4

/-- Some error of at most three symbols explains the syndromes: some three positions' locator annihilates them. -/
def withinThree (synd : List Nat) : Bool :=
  (List.range 36).any fun i => (List.range i).any fun j => (List.range j).any fun k =>
    (List.range 4).foldl (fun a n => a ^^^ gfMul (lget 0 (polyMul [gfExp i, 1] (polyMul [gfExp j, 1] [gfExp k, 1])) n)
      (lget 0 synd n)) 0 = 0

/-- R351: one symbol in error is corrected, two or three are detected; for a word four or more symbols from every code
word the outcome is left open (Config.scratchFar). -/
def decodeUnit (u : BitVec 288) : UnitRead :=
  let word := unitWord u
  let data (w : List Nat) := ofSymbols (w.drop 4)
  match rsDecode 4 word [] with
  | some ([], w) => .clean (data w)
  | some ([p], w) => .fixed (data w) (symbolAt p)
  | _ =>
    if withinThree (syndromes 4 word) then .lost else
    let n := Config.scratchFar u.toNat
    if n = 0 then .lost else if n = 1 then .clean (data word)
    else
      let p := (n - 2) % 36
      .fixed (data (word.set p (lget 0 word p ^^^ (1 + (n - 2) / 36 % 255)))) (symbolAt p)

/-! ### Causes and reports (R354, R368) -/

def spCe : Nat := 0
def spUe : Nat := 1
def spPoisonAns : Nat := 2
def spOwnRights : Nat := 3
def spHandover : Nat := 4

/-- R368, R295: set a cause of a bank's group. -/
def bankCause (b k : Nat) (s : State) : State :=
  let s := s.modSgroup (b / 8) fun x =>
    let x := if x.causes = 0 then { x with firstCause := k, firstBank := b % 8 } else x
    { x with causes := x.causes ||| BitVec.twoPow 5 k }
  if (s.sgroup (b / 8)).en.getLsbD k then raiseEvent (288 + b / 8) s else s

/-- R351: the poison flag, by majority of its copies. -/
def SUnit.poisoned (u : SUnit) : Bool :=
  decide (2 ≤ b2n (u.poison.getLsbD 0) + b2n (u.poison.getLsbD 1) + b2n (u.poison.getLsbD 2))

/-- R348: a unit's key is bank * 8192 + unit. -/
def unitAt (s : State) (key : Nat) : SUnit := tget {} s.spd.units key
def setUnit (key : Nat) (u : SUnit) (s : State) : State :=
  { s with spd := { s.spd with units := tset {} s.spd.units key u } }

/-- R365: capture an error while the log is free. -/
def logUnit (kind : Bool) (key src sym : Nat) (s : State) : State :=
  if s.spd.logValid then s else
  { s with spd := { s.spd with logValid := true, logKind := kind, logSource := src, logBank := key / 8192
                               logUnit := key % 8192, logSymbol := sym } }

/-- R354: a corrected unit. -/
def unitCorrected (key src sym : Nat) (s : State) : State :=
  let s := { s with spd := { s.spd with ce := satAdd 48 s.spd.ce 1 } }
  logUnit false key src sym (bankCause (key / 8192) spCe s)

/-- R354, R283: the map entry of the queue page that holds a newly poisoned unit. -/
def poisonPage (key : Nat) (s : State) : State :=
  if (s.bank (key / 8192)).kind = 3 then
    { s with qm := { s.qm with map := tmap {} (fun _ e =>
        if (e.whr = .scratch ∨ e.whr = .moving) ∧ e.spage = key / 128 then { e with poisoned := true } else e) s.qm.map } }
  else s

/-- Units of a scratch page. -/
def pageUnits (p : Nat) : List Nat := (List.range 128).map (128 * p + ·)

/-- R283: a page has lost its last poisoned unit. -/
def cleanPage (key : Nat) (s : State) : State :=
  if (pageUnits (key / 128)).any (fun k => (unitAt s k).poisoned) then s else
  { s with qm := { s.qm with map := tmap {} (fun _ e =>
      if (e.whr = .scratch ∨ e.whr = .moving) ∧ e.spage = key / 128 then { e with poisoned := false } else e) s.qm.map } }

/-- R354: a unit newly poisoned. -/
def unitPoisoned (key src : Nat) (s : State) : State :=
  let s := setUnit key { unitAt s key with poison := 7 } s
  let s := { s with spd := { s.spd with ue := satAdd 16 s.spd.ue 1 } }
  poisonPage key (logUnit true key src 0x3F (bankCause (key / 8192) spUe s))

/-- R352: check one unit for source `src` (0 read, 1 merge or atomic, 2 scrubber): its data, or none where POISON is due.
A read or the scrubber has a corrected unit written back later, but in HOLD contents stay as found (R361). -/
def checkUnit (key src : Nat) (s : State) : Option Nat × State :=
  let u := unitAt s key
  if u.poisoned then (none, s) else
  match decodeUnit u.symbols with
  | .clean d => (some d, s)
  | .fixed d sym =>
    let s := unitCorrected key src sym s
    let s := if src = 1 ∨ s.dev.mode = .hold then s else s.modBank (key / 8192) fun b =>
      { b with writeBacks := if b.writeBacks.contains (key % 8192) then b.writeBacks
          else b.writeBacks ++ [key % 8192] }
    (some d, s)
  | .lost => (none, unitPoisoned key src s)

/-- R352, R353, R366: store a unit; it cancels a pending write-back; a write of the whole unit clears poison and takes an
armed injection. -/
def storeUnit (key data : Nat) (whole : Bool) (s : State) : State :=
  let b := key / 8192
  let s := s.modBank b fun x => { x with writeBacks := x.writeBacks.filter (· ≠ key % 8192) }
  let v := unitEncode data
  let clears := whole && (unitAt s key).poisoned
  (fun s => if clears then cleanPage key s else s) <|
  if whole ∧ s.spd.injArm ∧ s.spd.injBank = b then
    let flips := (List.range 4).foldl (fun a q => a + (if s.spd.injFlip.getLsbD q then 255 * 256 ^ (32 + q) else 0)) 0
    setUnit key ⟨v ^^^ BitVec.ofNat 288 flips, 0⟩ { s with spd := { s.spd with injArm := false } }
  else setUnit key ⟨v, if whole then 0 else (unitAt s key).poison⟩ s

/-- Flips that have happened to a stored unit: of its symbols, and of the copies of its poison flag (bits 290 to 288). -/
def upsetUnit (key : Nat) (f : BitVec 291) (s : State) : State :=
  let u := unitAt s key
  setUnit key ⟨u.symbols ^^^ f.truncate 288, u.poison ^^^ f.extractLsb' 288 3⟩ s

/-! ### Requests (R350 to R356, R361) -/

/-- R355: a slot's rectangle holds a tile. -/
def inSlot (x : Slot) (t : Nat) : Bool :=
  x.defined && t < 96 && x.col0 ≤ t % 12 && t % 12 ≤ x.col1 && x.row0 ≤ t / 12 && t / 12 ≤ x.row1

/-- R355: the source matches the owner. -/
def ownerMatches (s : State) (b : Nat) (i : Initiator) : Bool :=
  let x := s.bank b
  if x.kind = 1 then i.cls = 0 || i.cls = 7
  else if x.kind = 2 then i.cls = 1
  else if x.kind = 3 then i.cls = 4
  else if x.kind = 4 then i.cls = 2 && i.index / 8 = x.index
  else if x.kind = 5 then i.cls = 3 && i.index = x.index
  else x.kind = 6 && i.cls = 3 && inSlot (s.slot x.index) i.index

/-- The ownership check of a request: none passes; else whether the group notes it (R355, R356, R361). -/
def ownershipRefuses (s : State) (b : Nat) (i : Initiator) (read : Bool) : Option Bool :=
  if s.dev.mode = .hold then (if read && (i.cls = 0 || i.cls = 1) then none else some false)
  else if i.cls = 1 ∨ i.cls = 6 then none
  else if (s.bank b).state ≠ .owned then some true
  else if ownerMatches s b i then none
  else some true

/-- R306, R350: the offset of a scratch address. -/
def scratchOffset (addr : Nat) : Option Nat :=
  if 0x100000000 ≤ addr ∧ addr < 0x104000000 then some (addr - 0x100000000) else none

/-- R358: a processor-class winner moves the bank's pointer past it. -/
def moveScratchPointer (b : Nat) (i : Initiator) (s : State) : State :=
  if i.cls = 1 ∨ i.cls = 2 ∨ i.cls = 3 then s.modBank b fun x => { x with pointer := sourcePort i + 1 } else s

/-- What every access passes first (R248, R307): a refusal with its response code, or the bank and first unit key. -/
def scratchEnter (r : Req) (read atomic : Bool) (s : State) : Except Nat Nat × State :=
  match scratchOffset r.addr with
  | none => (.error rDecode, s)
  | some o =>
    if r.size = 0 ∨ askew r ∨ (if atomic then o % 8 ≠ 0 ∨ r.size ≠ 8 else r.addr / 256 ≠ (r.addr + r.size - 1) / 256) then
      (.error rDecode, s)
    else if !s.dev.ready.scratch then (.error rOff, s)
    else
      let b := o / 2 ^ 18
      match ownershipRefuses s b r.src read with
      | some note => (.error rRights, if note then bankCause b spOwnRights s else s)
      | none => (.ok (o / 32), moveScratchPointer b r.src s)

/-- Check units in turn; every unit is checked before the outcome is known (R353). -/
def checkUnits (src : Nat) : List Nat → State → Option (List Nat) × State
  | [], s => (some [], s)
  | k :: t, s =>
    let (d, s) := checkUnit k src s
    let (ds, s) := checkUnits src t s
    match d, ds with
    | some d, some ds => (some (d :: ds), s)
    | _, _ => (none, s)

/-- The units of a request. -/
def unitsOf (r : Req) (first : Nat) : List Nat :=
  (List.range ((r.addr % 32 + r.size - 1) / 32 + 1)).map (first + ·)

def applyUpsets (ks : List Nat) (upset : List (Nat × BitVec 291)) (s : State) : State :=
  upset.foldl (fun a e => match ks[e.1]? with
    | some k => upsetUnit k e.2 a
    | none => a) s

/-- A scratch read: its response code and data. -/
def scratchReadAt (r : Req) (upset : List (Nat × BitVec 291)) (s : State) : (Nat × List Byte) × State :=
  match scratchEnter r true false s with
  | (.error c, s) => ((c, []), s)
  | (.ok k, s) =>
    match checkUnits 0 (unitsOf r k) (applyUpsets (unitsOf r k) upset s) with
    | (none, s) => ((rPoison, []), bankCause (k / 8192) spPoisonAns s)
    | (some ds, s) => ((rOk, ((ds.flatMap (leBytes 32)).drop (r.addr % 32)).take r.size), s)

/-- The byte a write gives position `j` of its unit `i`. -/
def unitByte (r : Req) (i j : Nat) : Option Byte :=
  let p := 32 * i + j
  let o := r.addr % 32
  if o ≤ p ∧ p < o + r.size ∧ bit r.enables (p - o) then some (lget 0 r.data (p - o)) else none
def wholeUnit (r : Req) (i : Nat) : Bool := (List.range 32).all fun j => (unitByte r i j).isSome
def mergeUnit (r : Req) (i old : Nat) : Nat :=
  ofLe ((List.range 32).map fun j => (unitByte r i j).getD (BitVec.ofNat 8 (old / 256 ^ j)))

/-- R352: a whole unit is stored unread; a partial one is checked first. -/
def checkPartial (r : Req) : Nat → List Nat → State → Option (List Nat) × State
  | _, [], s => (some [], s)
  | i, k :: t, s =>
    let (d, s) := if wholeUnit r i then (some 0, s) else checkUnit k 1 s
    let (ds, s) := checkPartial r (i + 1) t s
    match d, ds with
    | some d, some ds => (some (d :: ds), s)
    | _, _ => (none, s)
def storeUnits (r : Req) : Nat → List (Nat × Nat) → State → State
  | _, [], s => s
  | i, e :: t, s => storeUnits r (i + 1) t (storeUnit e.1 (mergeUnit r i e.2) (wholeUnit r i) s)

/-- A scratch write: its response code. -/
def scratchWriteAt (r : Req) (upset : List (Nat × BitVec 291)) (s : State) : Nat × State :=
  match scratchEnter r false false s with
  | (.error c, s) => (c, s)
  | (.ok k, s) =>
    let ks := unitsOf r k
    match checkPartial r 0 ks (applyUpsets ks upset s) with
    | (none, s) => (rPoison, bankCause (k / 8192) spPoisonAns s)
    | (some ds, s) => (rOk, storeUnits r 0 (ks.zip ds) s)

/-- R249, R352: an atomic: its response code and the old value. -/
def scratchAtomicAt (r : Req) (add : Bool) (upset : List (Nat × BitVec 291)) (s : State) : (Nat × List Byte) × State :=
  match scratchEnter r false true s with
  | (.error c, s) => ((c, []), s)
  | (.ok k, s) =>
    match checkUnit k 1 (applyUpsets [k] upset s) with
    | (none, s) => ((rPoison, []), bankCause (k / 8192) spPoisonAns s)
    | (some d, s) =>
      let sh := 2 ^ (8 * (r.addr % 32))
      let old := d / sh % 2 ^ 64
      let new := if add then (old + ofLe (r.data.take 8)) % 2 ^ 64 else ofLe (r.data.take 8)
      ((rOk, leBytes 8 old), storeUnit k (d - old * sh + new * sh) false s)

/-! ### The choice among waiting requests (R358) -/

/-- R358: the classes of the processor class: Sorrel, the engines and the fabric ports. -/
def processorClass (cls : Nat) : Bool := cls = 1 || cls = 2 || cls = 3

/-- The requests that wait at bank `b`, oldest first, with their cycles of arrival. -/
def waitingAt (s : State) (b : Nat) : List (Packet × Nat) :=
  s.noc.waiting.filter fun e => (scratchOffset e.1.addr.toNat).any (· / 2 ^ 18 = b)
    && decide (e.1.opcode ≠ 8) && decide (e.1.opcode ≠ 9)

/-- R358: how far the source port of a waiting request lies past the bank's pointer. -/
def pastPointer (x : Bank) (e : Packet × Nat) : Nat := (portId e.1.srcPier e.1.srcPort + 960 - x.pointer % 960) % 960

/-- R358: the request that bank `b` grants: a DMA-class one that has waited 256 bank cycles (R349: a bank cycle is two NoC
cycles), else the processor-class one next after the pointer, else the oldest. -/
def bankWinner (s : State) (b : Nat) : Option (Packet × Nat) :=
  let w := waitingAt s b
  match w.find? fun e => !processorClass e.1.srcClass && decide (256 ≤ (s.noc.cycle - e.2) / 2) with
  | some e => some e
  | none =>
    match w.filter fun e => processorClass e.1.srcClass with
    | e :: l => some (l.foldl (fun a e => if pastPointer (s.bank b) e < pastPointer (s.bank b) a then e else a) e)
    | [] => w.head?

/-- R358: the bank may serve a request: it is the winner, or it did not come through the network (log 160). -/
def bankGrants (s : State) (r : Req) : Bool :=
  let a : Answer := ⟨r.src, r.tag, 0, 0, []⟩
  match scratchOffset r.addr with
  | none => true
  | some o =>
    !(waitingAt s (o / 2 ^ 18)).any (fun e => answers a e.1) || (bankWinner s (o / 2 ^ 18)).any fun e => answers a e.1

def execScratchRead (r : Req) (upset : List (Nat × BitVec 291)) (s : State) : Host.Outcome State Fault Refusal :=
  effect (when (bankGrants s r) fun s =>
    let x := scratchReadAt r upset s
    answer ⟨r.src, r.tag, x.1.1, 0, x.1.2⟩ x.2) s

def execScratchWrite (r : Req) (upset : List (Nat × BitVec 291)) (s : State) : Host.Outcome State Fault Refusal :=
  effect (when (bankGrants s r) fun s =>
    let x := scratchWriteAt r upset s
    answer ⟨r.src, r.tag, x.1, 0, []⟩ x.2) s

def execScratchAtomicAdd (r : Req) (upset : List (Nat × BitVec 291)) (s : State) : Host.Outcome State Fault Refusal :=
  effect (when (bankGrants s r) fun s =>
    let x := scratchAtomicAt r true upset s
    answer ⟨r.src, r.tag, x.1.1, 0, x.1.2⟩ x.2) s

def execScratchAtomicSwap (r : Req) (upset : List (Nat × BitVec 291)) (s : State) : Host.Outcome State Fault Refusal :=
  effect (when (bankGrants s r) fun s =>
    let x := scratchAtomicAt r false upset s
    answer ⟨r.src, r.tag, x.1.1, 0, x.1.2⟩ x.2) s

/-- R352: the bank is idle, and its oldest pending write-back is performed. -/
def execScratchWriteback (b : Nat) (s : State) : Host.Outcome State Fault Refusal :=
  effect (when (b < 256 && decide (s.dev.mode ≠ .hold)) fun s =>
    match (s.bank b).writeBacks with
    | [] => s
    | u :: t =>
      let s := s.modBank b fun x => { x with writeBacks := t }
      match decodeUnit (unitAt s (b * 8192 + u)).symbols with
      | .fixed d _ => setUnit (b * 8192 + u) { unitAt s (b * 8192 + u) with symbols := unitEncode d } s
      | _ => s) s

/-! ### Ownership (R356) -/

/-- R290: pages in the pool. -/
def poolPages (s : State) : Nat := 64 * ((List.range 256).filter fun b => s.qm.banks.getLsbD b).length

/-- R356: a transition into OWNED: the new owner is installed, HANDOVER set, and the waiting commands answered. -/
def installOwner (b : Nat) (s : State) : State :=
  let x := s.bank b
  let s := s.modBank b fun x => { x with state := .owned, kind := x.newKind, index := x.newIndex }
  let bitb := BitVec.twoPow 256 b
  let s := { s with qm := { s.qm with
    banks := if x.newKind = 3 then s.qm.banks ||| bitb else s.qm.banks &&& ~~~ bitb
    returning := s.qm.returning &&& ~~~ bitb } }
  let s := settle (bankCause b spHandover s)
  let s := finish 0x0801 b stOk (leBytes 2 (poolPages s)) s
  finish 0x0803 b stOk [] (finish 0x0802 b stOk [] s)

/-- R356, R367: an owner write by Sorrel; `qm` says commands 0x0801 and 0x0802 (and R279) make it. -/
def ownerWrite (b kind index : Nat) (wipe qm : Bool) (s : State) : State :=
  let x := s.bank b
  if x.state ≠ .owned ∨ (!qm ∧ (kind = 3 ∨ x.kind = 3)) then s.modBank b fun x => { x with refused := true }
  else if x.kind = kind ∧ x.index = index ∧ !wipe then s.modBank b fun x => { x with wipe := false }
  else s.modBank b fun x => { x with state := .draining, wipe, newKind := kind, newIndex := index }

def execScratchOwnerWrite (b kind index : Nat) (wipe : Bool) (s : State) : Host.Outcome State Fault Refusal :=
  effect (when (b < 256) fun s => ownerWrite b (kind % 16) (index % 128) wipe false s) s

/-- R356: the old owner's accepted accesses are complete. -/
def execScratchDrainDone (b : Nat) (s : State) : Host.Outcome State Fault Refusal :=
  effect (when (b < 256 && decide ((s.bank b).state = .draining)) fun s =>
    if (s.bank b).wipe then request kWipe b 2 (s.modBank b fun x => { x with state := .waitGrant })
    else installOwner b s) s

/-- R357: clear banks `lo` to `lo + n - 1`: zero data, valid check symbols, poison clear. -/
def clearBanks (lo n : Nat) (s : State) : State :=
  { s with spd := { s.spd with
    units := tdrop {} (fun k => lo ≤ k / 8192 && k / 8192 < lo + n) s.spd.units
    banks := tmap {} (fun b x => if lo ≤ b ∧ b < lo + n then { x with writeBacks := [] } else x) s.spd.banks } }

/-- The grants of R357. -/
def bankGranted (b : Nat) (s : State) : State := s.modBank b fun x => { x with state := .wiping }
def groupGranted (g : Nat) (s : State) : State := s.modSgroup g fun x => { x with state := .clearing }

def execScratchWipeDone (b : Nat) (s : State) : Host.Outcome State Fault Refusal :=
  effect (when (b < 256 && decide ((s.bank b).state = .wiping)) fun s =>
    installOwner b (giveBackAll kWipe b (clearBanks b 1 s))) s

def execScratchGroupClearDone (g : Nat) (s : State) : Host.Outcome State Fault Refusal :=
  effect (when (g < 32 && decide ((s.sgroup g).state = .clearing)) fun s =>
    let s := giveBackAll kGroup g (clearBanks (8 * g) 8 s)
    settle (nextGroupClear (s.modSgroup g fun x => { x with state := .on }))) s

/-! ### The scrubber (R360) -/

/-- R360: the gap ends and the next burst asks for its credit. -/
def execScratchScrubGapEnd (s : State) : Host.Outcome State Fault Refusal :=
  effect (when (scrubMode s && s.spd.scrubEn && !s.spd.burst && !s.spd.waitGrant) fun s =>
    request kScrub 1 1 { s with spd := { s.spd with waitGrant := true } }) s

def scratchBurst (s : State) : State := { s with spd := { s.spd with waitGrant := false, burst := true, nextUnit := 0 } }

/-- The burst ends. `passed` says that its group has been walked: the next is due, and after group 31 a pass is over. -/
def endScratchBurst (passed : Bool) (s : State) : State :=
  let s := giveBackAll kScrub 1 { s with spd := { s.spd with burst := false } }
  if passed then { s with spd := { s.spd with
      group := (s.spd.group + 1) % 32, passes := if s.spd.group = 31 then (s.spd.passes + 1) % 2 ^ 16 else s.spd.passes } }
  else s

/-- R360: one unit of each of the group's eight banks is read; `upset` gives flips by bank of the group. -/
def execScratchScrubRead (upset : List (Nat × BitVec 291)) (s : State) : Host.Outcome State Fault Refusal :=
  effect (when s.spd.burst fun s =>
    if !scrubMode s then endScratchBurst false s else
    let u := s.spd.nextUnit
    let s := forEach (List.range 8) (fun i a =>
      let b := 8 * a.spd.group + i
      if (a.bank b).state ≠ .owned then { a with spd := { a.spd with skipped := true } }
      else
        let (d, a) := checkUnit (b * 8192 + u) 2 (applyUpsets [b * 8192 + u]
          ((upset.filter (fun e => e.1 = i)).map fun e => (0, e.2)) a)
        if d.isSome then a else bankCause b spPoisonAns a) s
    if u < 8191 then { s with spd := { s.spd with nextUnit := u + 1 } } else endScratchBurst true s) s

/-- R362. -/
def clearSpdCounts (s : State) : State := { s with spd := { s.spd with ce := 0, ue := 0 } }
def execSpdClrCounts (s : State) : Host.Outcome State Fault Refusal := effect clearSpdCounts s

/-! ### Commands (R371) -/

/-- R355, R371: an index is in the range of its kind. -/
def ownerOk (kind index : Nat) : Bool := kind ≤ 6 && index ≤ lget 0 [0, 0, 0, 0, 11, 95, 63] kind

/-- 0x0801. In HOLD its wipe would never be granted (R554, R612). -/
def scrGrantQmCmd (b : Nat) (s : State) : State × Reply :=
  checks [(!s.dev.ready.scratch, stNotReady),
      (decide ((s.bank b).state ≠ .owned) || decide ((s.bank b).kind = 3) || decide (s.dev.mode = .hold), stWrong)]
    (fun s => (ownerWrite b 3 0 true true s, .wait [] b 0)) s

def execScrGrantQm (q : CmdCtx) (b : Nat) (s : State) : Host.Outcome State Fault Refusal :=
  effect (command q 0x0801 (leBytes 1 b) (scrGrantQmCmd (u8 b))) s

/-- 0x0803. -/
def scrSetOwnerCmd (b kind index wipe : Nat) (s : State) : State × Reply :=
  let x := s.bank b
  let same := decide (x.kind = kind) && decide (x.index = index) && decide (wipe = 0)
  checks [(!ownerOk kind index || 1 < wipe, stBadArg), (!s.dev.ready.scratch, stNotReady),
      (decide (s.dev.mode = .hold) && decide (wipe = 1), stWrong)]
    (fun s =>
      let s := ownerWrite b kind index (decide (wipe = 1)) false s
      if decide (x.state ≠ .owned) || decide (kind = 3) || decide (x.kind = 3) then fail stWrong s
      else if same then (s, .pend stOk []) else (s, .wait [] b 0)) s

def execScrSetOwner (q : CmdCtx) (b kind index wipe : Nat) (s : State) : Host.Outcome State Fault Refusal :=
  effect (command q 0x0803 (payloadAt 4 [(0, 1, b), (1, 1, kind), (2, 1, index), (3, 1, wipe)])
    (scrSetOwnerCmd (u8 b) (u8 kind) (u8 index) (u8 wipe))) s

/-- R367, R370: states as numbers. -/
def bankState : BankState → Nat
  | .owned => 0 | .draining => 1 | .waitGrant => 2 | .wiping => 3
def groupState : GroupState → Nat
  | .off => 0 | .waitGrant => 1 | .clearing => 2 | .on => 3

/-- 0x0804. -/
def scrGroupStatusCmd (g : Nat) (s : State) : State × Reply :=
  checks [(decide (31 < g), stBadArg)] (fun s =>
    let banks := (List.range 8).map fun i => s.bank (8 * g + i)
    okWith (leBytes 1 (groupState (s.sgroup g).state) ++ leBytes 3 (heldBy s kGroup g)
      ++ banks.flatMap (fun x => leBytes 1 x.kind ++ leBytes 1 x.index)
      ++ banks.flatMap (fun x => leBytes 1 (bankState x.state))) s) s

def execScrGroupStatus (q : CmdCtx) (g : Nat) (s : State) : Host.Outcome State Fault Refusal :=
  effect (command q 0x0804 (leBytes 1 g) (scrGroupStatusCmd (u8 g))) s

/-- 0x0805: the unit as stored. -/
def scrReadUnitCmd (b u : Nat) (s : State) : State × Reply :=
  checks [(decide (8191 < u), stBadArg)] (fun s =>
    let x := unitAt s (b * 8192 + u)
    okWith (leBytes 36 x.symbols.toNat ++ leBytes 1 (b2n x.poisoned)) s) s

def execScrReadUnit (q : CmdCtx) (b u : Nat) (s : State) : Host.Outcome State Fault Refusal :=
  effect (command q 0x0805 (payloadAt 4 [(0, 1, b), (2, 2, u)]) (scrReadUnitCmd (u8 b) (u16 u))) s

/-! ### The movers of class 4 (R183, R275, R276, R453) -/

/-- R183, R453: the queue manager and the lane streams as an initiator. -/
def moverInit : Initiator := ⟨4, 0⟩

/-- R275, R421, R458: a mover reads device memory: the response code and data; `other` is the answer of a target that
is neither DRAM nor scratch. -/
def moverRead (addr n : Nat) (other : Nat × List Byte) (s : State) : (Nat × List Byte) × State :=
  let (ok, s) := rightsJudge 4 0 true false addr (n - 1) s
  let r : Req := ⟨moverInit, 0, addr, n, [], 0⟩
  if !ok then ((rRights, []), recordViolation 4 0 false addr s)
  else if (scratchOffset addr).isSome then scratchReadAt r [] s
  else if 0x10000000000 ≤ addr ∧ addr < 0x18000000000 then dramReadAt r [] false s
  else (other, s)

/-- R276, R421, R456: a mover writes device memory: the response code. -/
def moverWrite (addr : Nat) (data : List Byte) (other : Nat) (s : State) : Nat × State :=
  let (ok, s) := rightsJudge 4 0 false true addr (data.length - 1) s
  let r : Req := ⟨moverInit, 0, addr, data.length, data, 2 ^ data.length - 1⟩
  if !ok then (rRights, recordViolation 4 0 true addr s)
  else if (scratchOffset addr).isSome then scratchWriteAt r [] s
  else if 0x10000000000 ≤ addr ∧ addr < 0x18000000000 then dramWriteAt r [] false s
  else (other, s)

end Sys2Proof.Machine
end

