-- ==== Sys2Proof/Machine/Fabric.lean ====
section
/-! DEFINITION. The fabric's clocks and ports (chapter 2): fabric PLLs, tile clocks, fabric ports and their registers. -/

namespace Sys2Proof.Machine

/-! ### Fabric PLLs (R69 to R76) -/

def evProto : Nat := 9
def evTileBusy : Nat := 10

/-- R66, R70: an output's settings are in range: at most 1.5 GHz with the reference as it stands, and with a reference of
187.5 MHz where the VCO may run on that too (log 141). -/
def outInRange (s : State) (m d : Nat) (o : PllOut) : Bool :=
  2 ≤ o.div && o.div ≤ 256 && pllRef s * m ≤ 1500000 * o.div * (d + 1) && o.phase < 8 * o.div
    && (6000000 * (d + 1) < 187500 * m || 187500 * m ≤ 1500000 * o.div * (d + 1))

/-- R70: the settings that APPLY would refuse. -/
def pllRefuses (s : State) (x : Pll) : Bool :=
  !(16 ≤ x.m && x.m ≤ 256 && vcoInRange s x.m x.d && outInRange s x.m x.d x.out0 && outInRange s x.m x.d x.out1
    && outInRange s x.m x.d x.out2 && outInRange s x.m x.d x.out3)

/-- R70: APPLY. -/
def pllApply (n : Nat) (s : State) : State :=
  let x := s.pll n
  if pllRefuses s x then s.modPll n fun x => { x with rangeErr := true }
  else
    let s := if x.m ≠ x.appM ∨ x.d ≠ x.appD then pllUnlock n s else s
    s.modPll n fun x =>
      { x with appM := x.m, appD := x.d, app0 := x.out0, app1 := x.out1, app2 := x.out2, app3 := x.out3
               outOfRange := false }

def execFpllApply (n : Nat) (s : State) : Host.Outcome State Fault Refusal :=
  effect (when (n < 24) (pllApply n)) s

/-- R76: PLL_EN is set: one credit is requested. -/
def pllEnable (n : Nat) (s : State) : State :=
  if (s.pll n).en then s else
  request kPll n 1 (s.modPll n fun x => { x with en := true, waitGrant := true })

/-- R76: PLL_EN is cleared: the request is withdrawn, or the PLL stops and its credit returns. -/
def pllDisable (n : Nat) (s : State) : State :=
  let x := s.pll n
  if !x.en then s else
  let s := if x.waitGrant then withdraw kPll n s else s
  let s := pllUnlock n (giveBackAll kPll n s)
  s.modPll n fun x => { x with en := false, waitGrant := false, granted := false }

/-- R76: the credit has come, and the PLL starts. One whose VCO the parked reference puts out of range stays unlocked;
RANGE_ERR is left as it is, since R72 speaks of PLLs enabled when the VCO changes (DESIGN CHOICE, log 138). -/
def pllGranted (n : Nat) (s : State) : State :=
  s.modPll n fun x => { x with waitGrant := false, granted := true, outOfRange := !vcoInRange s x.appM x.appD }

def execFpllEnable (n : Nat) (s : State) : Host.Outcome State Fault Refusal :=
  effect (when (n < 24) (pllEnable n)) s

/-- R71: the phase error has stayed in its window for 1,024 reference cycles. -/
def execFpllLock (n : Nat) (s : State) : Host.Outcome State Fault Refusal :=
  effect (when (n < 24 && (s.pll n).granted && !(s.pll n).lock && vcoInRange s (s.pll n).appM (s.pll n).appD) fun s =>
    s.modPll n fun x => { x with lock := true, outOfRange := false }) s

/-- R71, R72: the PLL loses lock, or its reference has changed; a VCO out of range keeps it unlocked with RANGE_ERR. -/
def execFpllLockLoss (n : Nat) (s : State) : Host.Outcome State Fault Refusal :=
  effect (when (n < 24) (pllRelock n)) s

/-! ### Tile clocks (R76 to R84) -/

/-- R78: a grant starts the tile's clocks. -/
def tileGranted (t : Nat) (s : State) : State := s.modTile t fun x => openPort { x with state := .on }

/-- R78: an enable of a tile outside every slot. -/
def tileEnable (t : Nat) (s : State) : State :=
  match (s.tile t).state with
  | .off => request kTile t 16 (s.modTile t fun x => { x with state := .waitGrant })
  | .draining => s.modTile t fun x => { x with pendingEnable := true }
  | _ => s

/-- R78: a disable. -/
def tileDisable (t : Nat) (s : State) : State :=
  match (s.tile t).state with
  | .waitGrant => withdraw kTile t (s.modTile t fun x => { x with state := .off })
  | .on => s.modTile t fun x => { x with state := .draining }
  | .draining => s.modTile t fun x => { x with pendingEnable := false }
  | .off => s

/-- R80, R82: a write of CFG_TILE_CMD names tile `t` (7 bits). One whose clocks HOLD has stopped keeps its STATE (R84). -/
def tileCommand (t : Nat) (f : Nat → State → State) (s : State) : State :=
  let s := { s with fab := { s.fab with lastTile := t } }
  if 95 < t then { s with fab := { s.fab with badTile := true } }
  else if (s.tile t).spanOwned then { s with fab := { s.fab with spanOwnedErr := true } }
  else if (s.tile t).holdStopped then s else f t s

def execTileEnable (t : Nat) (s : State) : Host.Outcome State Fault Refusal :=
  effect (tileCommand (t % 128) tileEnable) s

def execTileDisable (t : Nat) (s : State) : Host.Outcome State Fault Refusal :=
  effect (tileCommand (t % 128) tileDisable) s

/-- A tile outside the slots that drains, in a mode other than HOLD (R657). -/
def tileDrains (t : Nat) (s : State) : Bool :=
  t < 96 && decide ((s.tile t).state = .draining) && !(s.tile t).spanOwned && decide (s.dev.mode ≠ .hold)

/-- R78: the draining tile's port is idle. -/
def execTileDrainIdle (t : Nat) (s : State) : Host.Outcome State Fault Refusal :=
  effect (when (tileDrains t s && portIdle (s.tile t)) fun s =>
    let again := (s.tile t).pendingEnable
    let s := giveBackAll kTile t (s.modTile t fun x => { x with state := .off, pendingEnable := false, credits := 0 })
    if again then tileEnable t s else s) s

def execTileDrainTimeout (t : Nat) (s : State) : Host.Outcome State Fault Refusal :=
  effect (when (tileDrains t s && !portIdle (s.tile t)) fun s =>
    raiseEvent evTileBusy (s.modTile t fun x =>
      resumeCredits { x with state := .on, pendingEnable := false, busyRefused := true })) s

/-- R84. -/
def tileState : TileState → Nat
  | .off => 0 | .waitGrant => 1 | .on => 2 | .draining => 3
def tileStateWord (s : State) (t : Nat) : Nat :=
  let x := s.tile t
  field (if x.state = .on ∨ x.state = .draining then 16 else 0) 16 8 + flag x.spanOwned 9 + flag x.busyRefused 8
    + flag x.pendingEnable 4 + flag x.holdStopped 3 + tileState x.state
/-- R83, R97: a bit for each of 32 tiles. -/
def tileBits (s : State) (i : Nat) (p : Tile → Bool) : Nat :=
  (List.range 32).foldl (fun a b => a + b2n (p (s.tile (32 * i + b))) * 2 ^ b) 0

/-! ### Fabric ports (R85 to R97) -/

/-- R93: a protocol violation: the first kind is kept. -/
def protoError (t kind : Nat) (s : State) : State :=
  raiseEvent evProto (s.modTile t fun x =>
    if x.protoErr then x else { x with protoErr := true, errKind := kind })

/-- R87: a unit's credit returns, unless the fence is up or the device is in HOLD. -/
def returnCredits (t n : Nat) (s : State) : State :=
  s.modTile t fun x =>
    if x.state = .draining ∨ s.dev.mode = .hold then { x with owed := x.owed + n } else { x with credits := x.credits + n }

/-- R91, R310: the tag of a header unit. -/
def headerTag (hd : BitVec 256) : Nat := (hd.extractLsb' 204 8).toNat

/-- R87, R91 to R93: the fabric sends a header unit and the data units up to LAST. The packet waits at the port until it
enters the pier (NOC_INJECT), which takes header fields, data and order from it. The check bits that the fabric presents are
overwritten (R91): those of a unit are computed where it enters a link. The credits that a discarded packet took
are at the fabric again at once, even under FP_FENCE: R93 does not say (DESIGN CHOICE, log 142). A request with the opcode
of a response is answered DECODE (R311; log 156). -/
def execFabricPortRequest (t : Nat) (hd : BitVec 256) (data : List (BitVec 256)) (_check : List (BitVec 10)) (s : State) :
    Host.Outcome State Fault Refusal :=
  effect (when (t < 96 && portLive s t) fun s =>
    let x := s.tile t
    let units := 1 + headerLen hd
    if x.credits < units then protoError t 1 s
    else if data.length ≠ headerLen hd then tell ⟨⟨3, t⟩, headerTag hd, rDecode, 0, []⟩ (protoError t 2 s)
    else if x.tags.getLsbD (headerTag hd) then protoError t 3 s
    else if hd.extractLsb' 216 6 = 0x20 then tell ⟨⟨3, t⟩, headerTag hd, rDecode, 0, []⟩ s
    else portChanged t (s.modTile t fun x =>
      { x with credits := x.credits - units, outbound := x.outbound ++ [⟨hd, data⟩]
               tags := x.tags ||| BitVec.twoPow 256 (headerTag hd) })) s

/-- R90, R93: the fabric answers the inbound request of a source and tag. -/
def execFabricPortResponse (t : Nat) (src : Initiator) (tag code : Nat) (data : List Byte) (s : State) :
    Host.Outcome State Fault Refusal :=
  effect (when (t < 96 && portLive s t && code < 6) fun s =>
    if (s.tile t).inbound.any (fun e => e.src = src && e.tag = tag) then
      answer ⟨src, tag, code, 0, if code = rOk then data else []⟩
        (s.modTile t fun x => { x with inbound := x.inbound.erase ⟨src, tag⟩ })
    else protoError t 4 s) s

/-- R89, R93: the fabric returns inbound credits; those beyond the configured count are ignored. -/
def execFabricPortCreditReturn (t n : Nat) (s : State) : Host.Outcome State Fault Refusal :=
  effect (when (t < 96 && portLive s t) fun s =>
    let x := s.tile t
    let s := if x.inboundCfg < x.inboundFree + n then protoError t 5 s else s
    s.modTile t fun x => { x with inboundFree := min x.inboundCfg (x.inboundFree + n) }) s

/-- R334: the pier answers DOMAIN_OFF on the fabric's behalf; a response given later has no request to answer. -/
def execFabricInboundTimeout (t : Nat) (src : Initiator) (tag : Nat) (s : State) : Host.Outcome State Fault Refusal :=
  effect (when (t < 96 && (s.tile t).inbound.any (fun e => e.src = src && e.tag = tag)) fun s =>
    answer ⟨src, tag, rOff, 0, []⟩ (s.modTile t fun x => { x with inbound := x.inbound.erase ⟨src, tag⟩ })) s

/-- R96: OUTSTANDING. -/
def tagCount (x : Tile) : Nat := ((List.range 256).filter fun i => x.tags.getLsbD i).length
def portStatWord (x : Tile) : Nat :=
  flag (portIdle x) 31 + flag x.protoErr 24 + (if x.protoErr then field x.errKind 20 4 else 0) + tagCount x

/-- R74, R73, R75. -/
def pllStatWord (x : Pll) : Nat := flag x.waitGrant 3 + flag x.rangeErr 2 + flag x.lost 1 + b2n x.lock
def pllCfgWord (x : Pll) : Nat := field x.m 16 9 + field x.d 8 3 + b2n x.en
def pllOutWord (o : PllOut) : Nat := flag o.en 31 + field o.phase 16 11 + field o.div 0 9

end Sys2Proof.Machine
end

