-- ==== Sys2Proof/Machine/BlockMemory.lean ====
section
/-! DEFINITION. Block memories (chapter 3): ports, the (72,64) code, the scrubber, and the configuration frames through
which loads, saves and wipes reach them (R140). -/

namespace Sys2Proof.Machine

/-! ### The (72,64) code (R106, R107) -/

/-- R106, R154: the check bits of a data word; those of zero are zero. -/
def checkOf (d : BitVec 64) : BitVec 8 := if d = 0 then 0 else Config.checkBits d

/-- How many of 72 bits are set. -/
def flipCount (f : BitVec 72) : Nat := ((List.range 72).filter fun i => f.getLsbD i).length

/-- What the checker makes of a word whose bits `f` stand inverted: 0 clean, 1 single-bit error, 2 double-bit error;
R106 speaks of one and two bits only, more are open (Config.manyFlips). -/
def flipKind (f : BitVec 72) : Nat :=
  if flipCount f ≤ 2 then flipCount f else Config.manyFlips f % 3

/-- R107: the 72 bits as a checker delivers them: a single-bit error corrected, all else as stored. -/
def correctedData (w : BWord) : BitVec 72 :=
  if flipCount w.flips = 1 then w.data
  else if flipKind w.flips = 1 then w.data ^^^ w.flips ^^^ BitVec.twoPow 72 (Config.manyFlips w.flips / 3 % 72)
  else w.data ^^^ (w.flips &&& BitVec.ofNat 72 (2 ^ 64 - 1))

/-! ### Memories and words -/

/-- R99, R124: memory `m` of tile `t`, and word `w` of it. -/
def memKey (t m : Nat) : Nat := t * 48 + m
def wordKey (k w : Nat) : Nat := k * 1024 + w
def State.bword (s : State) (k : Nat) : BWord := tget {} s.fab.words k
def setWord (k : Nat) (w : BWord) (s : State) : State :=
  { s with fab := { s.fab with words := tset {} s.fab.words k w } }
def modScrub (g : Scrub → Scrub) (s : State) : State := { s with fab := { s.fab with scrub := g s.fab.scrub } }

/-- R111, R124: an error is counted, captured while the log is free, and its event raised; with DBE_HOLD a double-bit
error is FATAL. Sources: 0 port A, 1 port B, 2 merge, 3 scrubber. -/
def reportBram (k w src : Nat) (double : Bool) (flips : BitVec 72) (s : State) : State :=
  let s := modScrub (fun x =>
    let x := if double then { x with ue := satAdd 16 x.ue 1 } else { x with ce := satAdd 48 x.ce 1 }
    if x.logValid then x else
    { x with logValid := true, logKind := double, logSource := src, logTile := k / 48, logMem := k % 48, logWord := w
             logSyn := Config.syndrome flips }) s
  let s := raiseEvent (if double then 321 else 320) s
  if double ∧ s.fab.scrub.dbeHold then enterHold 5 s else s

/-- R107, R109: check the stored word `x` of an ECC memory for a source: whether it is uncorrectable, its bits as
delivered, SBE. -/
def checkStored (k w src : Nat) (x : BWord) (s : State) : (Bool × BitVec 72 × Bool) × State :=
  if !(s.bmem k).ecc then ((false, x.data, false), s)
  else match flipKind x.flips with
    | 0 => ((false, correctedData x, false), s)
    | 1 => ((false, correctedData x, true), reportBram k w src false x.flips s)
    | _ => ((true, correctedData x, false), reportBram k w src true x.flips s)

/-- The same of a word as it stands. -/
def checkWord (k w src : Nat) (s : State) : (Bool × BitVec 72 × Bool) × State :=
  checkStored k w src (s.bword (wordKey k w)) s

/-! ### Ports (R100 to R110) -/

/-- R100, R101: the width in bits, the bits of a physical word that a width uses, and of a byte lane. -/
def widthOf (w : Nat) : Nat := lget 8 [72, 64, 36, 32, 18, 16, 9, 8] w
def usedBits (w : Nat) : Nat := if w % 2 = 1 then 64 else 72
def laneBits (w : Nat) : Nat := if w % 2 = 1 ∨ w = 0 then 8 else 9
def wordOf (w a : Nat) : Nat := a * widthOf w / usedBits w
def laneOf (w a : Nat) : Nat := a % (usedBits w / widthOf w)
/-- The lane an address reads from a word. -/
def readLane (w a : Nat) (v : BitVec 72) : BitVec 72 := BitVec.ofNat 72 (bits v.toNat (laneOf w a * widthOf w) (widthOf w))
/-- The bits a write changes, and its data in place. -/
def laneMask (w a en : Nat) : BitVec 72 :=
  BitVec.ofNat 72 ((List.range (widthOf w / laneBits w)).foldl (fun acc j =>
    acc + if bit en j then (2 ^ laneBits w - 1) * 2 ^ (laneOf w a * widthOf w + j * laneBits w) else 0) 0)
def laneData (w a d : Nat) : BitVec 72 := BitVec.ofNat 72 (field d (laneOf w a * widthOf w) (widthOf w))
/-- R108: a write that covers all 64 data bits. -/
def fullWrite (w en : Nat) : Bool := w = 1 && en % 256 = 255

def BMem.port (x : BMem) (b : Bool) : BPort := if b then x.portB else x.portA
def BMem.setPort (x : BMem) (b : Bool) (p : BPort) : BMem := if b then { x with portB := p } else { x with portA := p }

/-- R108: an operation presented in the cycle after a partial write is discarded, with PW_OVERRUN. -/
def overrun (k : Nat) (s : State) : State :=
  modScrub (fun x =>
    let x := if x.wwCollide || x.pwOverrun then x else { x with firstTile := k / 48, firstMem := k % 48 }
    { x with pwOverrun := true }) s

/-- Bits of a stored word flip. -/
def upsetWord (k w : Nat) (f : BitVec 72) (s : State) : State :=
  let x := s.bword (wordKey k w)
  setWord (wordKey k w) (if (s.bmem k).ecc then { x with flips := x.flips ^^^ f } else { x with data := x.data ^^^ f }) s

/-- R116: a port write to the word cancels its write-back. -/
def cancelWriteBack (k w : Nat) (s : State) : State :=
  s.modBmem k fun x => { x with writeBack := x.writeBack.filter fun e => e.1 ≠ w }

/-- Set a port's output register and flags. -/
def portOutput (k : Nat) (b : Bool) (out : BitVec 72) (sbe dbe : Bool) (s : State) : State :=
  s.modBmem k fun x => x.setPort b { x.port b with out, sbe, dbe }

/-- The port takes an operation: none may be presented while it merges (`next` says that it comes in the cycle after the
port's last one). -/
def portBusy (s : State) (k : Nat) (b next : Bool) : Bool := ((s.bmem k).port b).merging && next
def portMerging (k : Nat) (b v : Bool) (s : State) : State :=
  s.modBmem k fun x => x.setPort b { x.port b with merging := v }

/-- R112: addresses of one memory at a port's width. -/
def depthAt (w : Nat) : Nat := 1024 * (usedBits w / widthOf w)

/-- R112: the memory of tile `t` that an address of memory `m` names, and the address there: the upper address bits select
the member of a cascade, inside one memory column. -/
def memberOf (s : State) (t m : Nat) (b : Bool) (a : Nat) : Nat × Nat :=
  let x := s.bmem (memKey t m)
  let i := a / depthAt (x.port b).width
  if i < x.cascade ∧ m % 12 + i < 12 then (memKey t (m + i), a % depthAt (x.port b).width) else (memKey t m, a)

/-- R104: the other port's operation on word `w` in the same cycle: the memory's last one, where `same` says that it came in
this cycle and both ports run on one line. -/
def collision (s : State) (k : Nat) (b : Bool) (w : Nat) (same : Bool) : Option BOp :=
  let x := s.bmem k
  x.last.filter fun o => same && o.portB != b && decide (o.word = w) && decide (x.portA.line = x.portB.line)

/-- R104: the port's operation on word `w` is the memory's last one. -/
def noteOp (k : Nat) (o : BOp) (s : State) : State := s.modBmem k fun x => { x with last := some o }

/-- R102, R107, R104: a read; one that meets a write of the other port returns the word before it. `clear` says that the
synchronous output reset is asserted (R99). -/
def bramRead (k : Nat) (b : Bool) (a : Nat) (clear same : Bool) (s : State) : State :=
  let p := (s.bmem k).port b
  let w := wordOf p.width a % 1024
  let now := s.bword (wordKey k w)
  let x := match collision s k b w same with
    | some o => if o.write then o.old else now
    | none => now
  let s := noteOp k ⟨b, false, w, 0, now⟩ s
  let ((bad, v, sbe), s) := checkStored k w (b2n b) x s
  if clear then portOutput k b 0 sbe bad s else portOutput k b (readLane p.width a v) sbe bad s

/-- R99, R102: a cycle of a port's clock in which it does not write: it reads (`c.rd`), and its output reset may act (`c.clear`). Reads
are served from the moment the tile's clocks run (R113). -/
def execBramRead (t m : Nat) (portB : Bool) (addr : Nat) (c : ReadControl) (e : PortEdge) (upset : BitVec 72) (s : State) :
    Host.Outcome State Fault Refusal :=
  effect (when (t < 96 && m < 48 && tileClocks s t) fun s =>
    let (k, a) := memberOf s t m portB addr
    if portBusy s k portB e.next && c.rd then portMerging k portB false (overrun k s)
    else
      let s := portMerging k portB false s
      if c.rd then bramRead k portB a c.clear e.same (upsetWord k (wordOf ((s.bmem k).port portB).width a % 1024) upset s)
      else if c.clear then s.modBmem k fun x => x.setPort portB { x.port portB with out := 0 } else s) s

/-- R103: the output after a write of `new` over `old`. The SBE of a merge that corrected an error does not go with the
word as written of WRITE_FIRST (DESIGN CHOICE, log 143). -/
def afterWrite (k : Nat) (b : Bool) (a : Nat) (old new : BitVec 72) (sbe dbe : Bool) (s : State) : State :=
  let p := (s.bmem k).port b
  if p.rdw = 0 then portOutput k b (readLane p.width a new) false false s
  else if p.rdw = 1 then portOutput k b (readLane p.width a old) sbe dbe s
  else s

/-- R126: the armed injection of check bits. -/
def injected (k : Nat) (b full : Bool) (s : State) : BitVec 72 × State :=
  let x := s.fab.scrub
  if x.injArm ∧ full ∧ !b ∧ memKey x.injTile x.injMem = k ∧ x.injMem < 48 then
    ((x.injFlip.zeroExtend 72) <<< 64, modScrub (fun x => { x with injArm := false }) s)
  else (0, s)

/-- R104: the bits that a write of port `b` changes: not those that port A writes in the same cycle. -/
def writeMask (b : Bool) (mask : BitVec 72) (other : Option BOp) : BitVec 72 :=
  match other with
  | some o => if o.write && b then mask &&& ~~~ o.mask else mask
  | none => mask

/-- R103, R106, R108, R109: a write, of the bits that `other`, the other port's operation in this cycle, leaves it. -/
def bramWrite (k : Nat) (b : Bool) (a en d : Nat) (other : Option BOp) (s : State) : State :=
  let p := (s.bmem k).port b
  let w := wordOf p.width a % 1024
  let mask := writeMask b (laneMask p.width a en) other
  let put (old : BitVec 72) : BitVec 72 := (old &&& ~~~ mask) ||| (laneData p.width a d &&& mask)
  let now := s.bword (wordKey k w)
  let s := noteOp k ⟨b, true, w, mask, now⟩ (cancelWriteBack k w s)
  if !(s.bmem k).ecc then
    afterWrite k b a now.data (put now.data) false false (setWord (wordKey k w) { data := put now.data } s)
  else if fullWrite p.width en then
    let ((bad, old, sbe), s) := if p.rdw = 1 then checkWord k w (b2n b) s else ((false, 0, false), s)
    let (flips, s) := injected k b true s
    let base := if other.any (·.write) then now.data else 0
    afterWrite k b a old (put base) sbe bad (setWord (wordKey k w) { data := put base, flips } s)
  else
    let kind := flipKind now.flips
    let s := portMerging k b true s
    if 2 ≤ kind then portOutput k b (readLane p.width a (correctedData now)) false true (reportBram k w (b2n b) true now.flips s)
    else
      let s := if kind = 1 then reportBram k w 2 false now.flips s else s
      let old := correctedData now
      afterWrite k b a old (put old) (decide (kind = 1)) false (setWord (wordKey k w) { data := put old } s)

/-- R104, R127: two writes met on one word. -/
def noteCollide (k : Nat) (other : Option BOp) (s : State) : State :=
  if other.any (·.write) then
    modScrub (fun x =>
      let x := if x.wwCollide || x.pwOverrun then x else { x with firstTile := k / 48, firstMem := k % 48 }
      { x with wwCollide := true }) s
  else s

/-- R104, R108: a write; `e.same` says that it comes in the cycle of the memory's last operation, `clear` that the output
reset is asserted (R99). User writes may still be disabled (R113). -/
def execBramWrite (t m : Nat) (portB : Bool) (addr en data : Nat) (clear : Bool) (e : PortEdge) (upset : BitVec 72) (s : State) :
    Host.Outcome State Fault Refusal :=
  effect (when (t < 96 && m < 48 && tileClocks s t && (s.tile t).writesOn) fun s =>
    let (k, a) := memberOf s t m portB addr
    if portBusy s k portB e.next then portMerging k portB false (overrun k s)
    else
      let w := wordOf ((s.bmem k).port portB).width a % 1024
      let s := upsetWord k w upset (portMerging k portB false s)
      let other := collision s k portB w e.same
      let s := bramWrite k portB a en data other (noteCollide k other s)
      if clear then s.modBmem k fun x => x.setPort portB { x.port portB with out := 0 } else s) s

/-! ### The scrubber (R114 to R119) -/

/-- R115: memories of a tile that a burst checks. -/
def eccMems (s : State) (t : Nat) : List Nat := (List.range 48).filter fun m => (s.bmem (memKey t m)).ecc

/-- R115: a tile that the walk takes. -/
def scrubsTile (s : State) (t : Nat) : Bool := !(eccMems s t).isEmpty && portLive s t

/-- R115: the walk comes to the next tile; past tile 95 a pass is complete. -/
def nextTile (s : State) : State :=
  modScrub (fun x => { x with tile := (x.tile + 1) % 96, passes := if x.tile = 95 then (x.passes + 1) % 2 ^ 16 else x.passes }) s

/-- R115: skip tiles that the walk does not take, at most once around. -/
def skipTiles : Nat → State → State
  | 0, s => s
  | n + 1, s =>
    if scrubsTile s s.fab.scrub.tile then s
    else skipTiles n (nextTile (modScrub (fun x => { x with skipped := true }) s))

/-- R115, R118: the gap ends: the next burst asks for its credit. -/
def execBramScrubGapEnd (s : State) : Host.Outcome State Fault Refusal :=
  effect (when (scrubMode s && s.fab.scrub.en && !s.fab.scrub.burst && !s.fab.scrub.waitGrant) fun s =>
    let s := skipTiles 96 s
    if scrubsTile s s.fab.scrub.tile then request kScrub 0 1 (modScrub (fun x => { x with waitGrant := true }) s) else s) s

/-- R115: the burst begins: every memory of the tile starts at word 0. -/
def bramBurst (s : State) : State :=
  let t := s.fab.scrub.tile
  let s := modScrub (fun x => { x with waitGrant := false, burst := true }) s
  forEach (List.range 48) (fun m a => a.modBmem (memKey t m) fun x => { x with walk := 0, writeBack := none }) s

/-- The burst ends and its credit returns. -/
def endBramBurst (walked : Bool) (s : State) : State :=
  let s := giveBackAll kScrub 0 (modScrub (fun x => { x with burst := false }) s)
  if walked then nextTile s else s

/-- R114, R116, R117: a memory's maintenance slot: it writes a corrected word back, or reads the next word. -/
def scrubSlot (k : Nat) (s : State) : State :=
  let x := s.bmem k
  match x.writeBack with
  | some (w, v) => setWord (wordKey k w) { data := v } (s.modBmem k fun x => { x with writeBack := none })
  | none =>
    if x.walk < 1024 then
      let ((_, v, sbe), s) := checkWord k x.walk 3 s
      s.modBmem k fun y => { y with walk := y.walk + 1, writeBack := if sbe then some (x.walk, v) else none }
    else s

/-- R114: one maintenance slot of every memory of the tile being walked; `upset` gives flips by memory. -/
def execBramScrubSlot (upset : List (Nat × BitVec 72)) (s : State) : Host.Outcome State Fault Refusal :=
  effect (when s.fab.scrub.burst fun s =>
    let t := s.fab.scrub.tile
    if !scrubMode s || !portLive s t then endBramBurst false s else
    let s := upset.foldl (fun a e => if e.1 < 48 then upsetWord (memKey t e.1) ((a.bmem (memKey t e.1)).walk % 1024) e.2 a else a) s
    let s := forEach (eccMems s t) (fun m a => if a.dev.mode = .hold then a else scrubSlot (memKey t m) a) s
    if (eccMems s t).all (fun m => 1024 ≤ (s.bmem (memKey t m)).walk && (s.bmem (memKey t m)).writeBack.isNone) then
      endBramBurst true s
    else s) s

/-- R125: CLR_COUNTS. -/
def clearBramCounts (s : State) : State := modScrub (fun x => { x with ce := 0, ue := 0 }) s
def execBramClrCounts (s : State) : Host.Outcome State Fault Refusal := effect clearBramCounts s

/-! ### Configuration frames (R140, R141) -/

def frameKey (t i : Nat) : Nat := t * 2 ^ 15 + i

/-- R106: a stored 72-bit pattern with the check bits it brings: those that disagree stand inverted. -/
def wordOfBits (ecc : Bool) (v : BitVec 72) : BWord :=
  if ecc then
    { data := v &&& BitVec.ofNat 72 (2 ^ 64 - 1)
      flips := (((v >>> 64).truncate 8 ^^^ checkOf (v.truncate 64)).zeroExtend 72) <<< 64 }
  else { data := v }
/-- A word as its 72 bits stand. -/
def bitsOfWord (ecc : Bool) (w : BWord) : BitVec 72 :=
  if ecc then (w.data ||| ((checkOf (w.data.truncate 64)).zeroExtend 72) <<< 64) ^^^ w.flips else w.data

/-- R106, R156: what a word of a content frame loads as. A configuration writes check bits consistent with the data, whatever
the frame's bits 71:64 are, of which R106 does not speak (DESIGN CHOICE, log 172); a restore writes the saved check bits, so that a word that was uncorrectable when it was saved is so again. -/
def loadedWord (s : State) (restore : Option Nat) (k : Nat) (v : BitVec 72) : BWord :=
  let ecc := (s.bmem (k / 1024)).ecc
  match restore with
  | none => { data := if ecc then v &&& BitVec.ofNat 72 (2 ^ 64 - 1) else v }
  | some p =>
    let saved := tget {} s.fab.captured (p * 2 ^ 23 + k)
    if ecc && saved.flips ≠ 0 && bitsOfWord true saved = v then saved else wordOfBits ecc v

/-- Write frame `i` of tile `t`, in a restore of a personality or not: a content frame fills eight words of a memory, any other is kept as it is. -/
def writeFrame (restore : Option Nat) (t i : Nat) (v : BitVec 640) (s : State) : State :=
  if 13568 ≤ i ∧ i < 19712 then
    let k := memKey t ((i - 13568) / 128)
    let w := 8 * ((i - 13568) % 128)
    forEach (List.range 8) (fun j a =>
      setWord (wordKey k (w + j)) (loadedWord a restore (wordKey k (w + j)) ((v >>> (72 * j)).truncate 72)) a) s
  else { s with fab := { s.fab with frames := tset 0 s.fab.frames (frameKey t i) v } }

/-- Read frame `i` of tile `t`. -/
def readFrame (s : State) (t i : Nat) : BitVec 640 :=
  if 13568 ≤ i ∧ i < 19712 then
    let k := memKey t ((i - 13568) / 128)
    let w := 8 * ((i - 13568) % 128)
    (List.range 8).foldl (fun acc j =>
      acc ||| ((bitsOfWord (s.bmem k).ecc (s.bword (wordKey k (w + j)))).zeroExtend 640) <<< (72 * j)) 0
  else tget 0 s.fab.frames (frameKey t i)

/-- What a logic frame says of the memories of its tile; the members of a cascade share WIDTH, ECC and RDW_MODE (R112). -/
def setMems (t : Nat) (ms : List MemSetting) (s : State) : State :=
  ms.foldl (fun a x => forEach (List.range (min (max 1 x.cascade) (12 - x.mem % 12))) (fun i a =>
    if x.mem < 48 then a.modBmem (memKey t (x.mem + i)) fun y =>
      { y with ecc := x.ecc, cascade := if i = 0 then x.cascade else 0
               portA := { y.portA with width := x.widthA % 8, rdw := x.rdwA % 3, line := x.lineA % 16 }
               portB := { y.portB with width := x.widthB % 8, rdw := x.rdwB % 3, line := x.lineB % 16 } } else a) a) s

/-- R113, R154: wipe frames `lo` to `hi - 1` of a tile to zero. -/
def wipeFrames (t lo hi : Nat) (s : State) : State :=
  let inside (i : Nat) : Bool := lo ≤ i && i < hi
  { s with fab := { s.fab with
    frames := tdrop 0 (fun k => k / 2 ^ 15 = t && inside (k % 2 ^ 15)) s.fab.frames
    words := tdrop {} (fun k => k / 1024 / 48 = t && inside (13568 + 128 * (k / 1024 % 48) + k % 1024 / 8)) s.fab.words } }

/-! ### Registers (R121 to R127) -/

def bramScrubStatWord (x : Scrub) : Nat := field x.passes 16 16 + flag x.waitGrant 9 + flag x.skipped 8 + field x.tile 0 7
def bramLogWord (x : Scrub) : Nat :=
  flag x.logValid 31 + flag x.logKind 30 + field x.logSource 28 2 + field x.logTile 21 7 + field x.logMem 15 6
    + field x.logWord 0 10
def bramPortWord (x : Scrub) : Nat :=
  flag x.wwCollide 31 + flag x.pwOverrun 30 + field x.firstTile 16 7 + field x.firstMem 8 6
/-- R122, R364, R413: a saturated 48-bit count, its HI word; R123: a saturated 16-bit count. -/
def countHi (v : Nat) : Nat := flag (v = 2 ^ 48 - 1) 31 + v / 2 ^ 32 % 2 ^ 16
def countWord16 (v : Nat) : Nat := flag (v = 2 ^ 16 - 1) 31 + v % 2 ^ 16

end Sys2Proof.Machine
end

