-- ==== Sys2Proof/Machine/Container.lean ====
section
/-! DEFINITION. What is read from bytes: container headers (R573, R574, R577), personality headers and frame blocks (R146),
the slot table (R138), and the accesses of the span pager to its store (R149). -/

namespace Sys2Proof.Machine

/-! ### Bytes in DRAM -/

/-- The 64 bytes from an aligned device address on, without a request of their own; 0 where nothing can be read (log 50). -/
def peekLine (s : State) (addr : Nat) : List Byte :=
  match dramTarget s addr with
  | none => leBytes 64 0
  | some (c, a) =>
    let u := subOf c a
    let l := a / 128
    match queued (s.sub u) l with
    | some v => leBytes 64 (lineData v)
    | none => match decodeStored s c u l with
      | some (_, w) => leBytes 64 (ofSymbols (w.drop 16))
      | none => leBytes 64 0

/-- `n` bytes from a device address on. -/
def peekBytes (s : State) (addr n : Nat) : List Byte :=
  ((((List.range ((addr % 64 + n + 63) / 64)).flatMap fun i => peekLine s (64 * (addr / 64 + i))).drop (addr % 64)).take n)

/-- R310: the parts of an access of `n` bytes, each within a block of 256. -/
def blockParts (addr n : Nat) : List (Nat × Nat) :=
  (List.range ((addr % 256 + n + 255) / 256)).map fun i =>
    let lo := max addr (256 * (addr / 256 + i))
    (lo, min (addr + n) (256 * (addr / 256 + i + 1)) - lo)

/-- R149: the span pager as an initiator (R183). -/
def pagerInit : Initiator := ⟨5, 0⟩

/-- The upsets, by device line, that meet an access to `n` bytes from `addr` on, by line of that access. -/
def upsetsOf (upset : List (Nat × BitVec 640)) (addr n : Nat) : List (Nat × BitVec 640) :=
  upset.filterMap fun e => if addr / 64 ≤ e.1 ∧ e.1 ≤ (addr + n - 1) / 64 then some (e.1 - addr / 64, e.2) else none

/-- R149, R421: the pager reads its store: the first response other than OK, or the bytes. `upset` gives the upsets of the
lines read, by device line, and `acts` says that the reads find their rows closed. -/
def storeRead (upset : List (Nat × BitVec 640)) (acts : Bool) : List (Nat × Nat) → State → (Nat × List Byte) × State
  | [], s => ((rOk, []), s)
  | b :: t, s =>
    let (ok, s) := rightsJudge 5 0 true false b.1 (b.2 - 1) s
    if !ok then ((rRights, []), recordViolation 5 0 false b.1 s) else
    let ((code, d), s) := dramReadAt ⟨pagerInit, 0, b.1, b.2, [], 0⟩ (upsetsOf upset b.1 b.2) acts s
    if code ≠ rOk then ((code, []), s) else
    let ((code, ds), s) := storeRead upset acts t s
    ((code, d ++ ds), s)

/-- R149, R421: the pager writes its store: the first response other than OK, or OK. No write opens a row (DESIGN CHOICE,
log 180). -/
def storeWrite (data : List Byte) (addr : Nat) : List (Nat × Nat) → State → Nat × State
  | [], s => (rOk, s)
  | b :: t, s =>
    let (ok, s) := rightsJudge 5 0 false true b.1 (b.2 - 1) s
    if !ok then (rRights, recordViolation 5 0 true b.1 s) else
    let (code, s) := dramWriteAt ⟨pagerInit, 0, b.1, b.2, (data.drop (b.1 - addr)).take b.2, 2 ^ b.2 - 1⟩ [] false s
    if code ≠ rOk then (code, s) else storeWrite data addr t s

/-! ### Container headers (R573, R574, R577) -/

/-- R574: a section table entry. -/
def sectionEntryOf (b : List Byte) : SectionEntry :=
  { kind := leAt b 0 2, zeroOk := zeroAt b 2 2 && zeroAt b 12 4, offset := leAt b 4 4, length := leAt b 8 4 }

/-- R573, R577: a container header of either version from its bytes, with what Sorrel computes over it. -/
def headerOf (b : List Byte) (keyHash : BitVec 384) (sigOk : Bool) : Header :=
  let v1 := decide (leAt b 4 2 = 1)
  let flags := leAt b 0x0C 4
  let count := leAt b 0x22 2
  let slots := if v1 then 8 else 16
  let sig := if v1 then 0x300 else 0x500
  let entry (i : Nat) : List Byte := (b.drop (0x100 + 64 * i)).take 64
  { magic := leAt b 0 4, version := leAt b 4 2, headerLen := leAt b 6 2, deviceType := leAt b 8 4
    signed := bit flags 0, unitBound := bit flags 1, debug := bit flags 2, chainMore := bit flags 3
    zeroOk := decide (flags < 16) && (bit flags 1 || zeroAt b 0x10 8) && (!v1 || zeroAt b 0x10 8) && zeroAt b 0x26 2
      && zeroAt b 0x40 192 && (List.range slots).all (fun i => decide (i < count) || zeroAt (entry i) 0 64)
      && (bit flags 0 || zeroAt b sig 193) && zeroAt b (sig + 193) 63
    unitId := leAt b 0x10 8, totalLen := leAt b 0x18 4, frameCount := leAt b 0x1C 4, startOrder := leAt b 0x20 2
    sectionCount := count, stallTimeout := leAt b 0x24 2, imageVersion := leAt b 0x28 8, buildId := leAt b 0x30 16
    sections := (List.range (min count slots)).map fun i => sectionEntryOf (entry i)
    keyHash, sigOk }

/-- The header of a container staged at a device address. -/
def stagedHeader (s : State) (addr : Nat) (st : Staged) : Header := headerOf (peekBytes s addr 0x600) st.keyHash st.sigOk

/-- The bytes of the first section of a kind in a staged container, at most `n`. -/
def stagedSection (s : State) (addr : Nat) (h : Header) (kind n : Nat) : Option (List Byte) :=
  (h.sections.find? fun e => e.kind = kind).map fun e => peekBytes s (addr + e.offset) (min n e.length)

/-! ### Personality images (R146) -/

/-- R146: the header of a personality image from its 512 bytes. -/
def spanHeaderOf (b : List Byte) : SpanHeader :=
  let tiles := leAt b 9 1
  { kind := leAt b 0 4, version := leAt b 4 2, persId := leAt b 6 2, homeSlot := leAt b 8 1, tiles
    startOrder := leAt b 0xA 2, spanCredits := leAt b 0xC 2, stateless := bit (leAt b 0xE 2) 0, pllMask := leAt b 0x10 4
    frameCount := leAt b 0x14 4, interfaceId := leAt b 0x18 8
    tileCrc := (List.range 48).map fun i => leAt b (0x40 + 4 * i) 4
    zeroOk := decide (leAt b 0xE 2 < 2) && decide (leAt b 0x10 4 < 2 ^ 24) && zeroAt b 0x20 32
      && zeroAt b (0x40 + 4 * tiles) (192 - 4 * tiles) && zeroAt b 0x100 256 }

/-- What comes of a read of the frame stream: a frame, a break of R147, or a response other than OK. -/
inductive Fetch where
  | frame
  | order
  | refused (code : Nat)
deriving DecidableEq, Repr

/-- R146: a block head names a frame address and 1 to 19,712 frames, and its other bits are zero. -/
def headOk (h : List Byte) : Bool :=
  decide (leAt h 0 4 < 2 ^ 22) && decide (1 ≤ leAt h 4 4) && decide (leAt h 4 4 ≤ 19712) && zeroAt h 8 8

/-- R146: the next block of the image is opened once the frames of the last one are read. An image that ends, or a bad head,
gives no next frame of R147 (log 144). -/
def openBlock (upset : List (Nat × BitVec 640)) (acts : Bool) (i : Nat) (s : State) : Fetch × State :=
  let x := s.slot i
  let p := s.pers x.pers
  if x.imgLeft ≠ 0 then (.frame, s)
  else if p.imageLen < x.imgPos + 16 then (.order, s)
  else
    let ((code, h), s) := storeRead upset acts (blockParts (p.imageAddr + x.imgPos) 16) s
    if code ≠ rOk then (.refused code, s)
    else if !headOk h then (.order, s)
    else (.frame, s.modSlot i fun x => { x with imgPos := x.imgPos + 16, imgLeft := leAt h 4 4, imgNext := leAt h 0 4 })

/-- One frame of the image is passed. -/
def passFrame (i : Nat) (s : State) : State :=
  s.modSlot i fun x => { x with imgPos := x.imgPos + 80, imgLeft := x.imgLeft - 1, imgNext := x.imgNext + 1 }

/-- R157: a restore passes over frames of the image. -/
def skipImage (upset : List (Nat × BitVec 640)) (acts : Bool) (i : Nat) : Nat → State → Fetch × State
  | 0, s => (.frame, s)
  | n + 1, s =>
    match openBlock upset acts i s with
    | (.frame, s) => skipImage upset acts i n (passFrame i s)
    | r => r

/-- R146: the next frame of the image: its address and bits. -/
def imageFrame (upset : List (Nat × BitVec 640)) (acts : Bool) (i : Nat) (s : State) :
    Fetch × Nat × BitVec 640 × State :=
  match openBlock upset acts i s with
  | (.frame, s) =>
    let x := s.slot i
    let p := s.pers x.pers
    if p.imageLen < x.imgPos + 80 then (.order, 0, 0, s)
    else
      let ((code, d), s) := storeRead upset acts (blockParts (p.imageAddr + x.imgPos) 80) s
      if code ≠ rOk then (.refused code, 0, 0, s) else (.frame, x.imgNext, BitVec.ofNat 640 (ofLe d), passFrame i s)
  | (f, s) => (f, 0, 0, s)

/-! ### The slot table (R138) -/

/-- R138: the boundary tile edges that face another tile, anticlockwise from the south-west corner, as (tile, edge). -/
def boundaryEdges (col0 row0 col1 row1 : Nat) : List (Nat × Nat) :=
  let cols := (List.range (col1 + 1 - col0)).map (col0 + ·)
  let rows := (List.range (row1 + 1 - row0)).map (row0 + ·)
  let edges := cols.map (fun c => (12 * row0 + c, 2)) ++ rows.map (fun r => (12 * r + col1, 1))
    ++ cols.reverse.map (fun c => (12 * row1 + c, 0)) ++ rows.reverse.map (fun r => (12 * r + col0, 3))
  edges.filter fun e => (facing e.1 e.2).isSome

/-- R138: the records of a slot table; none where one does not keep to its layout. -/
def slotRecordsOf : Nat → List Byte → Option (List SlotRecord)
  | _, [] => some []
  | 0, _ :: _ => none
  | n + 1, b =>
    let edges := boundaryEdges (leAt b 2 1) (leAt b 3 1) (leAt b 4 1) (leAt b 5 1)
    let len := 64 + 64 * edges.length
    let flags := leAt b 1 1
    if b.length < len ∨ 8 ≤ flags ∨ !zeroAt b 0x10 48 then none else
    (slotRecordsOf n (b.drop len)).map fun rs =>
      { slotId := leAt b 0 1, die := bit flags 0, initEnable := bit flags 1, evictIdle := bit flags 2
        col0 := leAt b 2 1, row0 := leAt b 3 1, col1 := leAt b 4 1, row1 := leAt b 5 1
        idleTime := leAt b 6 2, interfaceId := leAt b 8 8
        dirs := edges.zip (List.range edges.length) |>.map fun e =>
          (e.1.1, e.1.2, BitVec.ofNat 512 (leAt b (64 + 64 * e.2) 64)) } :: rs

/-- R138: base and size of the store, and the records. -/
def slotTableOf (b : List Byte) : Option (Nat × Nat × List SlotRecord) :=
  if b.length < 16 then none else
  (slotRecordsOf 64 (b.drop 16)).map fun rs => (leAt b 0 8, leAt b 8 8, rs)

end Sys2Proof.Machine
end

