-- ==== Sys2Proof/Machine/Cells.lean ====
section
/-! DEFINITION. What one logic cell, one flip-flop, one wire register, one multiplexer, one carry chain and one arithmetic
slice of the fabric compute (R41 to R59, R112, R128 to R134). Machine/Logic.lean joins them as the configuration says. -/

namespace Sys2Proof.Machine

/-! ### Logic cells (R41 to R47) -/

/-- R41: an index from a list of inputs, the first the most significant. -/
def tableIndex (l : List Bool) : Nat := l.foldl (fun a b => 2 * a + b2n b) 0

/-- R41: X and Y of a table `t`, from inputs I0 to I5. -/
def cellTable (t : BitVec 64) (split : Bool) (i0 i1 i2 i3 i4 i5 : Bool) : Bool × Bool :=
  if split then (t.getLsbD (tableIndex [i4, i3, i2, i1, i0]), t.getLsbD (32 + tableIndex [i5, i3, i2, i1, i0]))
  else (t.getLsbD (tableIndex [i5, i4, i3, i2, i1, i0]), false)

/-- R43: a cell's carry segment: (s0, s1, carry out) from X, Y, I4, I5 and the carry in. -/
def carrySegment (x y i4 i5 c0 : Bool) : Bool × Bool × Bool :=
  let c1 := if x then c0 else i4
  let c2 := if y then c1 else i5
  (x ^^ c0, y ^^ c1, c2)

/-- R43, R44: an adder of `n` cells: cell `k` takes bits 2k and 2k+1 of `a` on I4 and I5 and of `b` on I0 and I1, X and Y
being their exclusive ors; the sum bits, least significant first, and the carry out. -/
def carryChain : Nat → Nat → Nat → Bool → List Bool × Bool
  | 0, _, _, c => ([], c)
  | n + 1, a, b, c =>
    let (s0, s1, c2) := carrySegment (bit a 0 ^^ bit b 0) (bit a 1 ^^ bit b 1) (bit a 0) (bit a 1) c
    let (rest, out) := carryChain n (a / 4) (b / 4) c2
    (s0 :: s1 :: rest, out)

/-- R45: outputs XO and YO, and the D inputs of flip-flops A and B. -/
def cellOut (x y s0 s1 sum : Bool) : Bool × Bool := if sum then (s0, s1) else (x, y)
def cellD (xo yo i4 i5 selA selB : Bool) : Bool × Bool := (if selA then i4 else xo, if selB then i5 else yo)

/-- R47, R48: a flip-flop's next value; `edge` says whether its clock rises. -/
def flipFlop (q init d gsr async reset enable edge : Bool) : Bool :=
  if gsr then init else if async && reset then init
  else if !edge then q else if !async && reset then init else if enable then d else q

/-- R49, R58, R59: a used wire register's next value; a bypassed one passes its input. -/
def wireRegister (used gsr edge q d : Bool) : Bool := if !used then d else if gsr then false else if edge then d else q

/-- R54, R585: a routing multiplexer: the all-zero code, and a select code that names no input, give constant 0; code `k`
gives the `k`-th input, counted from 1. -/
def routeMux (inputs : List Bool) (select : Nat) : Bool := lget false (false :: inputs) select

/-- R112: read latency in cycles of a cascade of `n` memories, 2 to 12. -/
def cascadeLatency (n : Nat) : Nat := if n ≤ 4 then 2 else if n ≤ 8 then 3 else 4

/-! ### Arithmetic slices (R128 to R134) -/

/-- R129: the multiplier's modes. -/
inductive SliceMode where
  | single24
  | dual12 (twin : Bool)
  | quad8 (fxSgn fySgn : BitVec 4)
deriving DecidableEq, Repr

/-- R130: the pre-adder: its clipped result and PRE_CLIP. -/
def preAdd (pre fx : BitVec 24) (neg : Bool) : BitVec 24 × Bool :=
  let v := if neg then pre.toInt - fx.toInt else pre.toInt + fx.toInt
  let c := max (-(2 ^ 23)) (min (2 ^ 23 - 1) v)
  (BitVec.ofInt 24 c, decide (c ≠ v))

/-- R129: byte `k` of a factor, signed or unsigned. -/
def factorByte (v : BitVec 32) (sgn : BitVec 4) (k : Nat) : Int :=
  let b : BitVec 8 := v.extractLsb' (8 * k) 8
  if sgn.getLsbD k then b.toInt else (b.toNat : Int)

/-- R129: the product term Q, after the pre-adder where it is enabled. -/
def productTerm (m : SliceMode) (fx fy : BitVec 32) : BitVec 64 :=
  match m with
  | .single24 => BitVec.ofInt 64 ((fx.extractLsb' 0 24).toInt * (fy.extractLsb' 0 24).toInt)
  | .dual12 twin =>
    let p (k : Nat) : Int := (fx.extractLsb' (12 * k) 12).toInt * (fy.extractLsb' (12 * k) 12).toInt
    if twin then (BitVec.ofInt 32 (p 1)) ++ (BitVec.ofInt 32 (p 0)) else BitVec.ofInt 64 (p 0 + p 1)
  | .quad8 fxSgn fySgn =>
    BitVec.ofInt 64 (((List.range 4).map fun k => factorByte fx fxSgn k * factorByte fy fySgn k).foldl (· + ·) 0)

/-- R129, R130: Q and PRE_CLIP: in SINGLE24 with the pre-adder on, PRE ± FX[23:0] takes the place of FX[23:0]. -/
def sliceTerm (m : SliceMode) (preOn : Bool) (pre : BitVec 24) (neg : Bool) (fx fy : BitVec 32) : BitVec 64 × Bool :=
  match m with
  | .single24 =>
    if preOn then
      let p := preAdd pre (fx.extractLsb' 0 24) neg
      (productTerm .single24 (p.1.zeroExtend 32) fy, p.2)
    else (productTerm .single24 fx fy, false)
  | m => (productTerm m fx fy, false)

/-- R131: an exact result narrowed to `w` bits, with WRAP. Accumulators are signed. -/
def narrowWrap (w : Nat) (v : Int) : BitVec w × Bool := (BitVec.ofInt w v, decide ((BitVec.ofInt w v).toInt ≠ v))

/-- R131: the accumulator's two operands by SUM_OP: what Q is added to and Q's sign; none for the two codes that use no Q. -/
def sumOperands (op : Nat) (sum addend sumcIn ksum : BitVec 64) : Option (BitVec 64 × Int) :=
  if op = 1 then some (0, 1) else if op = 2 then some (sum, 1) else if op = 3 then some (sum, -1)
  else if op = 4 then some (addend, 1) else if op = 5 then some (sumcIn, 1) else if op = 6 then some (ksum, 1) else none

/-- R129, R131: SUM and WRAP; under TWIN_SUM each half wraps by itself. `addend` is sign-extended already (R128). -/
def accumulate (twin : Bool) (op : Nat) (q sum addend sumcIn ksum : BitVec 64) : BitVec 64 × Bool :=
  match sumOperands op sum addend sumcIn ksum with
  | none => (if op = 0 then 0 else sum, false)
  | some (a, sign) =>
    if twin then
      let half (k : Nat) := narrowWrap 32 ((a.extractLsb' (32 * k) 32).toInt + sign * (q.extractLsb' (32 * k) 32).toInt)
      ((half 1).1 ++ (half 0).1, (half 0).2 || (half 1).2)
    else narrowWrap 64 (a.toInt + sign * q.toInt)

/-- R132: the registers of a slice: the input register, the pre-adder's, the two of multiply and sum, the accumulator with
its flags, and those of the two chains (R133). -/
structure SliceRegs where
  fx : BitVec 32 := 0
  fy : BitVec 32 := 0
  pre : BitVec 24 := 0
  addend : BitVec 48 := 0
  op : BitVec 3 := 0
  neg : Bool := false
  pFx : BitVec 24 := 0
  pFy : BitVec 24 := 0
  pAddend : BitVec 48 := 0
  pOp : BitVec 3 := 0
  pClip : Bool := false
  mQ : BitVec 64 := 0
  mAddend : BitVec 48 := 0
  mOp : BitVec 3 := 0
  mClip : Bool := false
  nQ : BitVec 64 := 0
  nAddend : BitVec 48 := 0
  nOp : BitVec 3 := 0
  nClip : Bool := false
  sum : BitVec 64 := 0
  wrap : Bool := false
  clip : Bool := false
  fxc : BitVec 24 := 0
  sumc : BitVec 64 := 0
deriving DecidableEq, Repr

/-- R128, R129: what configuration says of a slice. -/
structure SliceSet where
  mode : SliceMode
  preOn : Bool
  fxChain : Bool
  ksum : BitVec 64
deriving DecidableEq, Repr

/-- R128: the inputs of a slice; SUMC_IN and FXC_IN come from its south neighbour. -/
structure SliceIn where
  fx : BitVec 32
  fy : BitVec 32
  pre : BitVec 24
  addend : BitVec 48
  op : BitVec 3
  neg : Bool
  fxcIn : BitVec 24
  sumcIn : BitVec 64
deriving DecidableEq, Repr

/-- R128 to R133: one edge of a slice's clock: the inputs enter the input register, each register of the pipeline takes the
stage before it, and the chain registers take what FX[23:0] and SUM take. -/
def sliceEdge (c : SliceSet) (i : SliceIn) (r : SliceRegs) : SliceRegs :=
  let fx : BitVec 32 := if c.fxChain then (i.fx.extractLsb' 24 8) ++ i.fxcIn else i.fx
  let single := c.mode = .single24 && c.preOn
  let p := preAdd r.pre (r.fx.extractLsb' 0 24) r.neg
  let twin := c.mode = .dual12 true
  let a := accumulate twin r.nOp.toNat r.nQ r.sum (r.nAddend.signExtend 64) i.sumcIn c.ksum
  { fx, fy := i.fy, pre := i.pre, addend := i.addend, op := i.op, neg := i.neg
    pFx := p.1, pFy := r.fy.extractLsb' 0 24, pAddend := r.addend, pOp := r.op, pClip := p.2
    mQ := if single then productTerm .single24 (r.pFx.zeroExtend 32) (r.pFy.zeroExtend 32) else productTerm c.mode r.fx r.fy
    mAddend := if single then r.pAddend else r.addend
    mOp := if single then r.pOp else r.op
    mClip := single && r.pClip
    nQ := r.mQ, nAddend := r.mAddend, nOp := r.mOp, nClip := r.mClip
    sum := a.1, wrap := a.2, clip := r.nClip
    fxc := fx.extractLsb' 0 24, sumc := a.1 }

/-- R128, R134: a slice's next registers: its synchronous reset, and set-reset, clear them all. -/
def sliceNext (gsr reset enable edge : Bool) (c : SliceSet) (i : SliceIn) (r : SliceRegs) : SliceRegs :=
  if gsr then {} else if !edge then r else if reset then {} else if enable then sliceEdge c i r else r

/-- R132, R133: the edge after which the SUM of factors sampled on edge 0 is valid at the end of a chain of `n` slices. -/
def sumEdge (preAdder : Bool) (n : Nat) : Nat := (if preAdder then 5 else 4) + (n - 1)

end Sys2Proof.Machine
end

