-- ==== Sys2Proof/Machine/Logic.lean ====
section
/-! DEFINITION. The user logic of the fabric (R39 to R60, R65, R128 to R134): the switch boxes and segments, what a tile's
frames configure, the value of every signal, and what an instant of the fabric's clocks does. R140 prints no layout of logic
frames 4 to 13,567 and of the state frames, so where a bit stands is open (Config.logicBit, Config.stateBit), as are the
inputs of each multiplexer (Config.muxSource); log 48. -/

namespace Sys2Proof.Machine

/-! ### Places: groups and segments (R39, R52, R53) -/

/-- R39: a cell group: its tile, group column (from the west) and group row (from the south). -/
structure Place where
  tile : Nat
  gx : Nat
  gy : Nat
deriving DecidableEq, Repr

/-- R39: group columns and rows of a tile, cells of a group, slices of a tile. -/
def groupColumns : Nat := 40
def groupRows : Nat := 64
def groupCells : Nat := 16
def tileSlices : Nat := 112

/-- R39: a group's number in its tile. -/
def groupNumber (gx gy : Nat) : Nat := groupColumns * gy + gx

/-- R52: the lengths of segments, and how many of each start in each direction of a switch box. -/
def segmentLengths : List (Nat × Nat) := [(1, 16), (4, 12), (12, 4), (36, 1)]
def segmentLength (len : Nat) : Nat := (lget (0, 0) segmentLengths len).1
def segmentCount (len : Nat) : Nat := (lget (0, 0) segmentLengths len).2

/-- R52: the segments of one direction of a switch box, as (length, number). -/
def segmentsOf : List (Nat × Nat) := (List.range 4).flatMap fun len => (List.range (segmentCount len)).map fun i => (len, i)

/-- R52: a segment's number among the 132 of its group. -/
def segmentNumber (dir len i : Nat) : Nat := 33 * dir + ((List.range len).map segmentCount).foldl (· + ·) i

/-- R22, R40: a group's column and row on its die: 6 tiles of 40 columns by 8 tiles of 64 rows. -/
def dieX (p : Place) : Nat := groupColumns * (p.tile % 6) + p.gx
def dieY (p : Place) : Nat := groupRows * (p.tile / 12) + p.gy
/-- The group at a column and row of the die of tile `t`. -/
def placeOn (t x y : Nat) : Place :=
  ⟨12 * (y / groupRows) + 6 * (t % 12 / 6) + x / groupColumns, x % groupColumns, y % groupRows⟩

/-- R52, R53: the group `n` positions from another in a direction (0 north, 1 east, 2 south, 3 west); it goes on across the
tile edges of the die and stops at the last group before the die's edge. -/
def placeAway (p : Place) (dir n : Nat) : Place :=
  match dir with
  | 0 => placeOn p.tile (dieX p) (min (dieY p + n) (8 * groupRows - 1))
  | 1 => placeOn p.tile (min (dieX p + n) (6 * groupColumns - 1)) (dieY p)
  | 2 => placeOn p.tile (dieX p) (dieY p - n)
  | _ => placeOn p.tile (dieX p - n) (dieY p)

/-- R52, R53: the switch box at which a segment ends. -/
def segmentEnd (p : Place) (dir len : Nat) : Place := placeAway p dir (segmentLength len)

/-- R53: a segment that crosses the edge of a span slot is held unused. -/
def crossesSlot (s : State) (p q : Place) : Bool :=
  decide (p.tile ≠ q.tile) && decide ((slotOf s p.tile).map (·.1) ≠ (slotOf s q.tile).map (·.1))

/-! ### What the frames configure (R140) -/

/-- A configuration bit of a tile: logic frames 4 to 13,567 hold it somewhere. -/
def configBit (s : State) (t : Nat) (x : ConfigItem) (j : Nat) : Bool :=
  let p := Config.logicBit x j % (13564 * 640)
  (readFrame s t (4 + p / 640)).getLsbD (p % 640)
def configOn (s : State) (t : Nat) (x : ConfigItem) : Bool := configBit s t x 0
/-- `n` configuration bits as a number. -/
def configNat (s : State) (t : Nat) (x : ConfigItem) (n : Nat) : Nat :=
  (List.range n).foldl (fun a j => a + b2n (configBit s t x j) * 2 ^ j) 0

/-- R54, R585: what a multiplexer connects to: nothing with the all-zero code or one that names no input. -/
def selectedWire (s : State) (t : Nat) (x : Sink) : Option Wire :=
  let code := configNat s t (.select x) (Config.selectWidth x % 16)
  if code = 0 then none else Config.muxSource x code

/-- R41: the table of a cell. -/
def tableOf (s : State) (t gx gy c : Nat) : BitVec 64 := BitVec.ofNat 64 (configNat s t (.table gx gy c) 64)

/-- R46, R60, R128: the clock line that a clock multiplexer selects. -/
def lineOf (s : State) (t : Nat) (x : Sink) : Option Nat :=
  match selectedWire s t x with
  | some (.line l) => if l < 16 then some l else none
  | _ => none

/-- R128 to R131: the configuration of a slice. -/
def sliceSet (s : State) (t n : Nat) : SliceSet :=
  let b := configBit s t (.slice n)
  let nibble (lo : Nat) : BitVec 4 := BitVec.ofNat 4 ((List.range 4).foldl (fun a j => a + b2n (b (lo + j)) * 2 ^ j) 0)
  { mode := if b 0 then .dual12 (b 2) else if b 1 then .quad8 (nibble 8) (nibble 12) else .single24
    preOn := b 3, fxChain := b 4
    ksum := BitVec.ofNat 64 ((List.range 64).foldl (fun a j => a + b2n (b (16 + j)) * 2 ^ j) 0) }

/-! ### The registers (R140) -/

/-- R140: flip-flop A (0) or B (1) of a cell, and the wire register of a segment by its start, among the 419,840 bits of a
tile's state frames 19,712 to 20,367. -/
def flipFlopIndex (gx gy c ab : Nat) : Nat := 2 * (groupCells * groupNumber gx gy + c) + ab
def wireIndex (gx gy dir len i : Nat) : Nat := 81920 + 132 * groupNumber gx gy + segmentNumber dir len i

def storedBit (s : State) (t i : Nat) : Bool :=
  let p := Config.stateBit i % 419840
  (readFrame s t (19712 + p / 640)).getLsbD (p % 640)
/-- A register of tile `t` takes a value. -/
def storeBit (t i : Nat) (v : Bool) (s : State) : State :=
  let p := Config.stateBit i % 419840
  let f := readFrame s t (19712 + p / 640)
  let m := BitVec.twoPow 640 (p % 640)
  writeFrame none t (19712 + p / 640) (if v then f ||| m else f &&& ~~~ m) s

/-- R140: a slice's registers in its state frame: the fields one after the other, at places that are open. -/
def sliceBits (r : SliceRegs) : List Bool :=
  let l {w : Nat} (v : BitVec w) : List Bool := (List.range w).map v.getLsbD
  l r.fx ++ l r.fy ++ l r.pre ++ l r.addend ++ l r.op ++ [r.neg] ++ l r.pFx ++ l r.pFy ++ l r.pAddend ++ l r.pOp ++ [r.pClip]
    ++ l r.mQ ++ l r.mAddend ++ l r.mOp ++ [r.mClip] ++ l r.nQ ++ l r.nAddend ++ l r.nOp ++ [r.nClip]
    ++ l r.sum ++ [r.wrap, r.clip] ++ l r.fxc ++ l r.sumc
def sliceFrame (r : SliceRegs) : BitVec 640 :=
  ((sliceBits r).zip (List.range 640)).foldl (fun v e =>
    if e.1 then v ||| BitVec.twoPow 640 (Config.sliceBit e.2 % 640) else v) 0
def sliceRegs (s : State) (t n : Nat) : SliceRegs :=
  let v := readFrame s t (20368 + n)
  let g (lo w : Nat) : Nat := (List.range w).foldl (fun a j => a + b2n (v.getLsbD (Config.sliceBit (lo + j) % 640)) * 2 ^ j) 0
  let b (w lo : Nat) : BitVec w := BitVec.ofNat w (g lo w)
  let o (lo : Nat) : Bool := g lo 1 = 1
  { fx := b 32 0, fy := b 32 32, pre := b 24 64, addend := b 48 88, op := b 3 136, neg := o 139
    pFx := b 24 140, pFy := b 24 164, pAddend := b 48 188, pOp := b 3 236, pClip := o 239
    mQ := b 64 240, mAddend := b 48 304, mOp := b 3 352, mClip := o 355
    nQ := b 64 356, nAddend := b 48 420, nOp := b 3 468, nClip := o 471
    sum := b 64 472, wrap := o 536, clip := o 537, fxc := b 24 538, sumc := b 64 562 }

/-! ### Set-reset (R47, R49, R50, R134, R143) -/

/-- R50: a control set's number on the device. -/
def setNumber (t gx gy cs : Nat) : Nat := 2 * (2560 * t + groupNumber gx gy) + cs

/-- R49, R50: set-reset holds the flip-flops and wire registers of a control set: it is asserted, or the release has not
passed the set's synchroniser. -/
def heldReset (s : State) (t gx gy cs : Nat) : Bool :=
  (s.tile t).setReset || ((s.tile t).releasing && decide (tget 0 s.fab.sync (setNumber t gx gy cs) < 3))

/-- R46: the control set of a flip-flop. -/
def flipFlopSet (s : State) (t gx gy c ab : Nat) : Nat := b2n (configOn s t (.dSet gx gy c ab))

/-- R47, R49: a flip-flop's value: INIT while set-reset holds it. -/
def flipFlopValue (s : State) (t gx gy c ab : Nat) : Bool :=
  if heldReset s t gx gy (flipFlopSet s t gx gy c ab) then configOn s t (.init gx gy c ab)
  else storedBit s t (flipFlopIndex gx gy c ab)

/-- R59: the control set whose clock drives the wire register of a segment, at the group where the segment ends. -/
def wireSet (s : State) (p : Place) (dir len i : Nat) : Nat := b2n (configOn s p.tile (.wireSet p.gx p.gy dir len i))
def wireHeld (s : State) (p : Place) (dir len i : Nat) : Bool :=
  let q := segmentEnd p dir len
  heldReset s q.tile q.gx q.gy (wireSet s p dir len i)

/-- Every group of a tile. -/
def groups : List (Nat × Nat) := (List.range groupRows).flatMap fun gy => (List.range groupColumns).map fun gx => (gx, gy)

/-- R47, R49, R134: what the release of set-reset leaves in a tile: each flip-flop holds INIT, each wire and slice register 0. -/
def loadInit (t : Nat) (s : State) : State :=
  let old := s
  let s := forEach (List.range tileSlices) (fun n a => writeFrame none t (20368 + n) 0 a) s
  let s := forEach (List.range 656) (fun k a => writeFrame none t (19712 + k) 0 a) s
  groups.foldl (fun a g => forEach (List.range groupCells) (fun c a => forEach [0, 1] (fun ab a =>
    if configOn old t (.init g.1 g.2 c ab) then storeBit t (flipFlopIndex g.1 g.2 c ab) true a else a) a) a) s

/-- A tile that the configuration has given nothing: its logic frames are cleared. -/
def blankTile (s : State) (t : Nat) : Bool := !(s.fab.frames.any fun e => e.1 / 2 ^ 15 = t)

/-- R50, R143: the release of set-reset comes to a tile. A blank tile's registers all hold 0. -/
def releaseTile (t : Nat) (s : State) : State :=
  let s := if blankTile s t then s else loadInit t s
  let s := { s with fab := { s.fab with sync := tdrop 0 (fun k => k / 5120 = t) s.fab.sync } }
  s.modTile t fun x => { x with setReset := false, releasing := true }

/-! ### Clock lines (R46, R65) -/

/-- R65: where a tile's clock line comes from. -/
inductive LineSource where
  | routing
  | half
  | pll (n j : Nat)
  | pin (n : Nat)
  | none
deriving DecidableEq, Repr

/-- R65: the source of line `l` of tile `t`; a die line's source `v` of SETUP is output v % 4 of PLL v / 4 below 96, and
user pin v - 96 from there on (log 140). -/
def lineSource (s : State) (t l : Nat) : LineSource :=
  if l = 0 then .routing else if l = 1 then .half
  else if l < 6 then .pll (2 * (t % 12)) (l - 2)
  else if l < 10 then .pll (2 * (t % 12) + 1) (l - 6)
  else if l < 16 then
    match s.fab.dieLines.find? fun e => e.1 = 6 * (t % 12 / 6) + (l - 10) with
    | some e => if e.2 < 96 then .pll (e.2 / 4) (e.2 % 4) else .pin (e.2 - 96)
    | Option.none => .none
  else .none

/-- R71, R75: an output of a fabric PLL drives its line. -/
def outputRuns (x : Pll) (j : Nat) : Bool := x.lock && (lget x.app0 [x.app0, x.app1, x.app2, x.app3] j).en

/-- R68: the routing clock runs from the start-up ramp on, and while the root PLL coasts. -/
def routingRuns (s : State) : Bool := !startingUp s.clk || decide (s.clk.phase = .startRamp)

/-- The rising edges of one instant: of the routing clock of each die, of each PLL output and of each pin. Which fall
together no rule says: they are the bits of a free value. -/
structure Edges where
  routing : BitVec 2
  pll : BitVec 96
  pin : BitVec 960
deriving DecidableEq, Repr
def edgesOf (v : BitVec 1058) : Edges := ⟨v.extractLsb' 0 2, v.extractLsb' 2 96, v.extractLsb' 98 960⟩

/-- R65, R67: the die of a tile, and whether its routing clock rises, alike in all its tiles. -/
def dieOf (t : Nat) : Nat := t % 12 / 6
def routingEdge (s : State) (e : Edges) (die : Nat) : Bool := routingRuns s && e.routing.getLsbD die
def halfPhase (s : State) (die : Nat) : Bool := if die = 0 then s.fab.halfWest else s.fab.halfEast

/-- R48, R65, R76: line `l` of tile `t` rises: the tile's lines are gated together. -/
def lineRises (s : State) (e : Edges) (t l : Nat) : Bool :=
  tileClocks s t && match lineSource s t l with
  | .routing => routingEdge s e (dieOf t)
  | .half => routingEdge s e (dieOf t) && halfPhase s (dieOf t)
  | .pll n j => outputRuns (s.pll n) j && e.pll.getLsbD (4 * n + j)
  | .pin n => e.pin.getLsbD n
  | .none => false
/-- R48: a line whose clock runs: a flip-flop of a stopped one keeps its value whatever its reset. -/
def lineRuns (s : State) (t l : Nat) : Bool :=
  tileClocks s t && match lineSource s t l with
  | .routing => routingRuns s
  | .half => routingRuns s
  | .pll n j => outputRuns (s.pll n) j
  | .pin _ => true
  | .none => false
/-- The same of what a clock multiplexer selects. -/
def clockRises (s : State) (e : Edges) (t : Nat) (x : Sink) : Bool :=
  match lineOf s t x with
  | some l => lineRises s e t l
  | none => false
def clockRuns (s : State) (t : Nat) (x : Sink) : Bool :=
  match lineOf s t x with
  | some l => lineRuns s t l
  | none => false

/-! ### The value of a signal -/

/-- R41, R43: X, Y, s0, s1 and the carry out of a cell, from its inputs and the carry in. Without SPLIT the carry segment
does not work (R43), and what it gives is open. -/
def cellValues (s : State) (n t gx gy c : Nat) (i : Nat → Bool) (c0 : Bool) : Bool × Bool × Bool × Bool × Bool :=
  let split := configOn s t (.split gx gy c)
  let (x, y) := cellTable (tableOf s t gx gy c) split (i 0) (i 1) (i 2) (i 3) (i 4) (i 5)
  if split then
    let (s0, s1, c2) := carrySegment x y (i 4) (i 5) c0
    (x, y, s0, s1, c2)
  else
    let free (k : Nat) : Bool := Config.openSignal (n + k) t (.carryFrom gx gy c)
    (x, y, free 0, free 1, free 2)

/-- R492: the tick counts sampled on the die of a tile, and TB_TICK: the count of 8 cycles of line 0 before the last edge. -/
def sampledTicks (s : State) (die : Nat) : List Nat := if die = 0 then s.fab.sampledWest else s.fab.sampledEast
def tbTick (s : State) (t : Nat) : Nat := lget 0 (sampledTicks s (dieOf t)) 8
/-- A sample is taken where line 0 rises. -/
def sampleTick (s : State) (e : Edges) (die : Nat) : List Nat :=
  if routingEdge s e die then (s.now :: sampledTicks s die).take 9 else sampledTicks s die

/-- The value of a signal of tile `t` at the `n`-th free value. The fuel is more than any chain of signals is long; a
combinational loop runs it out, and its value is open. -/
def signal (s : State) (n : Nat) : Nat → Nat → Wire → Bool
  | 0, t, w => Config.openSignal n t w
  | k + 1, t, w =>
    match w with
    | .mux x =>
      match selectedWire s t x with
      | none => false
      | some w => signal s n k t w
    | .cell gx gy c 2 => flipFlopValue s t gx gy c 0
    | .cell gx gy c 3 => flipFlopValue s t gx gy c 1
    | .cell gx gy c o =>
      let (x, y, s0, s1, _) := cellValues s n t gx gy c (fun j => signal s n k t (.mux (.input gx gy c j)))
        (signal s n k t (.carryTo gx gy c))
      let (xo, yo) := cellOut x y s0 s1 (configOn s t (.sum gx gy c))
      if o = 0 then xo else yo
    | .carryFrom gx gy c =>
      (cellValues s n t gx gy c (fun j => signal s n k t (.mux (.input gx gy c j))) (signal s n k t (.carryTo gx gy c))).2.2.2.2
    | .carryTo gx gy (c + 1) => signal s n k t (.carryFrom gx gy c)
    | .carryTo gx gy 0 =>
      if configOn s t (.carryLink gx gy) then
        let p : Place := ⟨t, gx, gy⟩
        let q := placeAway p 2 1
        if q = p ∨ crossesSlot s q p then false else signal s n k q.tile (.carryFrom q.gx q.gy 15)
      else if configOn s t (.carryPin gx gy) then signal s n k t (.mux (.carryIn gx gy))
      else configOn s t (.carryOne gx gy)
    | .segment gx gy dir len i =>
      let p : Place := ⟨t, gx, gy⟩
      if crossesSlot s p (segmentEnd p dir len) then false
      else if configOn s t (.wireUsed gx gy dir len i) then
        !wireHeld s p dir len i && storedBit s t (wireIndex gx gy dir len i)
      else signal s n k t (.mux (.segment gx gy dir len i))
    | .arriving gx gy dir len i back =>
      let here : Place := ⟨t, gx, gy⟩
      let p := placeAway here ((dir + 2) % 4) back
      if segmentEnd p dir len = here then signal s n k p.tile (.segment p.gx p.gy dir len i) else false
    | .memory m b i =>
      let p := (s.bmem (memKey t m)).port b
      if i < 72 then p.out.getLsbD i else if i = 72 then p.sbe else p.dbe
    | .slice m i =>
      let r := sliceRegs s t m
      !(s.tile t).setReset && if i < 64 then r.sum.getLsbD i else if i = 64 then r.wrap else r.clip
    | .abutment e i =>
      match facing t e with
      | none => Config.openSignal n t w
      | some q =>
        if (readFrame s q ((e + 2) % 4)).getLsbD i then
          if (s.tile q).isolated then configOn s t (.isolation e i) else signal s n k q (.mux (.abutment ((e + 2) % 4) i))
        else if (readFrame s t e).getLsbD i then signal s n k t (.mux (.abutment e i))
        else Config.openSignal n t w
    | .line _ => false
    | .fence => decide ((s.tile t).state = .draining)
    | .event l => s.evt.fabEvt.getLsbD (l % 16)
    | .time i => if i < 64 then (tbTick s t).testBit i else s.dev.ready.timeValid
    | .outside _ => Config.openSignal n t w

/-- More than the signals of the device. -/
def signalFuel : Nat := 2 ^ 32
def signalOf (s : State) (n t : Nat) (w : Wire) : Bool := signal s n signalFuel t w

/-! ### One instant of the clocks -/

/-- R46: a control set's clock enable and reset. -/
def setEnable (s : State) (n t gx gy cs : Nat) : Bool :=
  configOn s t (.tieEnable gx gy cs) || signalOf s n t (.mux (.enable gx gy cs))
def setReset (s : State) (n t gx gy cs : Nat) : Bool :=
  !configOn s t (.tieReset gx gy cs) && signalOf s n t (.mux (.reset gx gy cs))

/-- R45: the D input of a flip-flop. -/
def flipFlopD (s : State) (n t gx gy c ab : Nat) : Bool :=
  if configOn s t (.dPin gx gy c ab) then signalOf s n t (.mux (.input gx gy c (4 + ab)))
  else signalOf s n t (.cell gx gy c ab)

/-- R47, R48: a flip-flop after the instant. -/
def flipFlopAfter (s : State) (n : Nat) (e : Edges) (t gx gy c ab : Nat) : Bool :=
  let cs := flipFlopSet s t gx gy c ab
  let q := flipFlopValue s t gx gy c ab
  let gsr := heldReset s t gx gy cs
  if !gsr && !clockRuns s t (.clock gx gy cs) then q
  else flipFlop q (configOn s t (.init gx gy c ab)) (flipFlopD s n t gx gy c ab) gsr (configOn s t (.async gx gy cs))
    (setReset s n t gx gy cs) (setEnable s n t gx gy cs) (clockRises s e t (.clock gx gy cs))

/-- R58 to R60: the wire register of a segment after the instant; a bypassed one holds nothing. -/
def wireAfter (s : State) (n : Nat) (e : Edges) (p : Place) (dir len i : Nat) : Bool :=
  let q := segmentEnd p dir len
  configOn s p.tile (.wireUsed p.gx p.gy dir len i) &&
    wireRegister true (wireHeld s p dir len i) (clockRises s e q.tile (.clock q.gx q.gy (wireSet s p dir len i)))
      (storedBit s p.tile (wireIndex p.gx p.gy dir len i)) (signalOf s n p.tile (.mux (.segment p.gx p.gy dir len i)))

/-- R133: the slice south of slice `m` in its column, across tile edges of the die. -/
def southSlice (t m : Nat) : Option (Nat × Nat) :=
  if m % 28 ≠ 0 then some (t, m - 1) else (facing t 2).map fun q => (q, m + 27)

/-- R128, R133: the inputs of a slice; at the south edge of the die the chains bring open values, and none crosses the edge
of a span slot (R53). -/
def sliceInputs (s : State) (n t m : Nat) : SliceIn :=
  let g (lo w : Nat) : Nat := (List.range w).foldl (fun a j => a + b2n (signalOf s n t (.mux (.slice m (lo + j)))) * 2 ^ j) 0
  let chain := match southSlice t m with
    | some (q, i) => if crossesSlot s ⟨q, 0, 0⟩ ⟨t, 0, 0⟩ then ((0 : BitVec 24), (0 : BitVec 64)) else
        if (s.tile q).setReset then (0, 0) else ((sliceRegs s q i).fxc, (sliceRegs s q i).sumc)
    | none => (Config.freeValue 24 n, Config.freeValue 64 n)
  { fx := BitVec.ofNat 32 (g 0 32), fy := BitVec.ofNat 32 (g 32 32), pre := BitVec.ofNat 24 (g 64 24)
    addend := BitVec.ofNat 48 (g 88 48), op := BitVec.ofNat 3 (g 136 3), neg := g 139 1 = 1
    fxcIn := chain.1, sumcIn := chain.2 }

/-- R128 to R134: a slice after the instant. -/
def sliceAfter (s : State) (n : Nat) (e : Edges) (t m : Nat) : SliceRegs :=
  let one (i : Nat) : Bool := signalOf s n t (.mux (.slice m i))
  sliceNext (s.tile t).setReset (one 141) (one 140) (clockRises s e t (.slice m 142)) (sliceSet s t m) (sliceInputs s n t m)
    (sliceRegs s t m)

/-- R50: a control set's synchroniser after the instant: line 0 leaves set-reset on the second edge, any other clock on the
second or third (a free choice). -/
def syncAfter (s : State) (n : Nat) (e : Edges) (t gx gy cs : Nat) (v : Nat) : Nat :=
  if !clockRises s e t (.clock gx gy cs) then v
  else if v = 1 && decide (lineOf s t (.clock gx gy cs) = some 0) then 3
  else if v = 1 && Config.openSignal n t (.mux (.reset gx gy cs)) then 3
  else min 3 (v + 1)

/-- The registers of one tile after the instant, all from the state `old` before it. -/
def tileInstant (old : State) (n : Nat) (e : Edges) (t : Nat) (s : State) : State :=
  let s := groups.foldl (fun a g =>
    let a := forEach (List.range groupCells) (fun c a => forEach [0, 1] (fun ab a =>
      storeBit t (flipFlopIndex g.1 g.2 c ab) (flipFlopAfter old n e t g.1 g.2 c ab) a) a) a
    forEach (List.range 4) (fun dir a => segmentsOf.foldl (fun a x =>
      storeBit t (wireIndex g.1 g.2 dir x.1 x.2) (wireAfter old n e ⟨t, g.1, g.2⟩ dir x.1 x.2) a) a) a) s
  let s := forEach (List.range tileSlices) (fun m a => writeFrame none t (20368 + m) (sliceFrame (sliceAfter old n e t m)) a) s
  if !(old.tile t).releasing then s else
  groups.foldl (fun a g => forEach [0, 1] (fun cs a =>
    { a with fab := { a.fab with sync := tmod 0 a.fab.sync (setNumber t g.1 g.2 cs) (syncAfter old n e t g.1 g.2 cs) } }) a) s

/-- The tiles whose clocks run and to which a configuration has given something to clock. -/
def clockedTiles (s : State) : List Nat := (s.fab.tiles.filter fun e => tileClocks s e.1 && !blankTile s e.1).map (·.1)

/-- One instant of the fabric's clocks: every line that rises clocks what it drives. -/
def instant (s : State) : State :=
  let (v, s) := draw 1058 s
  let e := edgesOf v
  let n := s.free
  let old := s
  let s := forEach (clockedTiles old) (fun t a => tileInstant old n e t a) s
  { s with
    free := n + 3
    fab := { s.fab with
      halfWest := s.fab.halfWest != routingEdge old e 0
      halfEast := s.fab.halfEast != routingEdge old e 1
      sampledWest := sampleTick old e 0
      sampledEast := sampleTick old e 1 } }

/-- `k` instants. -/
def instants : Nat → State → State
  | 0, s => s
  | k + 1, s => instants k (instant s)

/-- The instants of a cycle of the timebase: how many there are is a free value (log 48). Without clocked tiles nothing
happens. -/
def fabricCycle (s : State) : State :=
  if (clockedTiles s).isEmpty then s else
  let (v, s) := draw 8 s
  instants v.toNat s

end Sys2Proof.Machine
end

