-- ==== Sys2Proof/Machine/Spans.lean ====
section
/-! DEFINITION. The span pager's events and commands (chapter 4): loads and their checks, start order, eviction and save,
and the definition of slots when FABRIC sets. -/

namespace Sys2Proof.Machine

/-! ### CRC-32 of IEEE 802.3 (R146, R155) -/

def crcBit (c : BitVec 32) : BitVec 32 := if c.getLsbD 0 then (c >>> 1) ^^^ 0xEDB88320 else c >>> 1
def crcByte (c : BitVec 32) (b : Byte) : BitVec 32 :=
  let c := c ^^^ b.zeroExtend 32
  crcBit (crcBit (crcBit (crcBit (crcBit (crcBit (crcBit (crcBit c)))))))
def crcBytes (c : BitVec 32) (l : List Byte) : BitVec 32 := l.foldl crcByte c
def frameBytes (v : BitVec 640) : List Byte := leBytes 80 v.toNat

/-! ### Port operations (R164) -/

def portQueue (s : State) (i : Nat) : List Nat := if (s.slot i).die then s.spn.eastQueue else s.spn.westQueue
def setPortQueue (i : Nat) (l : List Nat) (s : State) : State :=
  if (s.slot i).die then { s with spn := { s.spn with eastQueue := l } } else { s with spn := { s.spn with westQueue := l } }
/-- R164: among those that wait, the operation that the pager chose first comes first; the one at the head runs (log 54). -/
def insertChosen (s : State) (i : Nat) : List Nat → List Nat
  | [] => [i]
  | j :: t => if (s.slot i).chosen < (s.slot j).chosen then i :: j :: t else j :: insertChosen s i t
def enterPort (i : Nat) (s : State) : State :=
  setPortQueue i (match portQueue s i with
    | [] => [i]
    | h :: t => h :: insertChosen s i t) s
def leavePort (i : Nat) (s : State) : State := setPortQueue i ((portQueue s i).filter (· ≠ i)) s
def hasPort (s : State) (i : Nat) : Bool := (portQueue s i).head? = some i

/-- NoC cycles since the operation began (R180). -/
def opCycles (s : State) (i : Nat) : Nat := min (s.noc.cycle - (s.slot i).opStart) (2 ^ 32 - 1)

/-- R165: an event of slot `i` in the given state happens, outside HOLD (R172). -/
def inSlotState (s : State) (i : Nat) (st : SlotState) : Bool :=
  i < 64 && decide ((s.slot i).state = st) && decide (s.dev.mode ≠ .hold)

/-! ### The end of operations -/

/-- R177: STATE. -/
def slotState : SlotState → Nat
  | .disabled => 0 | .empty => 1 | .waitGrant => 2 | .loading => 3 | .starting => 4 | .resident => 5 | .draining => 6
  | .saving => 7 | .wiping => 8

/-- R165: a shutdown or wipe ends: EMPTY or DISABLED. -/
def slotEnd (i : Nat) (s : State) : State :=
  let s := leavePort i s
  let s := s.modSlot i fun x =>
    let on := x.enabled || x.pendingEnable
    { x with state := if on then .empty else .disabled, enabled := on, pendingEnable := false, pers := 0
             headerOk := false, idle := false, resExpired := false }
  let st := leBytes 1 (slotState (s.slot i).state)
  let s := finishIf (fun t => t.opcode = 0x0504 && t.obj = i) (fun _ => stOk) (fun _ => false) st s
  evaluate i (finish 0x0506 i stOk [] s)

/-- R165, R142: the slot's clocks stop and the span hold stands: the wires the slot drives present their isolation values.
Registers still under span set-reset keep what it gave them (R143). -/
def holdSlot (i : Nat) (s : State) : State :=
  forEach (slotTiles (s.slot i)) (fun t a => (if (a.tile t).setReset then loadInit t a else a).modTile t fun y =>
    { y with state := .off, spanHold := true, isolated := true, writesOn := false, setReset := false, releasing := false
             credits := 0, owed := 0 })
    (s.modSlot i fun x => { x with hold := true, setReset := false, outDone := false, rstDone := false })

/-- R154: an abort: the personality is blocked, its commands answered, and what was written is wiped. -/
def abortLoad (i code frame status : Nat) (s : State) : State :=
  let p := (s.slot i).pers
  let s := s.modSlot i fun x => { x with state := .wiping, errCode := code, errFrame := frame, wipeAbort := true }
  let s := finish 0x0505 p status [] (s.modPers p fun x => { x with blocked := true, asked := false })
  refreshPers p s

/-- R165: the credits of a load have come. -/
def slotGranted (i : Nat) (s : State) : State :=
  enterPort i (s.modSlot i fun x =>
    { x with state := .loading, opStart := s.noc.cycle, headerOk := false, nextFrame := 0, wipeAbort := false, imgPos := 0x200
             imgLeft := 0 })

/-! ### Loads (R146 to R158, R170) -/

/-- R153 HEADER: the stored header still matches the descriptor, the slot and the INTERFACE_ID. -/
def headerMatches (s : State) (i : Nat) (h : SpanHeader) : Bool :=
  let x := s.slot i
  let p := s.pers x.pers
  h.kind = 0x5350414E && h.version = 1 && h.persId = x.pers && h.homeSlot = i && h.tiles = tileCount x
    && h.tiles = p.tiles && h.startOrder = p.startOrder && h.spanCredits = p.spanCredits && h.stateless == p.stateless
    && h.pllMask = p.pllMask && h.frameCount = 19712 * h.tiles && h.interfaceId = x.interfaceId
    && h.interfaceId = p.interfaceId && h.zeroOk

/-- R170: the stored header is read and checked; the frame stream starts. A fresh load asserts span set-reset (R143). FRAME
of a DRAM_RESP here is 0, no frame being due yet (DESIGN CHOICE, log 146). -/
def execSpanHeaderChecked (i : Nat) (upset : List (Nat × BitVec 640)) (acts : Bool) (s : State) :
    Host.Outcome State Fault Refusal :=
  effect (when (inSlotState s i .loading && !(s.slot i).headerOk && hasPort s i) fun s =>
    let p := s.pers (s.slot i).pers
    let ((code, b), s) := storeRead upset acts (blockParts p.imageAddr 512) s
    let h := spanHeaderOf b
    if code ≠ rOk then abortLoad i 0x08 0 (statusOf code) s
    else if !headerMatches s i h then abortLoad i 0x05 0 stIntegrity s
    else
      let restore := p.stateValid && !p.stateless
      let s := s.modSlot i fun x =>
        { x with headerOk := true, restore, tileCrc := h.tileCrc, crc := BitVec.allOnes 32, setReset := !restore }
      forEach (slotTiles (s.slot i)) (fun t a => a.modTile t fun y => { y with setReset := !restore, releasing := false }) s) s

/-- R157: frames of a tile that a load writes. -/
def framesPerTile (x : Slot) : Nat := if x.restore then 20480 else 19712
/-- R147, R157: the frame address due next. -/
def dueFrame (x : Slot) : Option Nat :=
  ((slotTiles x)[x.nextFrame / framesPerTile x]?).map fun t => frameKey t (x.nextFrame % framesPerTile x)

/-- R153: ABUT_DIR and ABUT_BOTH on a driver-enable frame: edge `e` of tile `t`; 0 for none. -/
def abutCheck (s : State) (i t e : Nat) (v : BitVec 640) : Nat :=
  let x := s.slot i
  let en := v.truncate 512
  match facing t e with
  | none => if en ≠ 0 then 3 else 0
  | some n =>
    if (slotTiles x).contains n then
      if n < t ∧ en &&& (readFrame s n ((e + 2) % 4)).truncate 512 ≠ 0 then 4 else 0
    else if en &&& ~~~ (tget 0 x.dirs (4 * t + e)) ≠ 0 then 3 else 0

/-- R153: the first check that a frame fails, 0 for none. -/
def frameCheck (s : State) (i addr : Nat) (v : BitVec 640) : Nat :=
  let x := s.slot i
  let t := addr / 2 ^ 15
  let k := addr % 2 ^ 15
  if !(slotTiles x).contains t ∨ 20480 ≤ k then 1
  else if dueFrame x ≠ some addr then 2
  else if k < 4 then abutCheck s i t k v
  else 0

/-- R153: CRC checks: with the last image frame of a tile (fresh loads, log 49) and its last state frame. -/
def crcCheck (x : Slot) (k tileIdx : Nat) (c : BitVec 32) (stateCrc : Nat) : Nat :=
  if !x.restore ∧ k = 19711 ∧ (~~~ c).toNat ≠ lget 0 x.tileCrc tileIdx then 6
  else if x.restore ∧ k = 20479 ∧ (~~~ c).toNat ≠ stateCrc then 7 else 0

/-- R165: the last frame is written: STARTING; 8 credits return. In a fresh span set-reset stands, so that flip-flops hold
INIT and wire and slice registers 0 (R143). -/
def startSpan (i : Nat) (s : State) : State :=
  let s := if (s.slot i).restore then s else forEach (slotTiles (s.slot i)) loadInit s
  giveBack kSlot i 8 (leavePort i (s.modSlot i fun x =>
    { x with state := .starting, step := 0, clkLeft := 0, outDone := false, rstDone := false }))

/-- R148, R155: the bytes of a tile in the state area, and of its frames. -/
def stateStride : Nat := 553024
def stateFrames : Nat := 552960

/-- R157: the next frame: logic frames, and in a fresh load content frames, from the image; in a restore content and state
frames from the state area. -/
def readDue (upset : List (Nat × BitVec 640)) (acts : Bool) (i : Nat) (s : State) : Fetch × Nat × BitVec 640 × State :=
  let x := s.slot i
  let p := s.pers x.pers
  let per := framesPerTile x
  let k := x.nextFrame % per
  if x.restore && 13568 ≤ k then
    let ((code, d), s) :=
      storeRead upset acts (blockParts (p.stateAddr + stateStride * (x.nextFrame / per) + 80 * (k - 13568)) 80) s
    if code ≠ rOk then (.refused code, 0, 0, s) else (.frame, (dueFrame x).getD 0, BitVec.ofNat 640 (ofLe d), s)
  else
    match (if x.restore && k = 0 && x.nextFrame ≠ 0 then skipImage upset acts i 6144 s else (.frame, s)) with
    | (.frame, s) => imageFrame upset acts i s
    | (f, s) => (f, 0, 0, s)

/-- R153: the CRC that a tile's state record holds, read with the tile's last state frame of a restore. -/
def readStateCrc (upset : List (Nat × BitVec 640)) (acts : Bool) (i : Nat) (s : State) : (Nat × Nat) × State :=
  let x := s.slot i
  if x.restore && x.nextFrame % framesPerTile x = 20479 then
    let ((code, d), s) := storeRead upset acts (blockParts ((s.pers x.pers).stateAddr
      + stateStride * (x.nextFrame / framesPerTile x) + stateFrames) 64) s
    ((code, leAt d 0 4), s)
  else ((rOk, 0), s)

/-- R153: a frame that passed its checks is written, and the stream goes on. -/
def writeDue (i addr : Nat) (v : BitVec 640) (c : BitVec 32) (mems : List MemSetting) (s : State) : State :=
  let x := s.slot i
  let k := addr % 2 ^ 15
  let s := setMems (addr / 2 ^ 15) (if k < 13568 then mems else [])
    (writeFrame (if x.restore then some x.pers else none) (addr / 2 ^ 15) k v s)
  let s := s.modSlot i fun x => { x with crc := c, nextFrame := x.nextFrame + 1 }
  if framesPerTile x * tileCount x ≤ x.nextFrame + 1 then startSpan i s else s

/-- R153: a frame of the stream is read, checked and written; `mems` is what a logic frame configures. The read meets `upset`
and `acts`, that of the state record `crcUpset` and `crcActs`. -/
def spanFrame (i : Nat) (upset : List (Nat × BitVec 640)) (acts : Bool) (crcUpset : List (Nat × BitVec 640)) (crcActs : Bool)
    (mems : List MemSetting) (s : State) : State :=
  let due := (dueFrame (s.slot i)).getD 0
  match readDue upset acts i s with
  | (.refused code, _, _, s) => abortLoad i 0x08 due (statusOf code) s
  | (.order, _, _, s) => abortLoad i 0x02 due stIntegrity s
  | (.frame, addr, v, s) =>
    let x := s.slot i
    let k := addr % 2 ^ 15
    let bad := frameCheck s i addr v
    if bad ≠ 0 then abortLoad i bad addr stIntegrity s else
    let start := k = 0 ∨ (x.restore ∧ k = 13568)
    let c := crcBytes (if start then BitVec.allOnes 32 else x.crc) (frameBytes v)
    let ((code, stateCrc), s) := readStateCrc crcUpset crcActs i s
    if code ≠ rOk then abortLoad i 0x08 addr (statusOf code) s else
    let bad := crcCheck x k (x.nextFrame / framesPerTile x) c stateCrc
    if bad ≠ 0 then abortLoad i bad addr stIntegrity s else writeDue i addr v c mems s

def execSpanFrame (i : Nat) (upset : List (Nat × BitVec 640)) (acts : Bool) (crcUpset : List (Nat × BitVec 640))
    (crcActs : Bool) (mems : List MemSetting) (s : State) : Host.Outcome State Fault Refusal :=
  effect (when (inSlotState s i .loading && (s.slot i).headerOk && hasPort s i)
    (spanFrame i upset acts crcUpset crcActs mems)) s

/-! ### Start order (R150 to R152) -/

/-- R165: the last step is complete. -/
def becomeResident (i : Nat) (s : State) : State :=
  let p := (s.slot i).pers
  let cycles := opCycles s i
  let s := s.modSlot i fun x =>
    { x with state := .resident, hold := false, loaded := true, idle := false, resExpired := false
             loadCycles := cycles, loads := satAdd 64 x.loads 1 }
  let s := slotEvent i (pauseQueues p false s)
  refreshPers p (finish 0x0505 p stOk [] (s.modPers p fun x => { x with asked := false }))

/-- A step is complete. -/
def stepDone (i : Nat) (s : State) : State :=
  let s := s.modSlot i fun x => { x with step := x.step + 1 }
  if 4 ≤ (s.slot i).step then becomeResident i s else s

/-- R151: the ports go live once OUT and RST have run. -/
def maybeLive (i : Nat) (s : State) : State :=
  if (s.slot i).outDone ∧ (s.slot i).rstDone then
    forEach (slotTiles (s.slot i)) (fun t a => a.modTile t fun y => openPort { y with spanHold := false, fence := false }) s
  else s

/-- R150, R550: one stage of the CLK step: the next tile's clocks run. -/
def slotStage (i : Nat) (s : State) : State :=
  let x := s.slot i
  if x.state ≠ .starting ∨ x.clkLeft = 0 then s else
  let s := match (slotTiles x)[tileCount x - x.clkLeft]? with
    | some t => s.modTile t fun y => { y with state := .on }
    | none => s
  let s := s.modSlot i fun x => { x with clkLeft := x.clkLeft - 1 }
  if x.clkLeft = 1 then stepDone i s else s

/-- R150: a step of START_ORDER begins; CLK waits until every PLL of PLL_MASK is locked, then starts its tiles stage by
stage (R168, R550). -/
def execSpanStartStep (i : Nat) (s : State) : Host.Outcome State Fault Refusal :=
  effect (when (inSlotState s i .starting && (s.slot i).clkLeft = 0 && (s.slot i).step < 4) fun s =>
    let x := s.slot i
    let p := s.pers x.pers
    let tiles := slotTiles x
    match bits p.startOrder (2 * x.step) 2 with
    | 0 =>
      if (List.range 24).all (fun n => !bit p.pllMask n || (s.pll n).lock) then
        { s.modSlot i (fun x => { x with clkLeft := tiles.length }) with
          gov := { s.gov with stages := s.gov.stages ++ [⟨kSlot, i, tiles.length, p.spanCredits, tiles.length⟩] } }
      else s
    | 1 =>
      let s := forEach tiles (fun t a => a.modTile t fun y => { y with isolated := false }) s
      stepDone i (maybeLive i (s.modSlot i fun x => { x with outDone := true }))
    | 2 =>
      let s := if x.restore then s else forEach tiles releaseTile s
      let s := s.modSlot i fun x => { x with rstDone := true, setReset := false }
      stepDone i (maybeLive i s)
    | _ => stepDone i (forEach tiles (fun t a => a.modTile t fun y => { y with writesOn := true }) s)) s

/-! ### Timers and eviction (R162 to R166, R171) -/

def execSpanIdleTimer (i : Nat) (s : State) : Host.Outcome State Fault Refusal :=
  effect (when ((inSlotState s i .resident || inSlotState s i .starting) && idleNow s i) fun s =>
    evaluate i (s.modSlot i fun x => { x with idle := true })) s

def execSpanMaxResExpiry (i : Nat) (s : State) : Host.Outcome State Fault Refusal :=
  effect (when (inSlotState s i .resident && (s.pers (s.slot i).pers).maxRes ≠ 0) fun s =>
    evaluate i (s.modSlot i fun x => { x with resExpired := true })) s

/-- R165: all the slot's ports are idle: the span hold is asserted and the save starts. -/
def execSpanDrainIdle (i : Nat) (s : State) : Host.Outcome State Fault Refusal :=
  effect (when (inSlotState s i .draining && (slotTiles (s.slot i)).all (fun t => portIdle (s.tile t))) fun s =>
    let s := holdSlot i s
    if (s.pers (s.slot i).pers).stateless then
      slotEvent i (slotEnd i (giveBackAll kSlot i (s.modSlot i fun x => { x with evicted := true })))
    else
      let s := giveBack kSlot i (heldBy s kSlot i - 8) s
      enterPort i (s.modSlot i fun x => { x with state := .saving, opStart := s.noc.cycle })) s

/-- R165, R166: the drain is refused. -/
def execSpanDrainTimeout (i : Nat) (s : State) : Host.Outcome State Fault Refusal :=
  effect (when (inSlotState s i .draining) fun s =>
    let p := (s.slot i).pers
    let s := forEach (slotTiles (s.slot i)) (fun t a => a.modTile t fun y => resumeCredits { y with state := .on, fence := false }) s
    let s := pauseQueues p false (s.modSlot i fun x =>
      { x with state := .resident, enabled := true, pendingEnable := false, busyRefused := true, idle := false
               resExpired := false })
    let st := leBytes 1 (slotState .resident)
    let s := finishArg 0x0504 i (· = 1) stOk st (finishArg 0x0504 i (· = 0) stBusy st s)
    let s := finish 0x0505 p stOk [] (s.modPers p fun x => { x with asked := false })
    refreshPers p (slotEvent i (finish 0x0506 i stBusy [] s))) s

/-- R155, R156: the bytes saved of one tile: content frames through the checkers, state frames as captured. -/
def savedFrame (s : State) (t k : Nat) : BitVec 640 :=
  if k < 19712 then
    let m := memKey t ((k - 13568) / 128)
    let w := 8 * ((k - 13568) % 128)
    (List.range 8).foldl (fun acc j =>
      let x := s.bword (wordKey m (w + j))
      let x := if (s.bmem m).ecc && decide (flipKind x.flips = 1) then { data := correctedData x } else x
      acc ||| ((bitsOfWord (s.bmem m).ecc x).zeroExtend 640) <<< (72 * j)) 0
  else readFrame s t k

/-- R156: errors that the capture meets are reported. -/
def captureErrors (t : Nat) (s : State) : State :=
  ((s.fab.words.filter fun e => e.1 / 1024 / 48 = t && decide (e.2.flips ≠ 0))).foldl (fun a e =>
    (checkWord (e.1 / 1024) (e.1 % 1024) 3 a).2) s

/-- R156: what a word of the slot was saved as when it was uncorrectable, so that a restore leaves it so. -/
def noteCaptured (p t : Nat) (s : State) : State :=
  let lost := s.fab.words.filter fun e => decide (e.1 / 1024 / 48 = t) && decide (2 ≤ flipKind e.2.flips)
  let kept := tdrop {} (fun k => decide (k / 2 ^ 23 = p) && decide (k % 2 ^ 23 / 1024 / 48 = t)) s.fab.captured
  { s with fab := { s.fab with captured := lost.foldl (fun c e => tset {} c (p * 2 ^ 23 + e.1) e.2) kept } }

/-- R155: the record after a tile's frames: CRC at 0, tick count at 4, personality at 12, sequence number at 14, the rest
zero. R155 gives no offsets; the first sequence number is 1, and the tick is that of the save's last write for every tile
(DESIGN CHOICE, log 147). -/
def saveRecord (p : Nat) (s : State) (frames : List Byte) : List Byte :=
  leBytes 4 (~~~ crcBytes (BitVec.allOnes 32) frames).toNat ++ leBytes 8 s.now ++ leBytes 2 p
    ++ leBytes 4 (s.pers p).saveSeq.toNat ++ leBytes 46 0

/-- R155: the content and state frames of a tile. -/
def savedFrames (s : State) (t : Nat) : List Byte := (List.range 6912).flatMap fun k => frameBytes (savedFrame s t (13568 + k))

/-- R149, R155: the first `n` frames of a tile's save, and with all 6,912 of them its record: the first response other than
OK, and the state. -/
def saveTile (p j t n : Nat) (s : State) : Nat × State :=
  let frames := savedFrames s t
  let data := if n < 6912 then frames.take (80 * n) else frames ++ saveRecord p s frames
  let base := (s.pers p).stateAddr + stateStride * j
  storeWrite data base (blockParts base data.length) (noteCaptured p t (captureErrors t s))

/-- R155: the save of the first `n` frames of a slot (6,912 a tile), as far as every write is answered OK. -/
def saveTiles (p n : Nat) : Nat → List Nat → State → Nat × State
  | _, [], s => (rOk, s)
  | j, t :: ts, s =>
    if n ≤ 6912 * j then (rOk, s) else
    let (code, s) := saveTile p j t (n - 6912 * j) s
    if code ≠ rOk then (code, s) else saveTiles p n (j + 1) ts s

/-- R155: a save makes the next sequence number. -/
def startSave (p : Nat) (s : State) : State := s.modPers p fun x => { x with saveSeq := x.saveSeq + 1, saveTick := s.now }

/-- R165: SAVE_FAIL: the state is lost and the personality blocked. -/
def saveFailed (i frame : Nat) (s : State) : State :=
  let p := (s.slot i).pers
  let cycles := opCycles s i
  let s := s.modPers p fun x => { x with stateValid := false, stateLost := true, blocked := true, asked := false }
  let s := giveBackAll kSlot i (s.modSlot i fun x =>
    { x with stateLost := true, errCode := 0x09, errFrame := frame, saveCycles := cycles })
  slotEvent i (slotEnd i (refreshPers p (finish 0x0505 p stIntegrity [] s)))

/-- R165: the state is written: STATE_VALID sets. -/
def saveEnded (i : Nat) (s : State) : State :=
  let cycles := opCycles s i
  let s := s.modPers (s.slot i).pers fun x => { x with stateValid := true }
  slotEvent i (slotEnd i (giveBackAll kSlot i (s.modSlot i fun x => { x with evicted := true, saveCycles := cycles })))

/-- Upsets, by word, that strike the block memories of a slot before their words are captured (R156). -/
def upsetSlot (i : Nat) (upset : List (Nat × BitVec 72)) (s : State) : State :=
  upset.foldl (fun a e => if (slotTiles (s.slot i)).contains (e.1 / 1024 / 48) then
    upsetWord (e.1 / 1024) (e.1 % 1024) e.2 a else a) s

/-- R155, R165: the last write of the save has been answered. One answered other than OK fails it, FRAME naming the slot's
last frame, since which write was refused is not told (log 146). -/
def execSpanSaveDone (i : Nat) (upset : List (Nat × BitVec 72)) (s : State) : Host.Outcome State Fault Refusal :=
  effect (when (inSlotState s i .saving && hasPort s i) fun s =>
    let p := (s.slot i).pers
    let tiles := slotTiles (s.slot i)
    let (code, s) := saveTiles p (6912 * tiles.length) 0 tiles (startSave p (upsetSlot i upset s))
    if s.dev.mode = .hold then s
    else if code ≠ rOk then saveFailed i (frameKey (tiles.getLastD 0) 20479) s
    else saveEnded i s) s

/-- R165: the write of frame `n` of the save (6,912 a tile) is answered other than OK; those before it stand. -/
def execSpanSaveFail (x : SaveRefusal) (s : State) : Host.Outcome State Fault Refusal :=
  let i := x.slot
  let n := x.frame
  effect (when (inSlotState s i .saving && hasPort s i && decide (n < 6912 * tileCount (s.slot i))) fun s =>
    let p := (s.slot i).pers
    let tiles := slotTiles (s.slot i)
    let s := (saveTiles p n 0 tiles (startSave p s)).2
    if s.dev.mode = .hold then s
    else saveFailed i (frameKey (lget 0 tiles (n / 6912)) (13568 + n % 6912)) s) s

/-- R154: every frame that the load wrote has been wiped. ABORTED sets, and the event is raised, here: the spec does not say
when (DESIGN CHOICE, log 148). -/
def execSpanWipeDone (i : Nat) (s : State) : Host.Outcome State Fault Refusal :=
  effect (when (inSlotState s i .wiping && (hasPort s i || (s.slot i).nextFrame = 0)) fun s =>
    let x := s.slot i
    let per := framesPerTile x
    let s := forEach (List.range (tileCount x)) (fun j a =>
      wipeFrames (lget 0 (slotTiles x) j) 0 (min per (x.nextFrame - per * j)) a) s
    let s := holdSlot i (giveBackAll kSlot i (s.modSlot i fun x => { x with nextFrame := 0 }))
    if x.wipeAbort then slotEvent i (slotEnd i (s.modSlot i fun x => { x with aborted := true })) else slotEnd i s) s

/-! ### The definition of slots (R138, R139) -/

/-- A SLOT_TABLE section: the slots are known, and defined once FABRIC sets. -/
def slotTable (base size : Nat) (rs : List SlotRecord) (s : State) : State :=
  let s := { s with spn := { s.spn with storeBase := base, storeSize := size } }
  rs.foldl (fun a r => if r.slotId < 64 then a.modSlot r.slotId fun x =>
    { x with listed := true, die := r.die, col0 := r.col0, row0 := r.row0, col1 := r.col1, row1 := r.row1, initEnable := r.initEnable
             interfaceId := r.interfaceId, evictIdle := r.evictIdle, idleTime := r.idleTime
             dirs := r.dirs.foldl (fun d e => tset 0 d (4 * e.1 + e.2.1) e.2.2) [], defined := false, hold := true } else a) s

/-- R135, R137, R138: the slot table as the loader checks it. -/
def slotTableOk (base size : Nat) (rs : List SlotRecord) (s : State) : Bool :=
  let ids := rs.map (·.slotId)
  let slots := s.spn.slots.filter (·.2.listed)
  base % 4096 = 0 && size % 4096 = 0
    && rs.all (fun r => r.slotId < 64 && ids.count r.slotId = 1 && r.col0 ≤ r.col1 && r.row0 ≤ r.row1 && r.row1 < 8
      && (if r.die then 6 ≤ r.col0 && r.col1 < 12 else r.col1 < 6))
    && slots.all (fun a => slots.all fun b => a.1 = b.1 ||
      (slotTiles a.2).all fun t => !(slotTiles b.2).contains t && (List.range 4).all fun e =>
        match facing t e with
        | none => true
        | some n => !(slotTiles b.2).contains n ||
            decide (tget 0 a.2.dirs (4 * t + e) &&& tget 0 b.2.dirs (4 * n + (e + 2) % 4) = 0))

/-- R139: FABRIC has set: every slot of the table is defined, under the span hold. -/
def defineSlots (s : State) : State :=
  let slots := s.spn.slots
  let s := { s with spn := { s.spn with
    live := true
    slots := tmap {} (fun _ x => if x.listed then { x with
      defined := true, enabled := x.initEnable, state := if x.initEnable then .empty else .disabled } else x) slots } }
  (slots.filter (·.2.listed)).foldl (fun a e => forEach (slotTiles e.2) (fun t b => b.modTile t fun y =>
    { y with spanOwned := true, spanHold := true, isolated := true }) a) s

/-! ### Commands (R180) -/

/-- R135, R148: two areas overlap. -/
def overlap (a la b lb : Nat) : Bool := a < b + lb && b < a + la
def stateLen (tiles : Nat) : Nat := tiles * stateStride
def inStore (s : State) (a len : Nat) : Bool := s.spn.storeBase ≤ a && a + len ≤ s.spn.storeBase + s.spn.storeSize

/-- R146, R150: each step code appears once. -/
def orderOk (o : Nat) : Bool := (List.range 4).all fun c => (List.range 4).any fun k => bits o (2 * k) 2 = c

/-- R180: the lowest REASON that applies to an install. -/
def installReason (s : State) (pers : Nat) (h : SpanHeader) (imageAddr len stateAddr : Nat) : Nat :=
  let x := s.slot h.homeSlot
  let others := s.spn.pers.filter fun e => e.2.installed && e.1 ≠ pers
  if 64 ≤ h.homeSlot ∨ !x.defined then 1
  else if h.kind ≠ 0x5350414E ∨ h.version ≠ 1 ∨ h.persId ≠ pers ∨ h.tiles ≠ tileCount x ∨ h.interfaceId ≠ x.interfaceId
    ∨ h.frameCount ≠ 19712 * h.tiles ∨ !h.zeroOk then 2
  else if !inStore s imageAddr len ∨ !inStore s stateAddr (stateLen h.tiles) ∨ overlap imageAddr len stateAddr (stateLen h.tiles)
    ∨ others.any (fun e =>
      overlap imageAddr len e.2.imageAddr e.2.imageLen || overlap imageAddr len e.2.stateAddr (stateLen e.2.tiles)
        || overlap stateAddr (stateLen h.tiles) e.2.imageAddr e.2.imageLen
        || overlap stateAddr (stateLen h.tiles) e.2.stateAddr (stateLen e.2.tiles)) then 3
  else if (List.range 32).any (fun n => bit h.pllMask n && (24 ≤ n || decide (6 ≤ n / 2) != x.die)) then 4
  else if !orderOk (h.startOrder % 256) ∨ 256 ≤ h.startOrder then 5
  else if h.spanCredits < 16 * h.tiles ∨ 32 * h.tiles < h.spanCredits then 6 else 0

/-- R574: the section table: alignment, ascending order without overlap, the end within TOTAL_LEN. -/
def tableOk (h : Header) : Bool :=
  let rec rising (lo : Nat) : List SectionEntry → Bool
    | [] => lo ≤ h.totalLen
    | e :: t => e.zeroOk && e.offset % 64 = 0 && lo ≤ e.offset && rising (e.offset + e.length) t
  h.sectionCount = h.sections.length && 1 ≤ h.sectionCount && h.sectionCount ≤ (if h.version = 1 then 8 else 16)
    && rising h.headerLen h.sections

/-- R575, R637: kinds in the order given, each at most once. -/
def kindsInOrder : List Nat → List Nat → Bool
  | [], _ => true
  | _ :: _, [] => false
  | k :: ks, o :: os => if k = o then kindsInOrder ks os else kindsInOrder (k :: ks) os

/-- R575, R637, R638, R581: the sections a container of kind 0 firmware, 1 base or 2 span must hold. -/
def sectionsOk (kind : Nat) (h : Header) : Bool :=
  let ks := h.sections.map (·.kind)
  if kind = 2 then h.frameCount = 0 && h.startOrder = 0 && ks.all (· = 0x20)
  else if kind = 0 then
    h.frameCount = 0 && h.startOrder = 0 && kindsInOrder ks [1, 3, 4] && ks.contains 1 && ks.contains 4
      && h.sections.all (fun e => (e.kind ≠ 1 || e.length ≤ 1536 * 1024) && (e.kind ≠ 4 || e.length = 64))
  else
    kindsInOrder ks [0x02, 0x03, 0x13, 0x14, 0x15, 0x12, 0x10] && [0x03, 0x13, 0x14, 0x15, 0x10].all (fun k => ks.contains k)
      && h.frameCount % 19712 = 0 && orderOk (h.startOrder % 256) && h.startOrder < 256

/-- R577 to R579: the code of the first check that a container's header fails, 0 for none. -/
def headerCode (kind : Nat) (s : State) (h : Header) : Nat :=
  let life := lifecycle s.fuse
  let required := life ≠ 0
  let v1 := decide (h.version = 1) && decide (h.headerLen = 0x400) && s.boot.giturV1 && !h.unitBound
  let v2 := decide (h.version = 2) && decide (h.headerLen = 0x600)
  if h.magic ≠ 0x52555447 ∨ !(v1 || v2) ∨ !h.zeroOk ∨ h.totalLen < h.headerLen then 0x02
  else if h.deviceType ≠ 0x00EF0960 then 0x03
  else if h.unitBound ∧ h.unitId ≠ s.fuse.unitId.toNat then 0x04
  else if h.signed ∧ ((s.fuse.keyFused ∧ h.keyHash ≠ s.fuse.ownerKey) ∨ (required ∧ !s.fuse.keyFused)) then 0x05
  else if (required ∧ !h.signed) ∨ (h.signed ∧ !h.sigOk) then 0x06
  else if life = 2 ∧ h.debug then 0x07
  else if !tableOk h ∨ !sectionsOk kind h then 0x08
  else 0

/-- R148: the header and length of the span section that a staged container brings: of several, the first (DESIGN CHOICE,
log 149). -/
def stagedSpan (s : State) (addr : Nat) (h : Header) : Option (SpanHeader × SectionEntry) :=
  (h.sections.find? fun e => e.kind = 0x20).map fun e => (spanHeaderOf (peekBytes s (addr + e.offset) 512), e)

/-- R148: the section is copied to the image area and the descriptor recorded. -/
def installPers (pers maxRes depth src imageAddr stateAddr len : Nat) (h : SpanHeader) (s : State) : State :=
  refreshPers pers ((copyBytes src imageAddr len s).modPers pers fun x =>
    { x with installed := true, homeSlot := h.homeSlot, stateless := h.stateless, pinned := false, blocked := false
             stateValid := false, stateLost := false, spanCredits := h.spanCredits, maxRes, demandDepth := depth
             imageAddr, stateAddr, startOrder := h.startOrder, pllMask := h.pllMask, interfaceId := h.interfaceId
             tiles := h.tiles, imageLen := len })

/-- 0x0501, R148, in the order of R689: the fields with REASON, readiness, state, then access, signature and digests. The
container ends within STAGE_LEN. PENDING and the final response come in one step (log 150). -/
def spanPersInstallCmd (mbx pers maxRes depth stageAddr stageLen imageAddr stateAddr : Nat) (st : Staged) (s : State) :
    State × Reply :=
  let h := stagedHeader s stageAddr st
  match stagedSpan s stageAddr h with
  | none => checks [(decide (1023 < pers), stBadArg), (!s.dev.ready.spanPager, stNotReady), ((operatedIn s pers).isSome, stWrong)]
      (fun s =>
        let (code, s) := rangeAccess (mbxClass mbx) true false stageAddr stageLen s
        if code ≠ rOk then fail (statusOf code) s else fail stIntegrity s) s
  | some (x, e) =>
    let why := installReason s pers x imageAddr e.length stateAddr
    if 1023 < pers then fail stBadArg s
    else if s.spn.live && decide (why ≠ 0) then (s, .done stBadArg (leBytes 1 why))
    else checks [(!s.dev.ready.spanPager, stNotReady), ((operatedIn s pers).isSome, stWrong)]
      (fun s =>
        let (code, s) := rangeAccess (mbxClass mbx) true false stageAddr stageLen s
        if code ≠ rOk then fail (statusOf code) s
        else if headerCode 2 s h ≠ 0 ∨ stageLen < h.totalLen ∨ !st.digestsOk then fail stIntegrity s
        else (installPers pers maxRes depth (stageAddr + e.offset) imageAddr stateAddr e.length x s,
          .pend stOk (leBytes 1 0))) s

def execSpanPersInstall (q : CmdCtx) (pers maxRes depth stageAddr stageLen imageAddr stateAddr : Nat) (st : Staged)
    (s : State) : Host.Outcome State Fault Refusal :=
  effect (command q 0x0501 (payloadAt 40 [(0, 2, pers), (2, 2, maxRes), (4, 2, depth), (8, 8, stageAddr), (16, 4, stageLen),
      (24, 8, imageAddr), (32, 8, stateAddr)])
    (spanPersInstallCmd q.mbx (u16 pers) (u16 maxRes) (u16 depth) (u64 stageAddr) (u32 stageLen) (u64 imageAddr)
      (u64 stateAddr) st)) s

/-- 0x0502, R181. -/
def spanPersGetCmd (pers : Nat) (s : State) : State × Reply :=
  checks [(decide (1023 < pers), stBadArg), (!s.dev.ready.spanPager, stNotReady)] (fun s =>
    let x := s.pers pers
    let flags := b2n x.installed + flag x.stateless 1 + flag x.pinned 2 + flag x.blocked 3 + flag x.stateValid 4
      + flag x.stateLost 5 + flag (residentNow s pers) 6 + flag x.inDemand 7
    okWith (payloadAt 40 [(0, 2, pers), (2, 1, x.homeSlot), (3, 1, flags), (4, 2, x.spanCredits), (6, 2, x.maxRes),
      (8, 2, x.demandDepth), (10, 2, min (boundTo s pers).length 0xFFFF), (16, 8, x.age), (24, 8, x.imageAddr),
      (32, 8, x.stateAddr)]) s) s

def execSpanPersGet (q : CmdCtx) (pers : Nat) (s : State) : Host.Outcome State Fault Refusal :=
  effect (command q 0x0502 (leBytes 2 pers) (spanPersGetCmd (u16 pers))) s

/-- 0x0503, R159, R160. -/
def spanBindCmd (queue pers : Nat) (s : State) : State × Reply :=
  let x := s.queue queue
  checks [(1023 < pers && pers ≠ 0xFFFF, stBadArg), (!s.dev.ready.spanPager, stNotReady),
      (decide (x.state = .disabled) || x.destroying || (pers ≠ 0xFFFF && !(s.pers pers).installed), stWrong)]
    (fun s =>
      let old := x.pers
      let s := s.modQueue queue fun y => { y with pers, paused := pers ≠ 0xFFFF && !residentNow s pers }
      let s := if old < 1024 then refreshPers old s else s
      ok (if pers < 1024 then refreshPers pers s else s)) s

def execSpanBind (q : CmdCtx) (queue pers : Nat) (s : State) : Host.Outcome State Fault Refusal :=
  effect (command q 0x0503 (payloadAt 4 [(0, 2, queue), (2, 2, pers)]) (spanBindCmd (u16 queue) (u16 pers))) s

/-- R139, R180: the checks of every command that names a slot: an undefined one is NOT_READY until FABRIC has set, a bad
argument after. -/
def slotChecks (s : State) (i : Nat) : List (Bool × Nat) :=
  [(decide (63 < i) || (s.spn.live && !(s.slot i).defined), stBadArg), (!s.spn.live || !s.dev.ready.spanPager, stNotReady)]

/-- R165: an enable: whether it takes effect at once. -/
def slotEnable (i : Nat) (s : State) : Bool × State :=
  let x := s.slot i
  if x.state = .disabled then (true, evaluate i (s.modSlot i fun x => { x with state := .empty, enabled := true }))
  else if x.enabled then (true, s)
  else (false, s.modSlot i fun x => { x with pendingEnable := true })

/-- R165: a disable: whether it takes effect at once. -/
def slotDisable (i : Nat) (s : State) : Bool × State :=
  let s := finishArg 0x0504 i (· = 1) stWrong (leBytes 1 (slotState (s.slot i).state)) s
  match (s.slot i).state with
  | .disabled => (true, s)
  | .empty => (true, s.modSlot i fun x => { x with state := .disabled, enabled := false })
  | .waitGrant => (true, withdraw kSlot i (s.modSlot i fun x => { x with state := .disabled, enabled := false, pers := 0 }))
  | .loading => (false, s.modSlot i fun x => { x with state := .wiping, enabled := false, wipeAbort := false })
  | .starting => (false, startDrain i (s.modSlot i fun x => { x with enabled := false }))
  | .resident => (false, startDrain i (s.modSlot i fun x => { x with enabled := false }))
  | _ => (false, s.modSlot i fun x => { x with enabled := false, pendingEnable := false })

/-- 0x0504. -/
def spanSlotEnableCmd (i en : Nat) (s : State) : State × Reply :=
  checks ((decide (1 < en), stBadArg) :: slotChecks s i) (fun s =>
    let (now, s) := if en = 1 then slotEnable i s else slotDisable i s
    if now then okWith (leBytes 1 (slotState (s.slot i).state)) s else (s, .wait [] i en)) s

def execSpanSlotEnable (q : CmdCtx) (i en : Nat) (s : State) : Host.Outcome State Fault Refusal :=
  effect (command q 0x0504 (payloadAt 2 [(0, 1, i), (1, 1, en)]) (spanSlotEnableCmd (u8 i) (u8 en))) s

/-- 0x0505. -/
def spanLoadCmd (pers pin : Nat) (s : State) : State × Reply :=
  checks [(1023 < pers || 1 < pin, stBadArg), (!s.dev.ready.spanPager, stNotReady),
      ((s.pers pers).blocked || !(s.pers pers).installed, stWrong)]
    (fun s =>
      let s := s.modPers pers fun x => { x with pinned := x.pinned || decide (pin = 1) }
      if residentNow s pers then (refreshPers pers s, .pend stOk [])
      else (refreshPers pers (s.modPers pers fun x => { x with asked := true }), .wait [] pers 0)) s

def execSpanLoad (q : CmdCtx) (pers pin : Nat) (s : State) : Host.Outcome State Fault Refusal :=
  effect (command q 0x0505 (payloadAt 3 [(0, 2, pers), (2, 1, pin)]) (spanLoadCmd (u16 pers) (u8 pin))) s

/-- 0x0506: a slot being filled or wiped has no eviction to begin (log 52). -/
def spanEvictCmd (i : Nat) (s : State) : State × Reply :=
  let st := (s.slot i).state
  checks (slotChecks s i ++ [(decide (st = .waitGrant) || decide (st = .loading) || decide (st = .wiping), stWrong)])
    (fun s =>
      if st = .empty ∨ st = .disabled then (s, .pend stOk [])
      else if st = .starting ∨ st = .resident then (startDrain i s, .wait [] i 0)
      else (s, .wait [] i 0)) s

def execSpanEvict (q : CmdCtx) (i : Nat) (s : State) : Host.Outcome State Fault Refusal :=
  effect (command q 0x0506 (leBytes 1 i) (spanEvictCmd (u8 i))) s

/-- 0x0507. -/
def spanUnpinCmd (pers : Nat) (s : State) : State × Reply :=
  checks [(decide (1023 < pers), stBadArg), (!s.dev.ready.spanPager, stNotReady)]
    (fun s => ok (refreshPers pers (s.modPers pers fun x => { x with pinned := false }))) s

def execSpanUnpin (q : CmdCtx) (pers : Nat) (s : State) : Host.Outcome State Fault Refusal :=
  effect (command q 0x0507 (leBytes 2 pers) (spanUnpinCmd (u16 pers))) s

/-- 0x0508. -/
def spanPersResetCmd (pers discard : Nat) (s : State) : State × Reply :=
  checks [(1023 < pers || 1 < discard, stBadArg), (!s.dev.ready.spanPager, stNotReady),
      ((operatedIn s pers).isSome, stWrong)]
    (fun s => ok (refreshPers pers (s.modPers pers fun x =>
      { x with blocked := false, stateLost := false, stateValid := x.stateValid && discard ≠ 1 }))) s

def execSpanPersReset (q : CmdCtx) (pers discard : Nat) (s : State) : Host.Outcome State Fault Refusal :=
  effect (command q 0x0508 (payloadAt 3 [(0, 2, pers), (2, 1, discard)]) (spanPersResetCmd (u16 pers) (u8 discard))) s

/-- 0x0509. -/
def spanSlotStatusCmd (i : Nat) (s : State) : State × Reply :=
  checks (slotChecks s i) (fun s =>
    let x := s.slot i
    okWith (payloadAt 24 [(0, 1, slotState x.state), (2, 2, x.pers), (4, 2, heldBy s kSlot i), (8, 4, x.loadCycles),
      (12, 4, x.saveCycles), (16, 8, x.loads)]) s) s

def execSpanSlotStatus (q : CmdCtx) (i : Nat) (s : State) : Host.Outcome State Fault Refusal :=
  effect (command q 0x0509 (leBytes 1 i) (spanSlotStatusCmd (u8 i))) s

/-- 0x050A. -/
def spanPersRemoveCmd (pers : Nat) (s : State) : State × Reply :=
  checks [(decide (1023 < pers), stBadArg), (!s.dev.ready.spanPager, stNotReady), ((operatedIn s pers).isSome, stWrong)]
    (fun s =>
      let home := (s.pers pers).homeSlot
      ok (evaluate home (finish 0x0505 pers stWrong [] (s.modPers pers fun _ => {})))) s

def execSpanPersRemove (q : CmdCtx) (pers : Nat) (s : State) : Host.Outcome State Fault Refusal :=
  effect (command q 0x050A (leBytes 2 pers) (spanPersRemoveCmd (u16 pers))) s

/-! ### Registers (R175 to R179) -/

def slotStatWord (s : State) (i : Nat) : Nat :=
  let x := s.slot i
  let best := bestOf (cand s i)
  flag best.isSome 31 + flag x.evicted 30 + flag x.stateLost 29 + flag x.aborted 28 + flag x.busyRefused 27
    + flag x.loaded 26 + flag x.pendingEnable 25 + flag x.enabled 24 + field (slotState x.state) 20 4 + field x.pers 10 10
    + (match best with
      | some e => e.1 % 1024
      | none => 0)
def slotErrWord (x : Slot) : Nat := field x.errCode 24 8 + field x.errFrame 0 22
def slotGeomWord (x : Slot) : Nat :=
  if !x.defined then 0 else
  2 ^ 31 + flag x.die 30 + field (tileCount x) 24 6 + field x.col0 20 4 + field x.row0 16 3 + field x.col1 12 4
    + field x.row1 8 3
/-- R175: the operation on a die's port. -/
def portOp (s : State) (l : List Nat) : Nat :=
  match l with
  | [] => 0
  | i :: _ => match (s.slot i).state with
    | .loading => 1
    | .saving => 2
    | .wiping => 3
    | _ => 0
/-- R175: a load counts as waiting once it is granted, a save once it is drained (DESIGN CHOICE, log 54). -/
def spnStatWord (s : State) : Nat :=
  field (s.spn.slots.filter (·.2.defined)).length 24 8 + field (s.spn.westQueue.length - 1) 16 7
    + field (s.spn.eastQueue.length - 1) 8 7 + field (portOp s s.spn.eastQueue) 2 2 + portOp s s.spn.westQueue

end Sys2Proof.Machine
end

