-- ==== Sys2Proof/Machine/Queues.lean ====
section
/-! DEFINITION. The queue manager (chapter 7): pushes and pops, stale timers, doorbells, paging, the page pool and the
queue commands. -/

namespace Sys2Proof.Machine

/-! ### Places (R278, R283, R284) -/

/-- R278: the virtual page of an index. -/
def vpage (x : Queue) (i : Nat) : Nat := x.pageBase + i / 128 % x.pageCount

/-- Pages from the head page on that hold items. -/
def heldPages (x : Queue) : Nat := if depthOf x = 0 then 0 else (x.head % 128 + depthOf x + 127) / 128

/-- How many pages virtual page `v` lies after the head page, in the ring's direction. -/
def pageAhead (x : Queue) (v : Nat) : Nat :=
  (v - x.pageBase + x.pageCount - x.head / 128 % x.pageCount) % x.pageCount

/-- A page of the ring holds an item. -/
def pageHolds (x : Queue) (v : Nat) : Bool := pageAhead x v < heldPages x

/-- R283: an entry as a word, and back. -/
def whereNum : Where → Nat
  | .none => 0 | .scratch => 1 | .dram => 2 | .moving => 3
def entryWord (e : PageEntry) : Nat :=
  field (whereNum e.whr) 62 2 + flag e.poisoned 61 + field e.queue 44 16 + field e.spage 30 14 + field e.seq 0 25
def wordEntry (w : Nat) : PageEntry :=
  if bits w 62 2 = 2 then ⟨.dram, bit w 61, bits w 44 16, bits w 30 14, bits w 0 25⟩ else {}

/-- R284: the entry is held in the cache. -/
def inCache (s : State) (v : Nat) : Bool :=
  decide ((s.page v).whr = .scratch) || decide ((s.page v).whr = .moving) || tget false s.qm.cached v

/-- R283: the word of the map that DRAM holds for a virtual page. -/
def mapWord (s : State) (v : Nat) : Nat := ofLe (peekBytes s (s.qm.mapBase + 8 * v) 8)

/-- R284: the entry of a virtual page: the cache's, else the map's in DRAM while QSPILL is set, else NONE. -/
def entryOf (s : State) (v : Nat) : PageEntry :=
  if inCache s v then s.page v
  else if s.dev.ready.qspill then
    wordEntry (mapWord s v)
  else {}

/-- R294: entries held in the cache. -/
def cacheEntries (s : State) : Nat := (s.qm.map.filter fun e => inCache s e.1).length

/-- R284: the cache writes a DRAM entry back to the map when it evicts it; which one is open (a free value). -/
def evictEntry (s : State) : State :=
  let (d, s) := draw 25 s
  let l := s.qm.cached.map (·.1)
  match l[d.toNat % l.length]? with
  | none => s
  | some v =>
    let s := pokeBytes (s.qm.mapBase + 8 * v) (leBytes 8 (entryWord (s.page v))) s
    { s with qm := { s.qm with cached := tset false s.qm.cached v false } }

/-- Set the entry of a virtual page in the cache. -/
def setEntry (v : Nat) (e : PageEntry) (s : State) : State :=
  let s := if inCache s v || cacheEntries s < 32768 then s else evictEntry s
  { s with qm := { s.qm with map := tset {} s.qm.map v e
                             cached := tset false s.qm.cached v (decide (e.whr = .dram)) } }

/-- R280, R284: the entry of a released page is NONE. Where the map still holds the entry that the cache once evicted, it is
written back at once; while QSPILL is clear the cache keeps it. -/
def clearEntry (v : Nat) (s : State) : State :=
  let stale := mapWord s v ≠ 0
  let s := if stale && s.dev.ready.qspill then pokeBytes (s.qm.mapBase + 8 * v) (leBytes 8 0) s else s
  { s with qm := { s.qm with map := tset {} s.qm.map v {}
                             cached := tset false s.qm.cached v (stale && !s.dev.ready.qspill) } }

/-- R284, R294: a lookup of the entry of a virtual page: one that reads the map counts in MISSES, and a DRAM entry it finds
there enters the cache (log 151). -/
def lookup (v : Nat) (s : State) : PageEntry × State :=
  if inCache s v || !s.dev.ready.qspill then (entryOf s v, s) else
  let e := entryOf s v
  let s := { s with qm := { s.qm with misses := satAdd 16 s.qm.misses 1 } }
  (e, if e.whr = .dram then setEntry v e s else s)

/-! ### The page pool (R279, R280) -/

/-- R280: the page taken is the lowest free one of the banks that are not being returned (log 57). -/
def freePage (s : State) : Option Nat :=
  ((List.range 256).filter fun b => s.qm.banks.getLsbD b && !s.qm.returning.getLsbD b).findSome? fun b =>
    ((List.range 64).map (64 * b + ·)).find? fun p => !tget false s.qm.used p

/-- R290: FREE_PAGES. -/
def freeCount (s : State) : Nat := poolPages s - s.qm.used.length

def usePage (p : Nat) (v : Bool) (s : State) : State := { s with qm := { s.qm with used := tset false s.qm.used p v } }

/-- A virtual page's storage is given up; a page whose spill is under way is kept until that ends. -/
def dropEntry (v : Nat) (s : State) : State :=
  let e := s.page v
  if e.whr = .moving then s else
  let s := if e.whr = .scratch then usePage e.spage false s else s
  let s := ((s.qm.copies ++ s.qm.fetches).filter (fun c => c.1 = v)).foldl (fun a c => usePage c.2 false a) s
  let s := { s with qm := { s.qm with copies := s.qm.copies.filter (fun c => c.1 ≠ v)
                                      fetches := s.qm.fetches.filter (fun c => c.1 ≠ v) } }
  clearEntry v s

/-- R280: a page is released when it holds no item and is not the page holding TAIL. -/
def releasePage (q v : Nat) (s : State) : State :=
  let x := s.queue q
  if pageHolds x v ∨ v = vpage x x.tail then s else dropEntry v s

/-- R301: every page of a queue is freed; those being spilled once that ends. -/
def freeQueuePages (q : Nat) (s : State) : State :=
  let pages := (s.qm.map.filter fun e => e.2.queue = q).map (·.1)
  forEach pages dropEntry { s with qm := { s.qm with doomed := s.qm.doomed ++
    (s.qm.map.filter fun e => e.2.queue = q && decide (e.2.whr = .moving) && !s.qm.doomed.contains e.1).map (·.1) } }

/-- R261, R300: RESIDENT. -/
def residentPages (s : State) (q : Nat) : Nat :=
  (s.qm.map.filter fun e => e.2.queue = q && (decide (e.2.whr = .scratch) || decide (e.2.whr = .moving))).length

/-! ### Push and pop (R264 to R270, R282) -/

/-- The unit of scratch that holds index `i` of a queue whose page is `spage`. -/
def itemUnit (spage i : Nat) : Nat := 128 * spage + i % 128

/-- R264: the class may push (bit 0) or pop (bit 4). -/
def mayAccess (x : Queue) (cls lo : Nat) : Bool := cls < 4 && bit x.access (lo + cls)

/-- R264 checks 8 and 9. -/
def pushFull (q : Nat) (s : State) : State :=
  queueCause q qFull (queueCount q 2 (s.modQueue q fun x => { x with fullSeen := true }))

/-- R264 check 10: the item is stored on page `spage`. -/
def storeItem (q spage : Nat) (item : BitVec 256) (s : State) : State :=
  let x := s.queue q
  let s := storeUnit (itemUnit spage x.tail) item.toNat true s
  let s := s.modQueue q fun y =>
    { y with tail := (y.tail + 1) % 2 ^ 32, fired := y.fired && decide (depthOf y ≠ 0) }
  queueChanged q (queueCount q 0 s)

/-- R264, R283: a push to an ACTIVE queue; SEQ follows the newest item of the page. A page whose entry is DRAM or MOVING takes no item (log 58). -/
def pushActive (q : Nat) (item : BitVec 256) (s : State) : Nat × State :=
  let x := s.queue q
  if x.capacity ≤ depthOf x then (1, pushFull q s) else
  let v := vpage x x.tail
  let (e, s) := lookup v s
  match e.whr, freePage s with
  | .scratch, _ => (0, storeItem q e.spage item (setEntry v { e with seq := x.tail / 128 } s))
  | .none, some p => (0, storeItem q p item (setEntry v ⟨.scratch, false, q, p, x.tail / 128⟩ (usePage p true s)))
  | _, _ => (1, queueCause q qNoPage (pushFull q s))

/-- R264: the checks before those of an ACTIVE queue: the response code of the first that fails. -/
def queueRefusal (s : State) (q cls lo : Nat) : Nat :=
  let x := s.queue q
  if !s.dev.ready.queues then rOff
  else if x.state = .disabled then rDecode
  else if !mayAccess x cls lo then rRights
  else if x.state = .faulted then rFrozen else rOk

/-- R264: a push: its response code and outcome. -/
def pushQueue (q cls : Nat) (item : BitVec 256) (s : State) : (Nat × Nat) × State :=
  let c := queueRefusal s q cls 0
  if c ≠ rOk then ((c, 0), s) else
  let r := pushActive q item s
  ((rOk, r.1), r.2)

/-- R264 checks 7 and 10: the head item, on page `spage`, is removed. -/
def removeItem (o : Origin) (q spage : Nat) (s : State) : State :=
  let x := s.queue q
  let r := checkUnit (itemUnit spage x.head) 0 s
  let s := queueCount q 1 (r.2.modQueue q fun y => { y with head := (y.head + 1) % 2 ^ 32, fired := false })
  let s := releasePage q (vpage x x.head) s
  let s := match r.1 with
    | none =>
      answerPop o q rPoison 0 x.head 0 (queueCause q qPoison (bankCause (spage / 64) spPoisonAns s))
    | some d =>
      answerPop o q rOk 0 x.head (BitVec.ofNat 256 d) (s.modQueue q fun y => { y with lastValue := BitVec.ofNat 256 d })
  queueChanged q s

/-- R264 check 5, R268. -/
def emptyPop (o : Origin) (q : Nat) (s : State) : State :=
  let x := s.queue q
  let s := queueCause q qUnderrun (queueCount q 3 (s.modQueue q fun y => { y with underrun := true }))
  answerPop o q rOk 1 x.head (if s.qm.emptyZero then 0 else x.lastValue) s

/-- R282: serve held pops while their head page is in scratch. -/
def serveHeld (q : Nat) : List Origin → State → State
  | [], s => s.modQueue q fun y => { y with held := [] }
  | o :: t, s =>
    let x := s.queue q
    if depthOf x = 0 then serveHeld q t (emptyPop o q s) else
    let (e, s) := lookup (vpage x x.head) s
    if e.whr = .scratch then serveHeld q t (removeItem o q e.spage s)
    else s.modQueue q fun y => { y with held := o :: t }

/-- R264: a pop reaches its half. -/
def popQueue (o : Origin) (q cls : Nat) (s : State) : State :=
  let x := s.queue q
  let c := queueRefusal s q cls 4
  if c ≠ rOk then answerPop o q c 0 x.head 0 s
  else if x.paused then answerPop o q rOk 2 x.head 0 s
  else if depthOf x = 0 then emptyPop o q s
  else
    let (e, s) := lookup (vpage x x.head) s
    if e.whr = .scratch ∧ x.held = [] then removeItem o q e.spage s
    else queueCount q 6 (s.modQueue q fun y => { y with held := y.held ++ [o] })

/-! ### Spilling, prefetch and bank returns (R281, R282, R285) -/

/-- R281: a page may be spilled. -/
def spillable (s : State) (v : Nat) (e : PageEntry) : Bool :=
  let x := s.queue e.queue
  decide (e.whr = .scratch) && !e.poisoned && decide (x.state = .active) && x.spillEn && pageHolds x v
    && x.prefetch < pageAhead x v && decide (v ≠ vpage x x.tail) && !(s.qm.copies.any fun c => c.1 = v)

/-- R281: spills of one half under way. -/
def spillsOf (s : State) (half : Nat) : Nat :=
  (s.qm.spills.filter fun x => (s.page x.page).queue / 32768 = half).length
def spillRoom (s : State) (e : PageEntry) : Bool := spillsOf s (e.queue / 32768) < 16

/-- R281: spills take place. -/
def maySpill (s : State) : Bool := s.dev.ready.qspill && s.qm.spillGlobal

/-- R281, R352, R354: the spill of a page starts: it is read, and with a unit lost it is poisoned and stays. -/
def startSpill (v : Nat) (s : State) : State :=
  let e := s.page v
  match checkUnits 0 (pageUnits e.spage) s with
  | (none, s) => bankCause (e.spage / 64) spPoisonAns s
  | (some data, s) =>
    let s := setEntry v { e with whr := .moving } s
    { s with qm := { s.qm with spills := s.qm.spills ++ [⟨v, data⟩] } }

/-- R281: the victim: the page furthest from its queue's head page; then the lower queue number. -/
def spillVictim (s : State) : Option Nat :=
  (s.qm.map.filter fun e => spillable s e.1 e.2 && spillRoom s e.2).foldl (fun b e => match b with
    | none => some e.1
    | some v =>
      let d := pageAhead (s.queue e.2.queue) e.1
      let d' := pageAhead (s.queue (s.page v).queue) v
      if d' < d ∨ (d' = d ∧ e.2.queue < (s.page v).queue) then some e.1 else some v) none

/-- R281, R291: the free pages at which spilling stops. -/
def spillStop (s : State) : Nat := if s.qm.spillLow < s.qm.spillHigh then s.qm.spillHigh else s.qm.spillLow + 1

/-- R281: spills are started until the free pages suffice, none is eligible, or both halves are busy. -/
def startSpills : Nat → State → State
  | 0, s => s
  | n + 1, s =>
    let on := if freeCount s < s.qm.spillLow then true
      else if spillStop s ≤ freeCount s then false else s.qm.spilling
    let s := { s with qm := { s.qm with spilling := on } }
    if s.qm.spilling && maySpill s then
      match spillVictim s with
      | some v => startSpills n (startSpill v s)
      | none =>
        if s.qm.map.any (fun e => spillable s e.1 e.2) then s
        else { s with qm := { s.qm with spilling := false } }
    else s

/-- R285: move one page out of a bank that is being returned. -/
def moveOut (v : Nat) (s : State) : State :=
  let e := s.page v
  match freePage s with
  | some p => usePage p true { s with qm := { s.qm with copies := s.qm.copies ++ [(v, p)] } }
  | none => if maySpill s && spillable s v e && spillRoom s e then startSpill v s else s

/-- R285: the pages still to be moved out. -/
def pagesLeaving (s : State) : List Nat :=
  (s.qm.map.filter fun e => decide (e.2.whr = .scratch) && s.qm.returning.getLsbD (e.2.spage / 64)
    && !(s.qm.copies.any fun c => c.1 = e.1)).map (·.1)

/-- R282: fetch a page back: a free page is taken. -/
def startFetch (v : Nat) (s : State) : State :=
  match freePage s with
  | none => s
  | some p =>
    let s := (lookup v s).2
    usePage p true { s with qm := { s.qm with fetches := s.qm.fetches ++ [(v, p)] } }

/-- R282: the pages of a queue that are due in scratch and lie in DRAM. -/
def duePages (s : State) (x : Queue) : List Nat :=
  ((List.range (min (x.prefetch + 1) (heldPages x))).map fun d => vpage x (x.head + 128 * d)).filter fun v =>
    decide ((entryOf s v).whr = .dram) && !(s.qm.fetches.any fun f => f.1 = v)

def startFetches (s : State) : State :=
  forEach (s.qm.queues.map (·.1)) (fun q a =>
    if (a.queue q).state = .active then forEach (duePages a (a.queue q)) startFetch a else a) s

/-- R301: destroys and resets whose spills have ended. -/
def endDestroys (s : State) : State :=
  forEach ((s.qm.queues.filter fun e => e.2.destroying || e.2.resetting).map (·.1)) (fun q a =>
    if a.qm.doomed.any (fun v => (a.page v).queue = q) then a
    else
      let a := if (a.queue q).resetting then finish 0x0605 q stOk [] (a.modQueue q fun x => { x with resetting := false }) else a
      if (a.queue q).destroying then finish 0x0602 q stOk [] (a.modQueue q fun _ => {}) else a) s

/-- What the queue manager does on its own after any change: pages out of returning banks, fetches, spills. -/
def pumpQueues (s : State) : State :=
  let s := if s.dev.ready.queues then forEach (pagesLeaving s) moveOut s else s
  let s := if s.dev.ready.qspill then startFetches s else s
  let s := if s.dev.ready.queues then startSpills 48 s else s
  endDestroys s

/-! ### Requests -/

/-- R257, R23: the half that serves a queue: 0 at pier 10, 1 at pier 22. -/
def halfOf (q : Nat) : Nat := q / 32768

/-- R264, R265: a push request (ADDR names the queue, R310). -/
def pushRequest (r : Req) (half : Nat) (s : State) : State :=
  let q := r.addr % 65536
  if s.dev.ready.queues ∧ halfOf q ≠ half then answer ⟨r.src, r.tag, rDecode, 0, []⟩ s
  else
    let x := pushQueue q r.src.cls (BitVec.ofNat 256 (ofLe (r.data.take 32))) s
    answer ⟨r.src, r.tag, x.1.1, x.1.2, []⟩ x.2

def execQueuePush (r : Req) (half : Nat) (s : State) : Host.Outcome State Fault Refusal :=
  effect (fun s => pumpQueues (pushRequest r half s)) s

def popRequest (r : Req) (half : Nat) (s : State) : State :=
  let q := r.addr % 65536
  if s.dev.ready.queues ∧ halfOf q ≠ half then answer ⟨r.src, r.tag, rDecode, 0, []⟩ s
  else popQueue (.noc r.src r.tag) q r.src.cls s

def execQueuePop (r : Req) (half : Nat) (s : State) : Host.Outcome State Fault Refusal :=
  effect (fun s => pumpQueues (popRequest r half s)) s

/-- R271: a queue's stale timer is running. -/
def staleRuns (s : State) (x : Queue) : Bool :=
  s.dev.ready.queues && s.qm.staleEn && decide (x.state = .active) && decide (x.staleUs ≠ 0)
    && decide (depthOf x ≠ 0) && !x.fired

/-- R271: a stale timer reaches STALE_US. -/
def execQueueStaleTimer (q : Nat) (s : State) : Host.Outcome State Fault Refusal :=
  effect (when (staleRuns s (s.queue q)) fun s =>
    queueCause q qStale (s.modQueue q fun x => { x with stale := true, fired := true })) s

/-- R271, R289: STALE_EN is written: set again, armed timers start from zero. -/
def writeStaleEn (en : Bool) (s : State) : State :=
  let queues := if en ∧ !s.qm.staleEn then
      tmap {} (fun _ x => if x.state = .active ∧ depthOf x ≠ 0 then { x with fired := false } else x) s.qm.queues
    else s.qm.queues
  { s with qm := { s.qm with queues, staleEn := en } }
def execQmStaleEnWrite (en : Bool) (s : State) : Host.Outcome State Fault Refusal := effect (writeStaleEn en) s

/-- R297: CLR_COUNTS of a group. -/
def clearGroupCounts (g : Nat) (s : State) : State := s.modQgroup g fun x => { x with counters := [] }
def execQmGrpClrCounts (g : Nat) (s : State) : Host.Outcome State Fault Refusal :=
  effect (when (g < 32) (clearGroupCounts g)) s

/-! ### Doorbells (R274 to R277) -/

/-- A doorbell operation has not been applied yet: a push waits for its source read, a pop for its turn. -/
def unapplied (d : DoorbellOp) : Bool := d.push || d.first.isEmpty

/-- R277: the oldest operation of a queue not yet applied. -/
def nextDoorbell (s : State) (q : Nat) : Option DoorbellOp := s.qm.doorbells.find? fun d => d.queue = q && unapplied d
def dropDoorbell (d : DoorbellOp) (s : State) : State :=
  { s with qm := { s.qm with doorbells := s.qm.doorbells.erase d } }

/-- R276, R277: apply the pops of a queue that stand before its next push. -/
def runPops (q : Nat) : Nat → State → State
  | 0, s => s
  | n + 1, s =>
    match nextDoorbell s q with
    | some d => if d.push then s else runPops q n (popQueue (.doorbell d.addr) q 0 (dropDoorbell d s))
    | none => s

/-- R277: a half carries up to 64 operations in flight, its held pops among them. -/
def doorbellRoom (s : State) (q : Nat) : Bool :=
  (s.qm.doorbells.filter fun d => halfOf d.queue = halfOf q).length
    + (s.qm.queues.foldl (fun a e => a + if halfOf e.1 = halfOf q then (e.2.held.filter fun o => match o with
      | .doorbell _ => true
      | _ => false).length else 0) 0) < 64

/-- R275: a push doorbell has come: its source read starts. -/
def startPush (q addr : Nat) (s : State) : State :=
  { s with qm := { s.qm with doorbells := s.qm.doorbells ++ [⟨q, true, addr, [], [], false⟩] } }

/-- R276: a pop doorbell has come. -/
def startPop (q addr : Nat) (s : State) : State :=
  let s := { s with qm := { s.qm with doorbells := s.qm.doorbells ++ [⟨q, false, addr, [], [], false⟩] } }
  runPops q s.qm.doorbells.length s

/-- R277: the doorbell writes that wait in the host port pass in order, once the posted writes before them are answered and
their half has room. -/
def passBells : Nat → State → State
  | 0, s => s
  | n + 1, s =>
    match s.qm.bells with
    | [] => s
    | b :: t =>
      if b.after.isEmpty && doorbellRoom s b.queue && s.dev.ready.queues then
        let s := { s with qm := { s.qm with bells := t } }
        passBells n (if b.push then startPush b.queue b.addr s else startPop b.queue b.addr s)
      else s
def pumpBells (s : State) : State := pumpQueues (passBells (s.qm.bells.length + 1) s)

/-- R277: the tags of the host's posted writes not answered; a doorbell write itself is none. -/
def postedBefore (s : State) : List Nat :=
  (s.lan.pci.reqs.filter fun e => e.2.any fun r => r.write && !within r.offset 0x00800000 0x00100000).map (·.1)

/-- R274, R277: an upper doorbell register is written. -/
def ringBell (push : Bool) (q hi : Nat) (s : State) : State :=
  let lo := tget 0 (if push then s.qm.pushLo else s.qm.popLo) q
  pumpBells { s with qm := { s.qm with bells := s.qm.bells ++ [⟨q, push, u32 hi * 2 ^ 32 + lo, postedBefore s⟩] } }

/-- R277: a posted write of the host has been answered. -/
def postedAnswered (t : Nat) (s : State) : State :=
  pumpBells { s with qm := { s.qm with bells := s.qm.bells.map fun b => { b with after := b.after.erase t } } }

/-- R29: the queue manager takes doorbell writes while QUEUES is set. -/
def mayRing (s : State) (q : Nat) : Bool := s.dev.ready.queues && q < 65536
def execDoorbellPush (q hi : Nat) (s : State) : Host.Outcome State Fault Refusal :=
  effect (when (mayRing s q) (ringBell true q hi)) s

/-- R275: the source read of a queue's oldest push is answered. `resp` and `item` are the answer where the source lies in
neither DRAM nor scratch. -/
def execDoorbellReadResponse (q resp : Nat) (item : BitVec 256) (s : State) : Host.Outcome State Fault Refusal :=
  effect (fun s =>
    match nextDoorbell s q with
    | none => s
    | some d =>
      if !d.push then s else
      let ((code, data), s) := moverRead d.addr 32 (resp, leBytes 32 item.toNat) (dropDoorbell d s)
      let s := if code ≠ rOk then queueCause q qDbErr s
        else if s.dev.ready.queues then (pushQueue q 0 (BitVec.ofNat 256 (ofLe data)) s).2 else s
      pumpBells (runPops q s.qm.doorbells.length s)) s

def execDoorbellPop (q hi : Nat) (s : State) : Host.Outcome State Fault Refusal :=
  effect (when (mayRing s q) (ringBell false q hi)) s

/-- R276: a write of a queue's oldest record is made and answered: the first half's, then the second's. `resp` is the answer
where the destination lies in neither DRAM nor scratch. -/
def execDoorbellRecordWritten (q resp : Nat) (s : State) : Host.Outcome State Fault Refusal :=
  effect (fun s =>
    match s.qm.doorbells.find? fun d => d.queue = q && !unapplied d with
    | none => s
    | some d =>
      let (code, s) := if d.firstDone then moverWrite (d.addr + 32) d.second resp s else moverWrite d.addr d.first resp s
      let s := if code ≠ rOk then queueCause q qDbErr s else s
      if d.firstDone then pumpBells (dropDoorbell d s)
      else { s with qm := { s.qm with
        doorbells := s.qm.doorbells.map fun e => if e = d then { d with firstDone := true } else e } }) s

/-! ### Paging -/

/-- Write whole lines at a device address that is a multiple of 64. -/
def pokeLines (addr : Nat) : List Nat → State → State
  | [], s => s
  | d :: t, s => pokeLines (addr + 64) t (match dramTarget s addr with
    | none => s
    | some (c, a) => enqueue (subOf c a) (a / 128) d s)

def pairLines : List Nat → List Nat
  | a :: b :: t => (a + b * 2 ^ 256) :: pairLines t
  | _ => []

/-- R281: every write of a spilled page is answered (`resp` is OK or the first refusal). A reset or destroy has freed the
page of its queue (R301); a FAULTED queue keeps it (R287). -/
def spillDone (x : Spill) (resp : Nat) (s : State) : State :=
  let v := x.page
  let e := s.page v
  let doomed := s.qm.doomed.contains v
  let s := { s with qm := { s.qm with spills := s.qm.spills.filter (·.page ≠ v), doomed := s.qm.doomed.filter (· ≠ v) } }
  if doomed then clearEntry v (usePage e.spage false s)
  else if (s.queue e.queue).state = .faulted then setEntry v { e with whr := .scratch } s
  else if resp = rOk then
    let s := pokeLines (s.qm.storeBase + 4096 * v) (pairLines x.data) s
    queueCount e.queue 4 (setEntry v { e with whr := .dram, spage := 0 } (usePage e.spage false s))
  else faultQueue e.queue (setEntry v { e with whr := .scratch } s)
def execQueueSpillDone (v resp : Nat) (s : State) : Host.Outcome State Fault Refusal :=
  effect (when s.dev.ready.queues fun s =>
    match s.qm.spills.find? fun x => x.page = v with
    | some x => pumpQueues (spillDone x resp s)
    | none => s) s

/-- R282: a fetched page is written into scratch page `p`. -/
def fillPage (v p : Nat) (s : State) : State :=
  forEach (List.range 128) (fun j a =>
    storeUnit (128 * p + j) (ofLe (peekBytes a (a.qm.storeBase + 4096 * v + 32 * j) 32)) true a) s

/-- R282: the reads of a fetch are answered. -/
def fetchDone (v p resp : Nat) (s : State) : State :=
  let e := s.page v
  let q := e.queue
  let x := s.queue q
  let s := { s with qm := { s.qm with fetches := s.qm.fetches.filter (fun f => f.1 ≠ v) } }
  if x.state ≠ .active then usePage p false s
  else if resp ≠ rOk ∨ e.seq ≠ (x.head / 128 + pageAhead x v) % 2 ^ 25 then faultQueue q (usePage p false s)
  else
    let s := queueCount q 5 (setEntry v ⟨.scratch, false, q, p, e.seq⟩ (fillPage v p s))
    serveHeld q (s.queue q).held s
def execQueuePrefetchDone (v resp : Nat) (s : State) : Host.Outcome State Fault Refusal :=
  effect (when s.dev.ready.queues fun s =>
    match s.qm.fetches.find? fun f => f.1 = v with
    | some f => pumpQueues (fetchDone v f.2 resp s)
    | none => s) s

/-- R285: a page copied out of a returning bank is in place: units, check symbols and poison unchanged. -/
def copyDone (v p : Nat) (s : State) : State :=
  let e := s.page v
  let s := { s with qm := { s.qm with copies := s.qm.copies.filter (fun c => c.1 ≠ v) } }
  let s := forEach (List.range 128) (fun j a => setUnit (128 * p + j) (unitAt a (128 * e.spage + j)) a) s
  let s := s.modBank (p / 64) fun b => { b with writeBacks := b.writeBacks.filter (fun u => u / 128 ≠ p % 64) }
  setEntry v { e with spage := p } (usePage e.spage false s)
def execQmPageCopyDone (v : Nat) (s : State) : Host.Outcome State Fault Refusal :=
  effect (when s.dev.ready.queues fun s =>
    match s.qm.copies.find? fun c => c.1 = v with
    | some c => pumpQueues (copyDone v c.2 s)
    | none => s) s

/-- R279: once SCRATCH sets, Sorrel grants bank 0 to the queue manager. -/
def execQmAutoGrantBank0 (s : State) : Host.Outcome State Fault Refusal :=
  effect (when (s.dev.ready.scratch && !s.spd.autoGranted) fun s =>
    ownerWrite 0 3 0 true true { s with spd := { s.spd with autoGranted := true } }) s

/-! ### Commands (R301, R371) -/

/-- 0x0802: the bank is marked RETURNING and its pages move out; once none is left it leaves the pool. -/
def scrReturnQmCmd (b kind index : Nat) (s : State) : State × Reply :=
  checks [(!ownerOk kind index || decide (kind = 3), stBadArg), (!s.dev.ready.scratch, stNotReady),
      (decide ((s.bank b).state ≠ .owned) || decide ((s.bank b).kind ≠ 3) || decide (s.dev.mode = .hold), stWrong)]
    (fun s =>
      let s := pumpQueues { s with qm := { s.qm with returning := s.qm.returning ||| BitVec.twoPow 256 b } }
      if s.qm.used.any (fun e => e.1 / 64 = b) then fail stBusy s
      else
        let s := { s with qm := { s.qm with banks := s.qm.banks &&& ~~~ BitVec.twoPow 256 b } }
        (ownerWrite b kind index true true s, .wait [] b 0)) s
def execScrReturnQm (q : CmdCtx) (b kind index : Nat) (s : State) : Host.Outcome State Fault Refusal :=
  effect (command q 0x0802 (payloadAt 3 [(0, 1, b), (1, 1, kind), (2, 1, index)])
    (scrReturnQmCmd (u8 b) (u8 kind) (u8 index))) s

/-- R301: the lowest REASON of 0x0601 that applies, 0 for none. -/
def powerOfTwo (n : Nat) : Bool := (List.range 18).any fun k => n = 2 ^ k
def createReason (s : State) (queue prefetch capacity base count stale : Nat) : Nat :=
  if !powerOfTwo count then 1
  else if s.qm.vpages < base + count ∨ (s.qm.queues.any fun e =>
      (decide (e.2.state ≠ .disabled) || e.2.destroying) && decide (e.1 ≠ queue)
        && overlap base count e.2.pageBase e.2.pageCount) then 2
  else if capacity = 0 ∨ 2 ^ 24 < capacity ∨ 128 * count < capacity then 3
  else if prefetch = 0 ∨ 15 < prefetch then 4
  else if 1000000 < stale then 5 else 0

/-- 0x0601. -/
def queueCreateCmd (queue access prefetch capacity base count stale flags : Nat) (s : State) : State × Reply :=
  let r := createReason s queue prefetch capacity base count stale
  if r ≠ 0 then (s, .done stBadArg (leBytes 1 r)) else
  checks [(!s.dev.ready.queues, stNotReady),
      (decide ((s.queue queue).state ≠ .disabled) || (s.queue queue).destroying, stWrong)]
    (fun s => okWith (leBytes 1 0) (s.modQueue queue fun _ =>
      { state := .active, spillEn := bit flags 0, access, prefetch, capacity, pageBase := base, pageCount := count
        staleUs := stale })) s
def execQueueCreate (q : CmdCtx) (queue access prefetch capacity base count stale flags : Nat) (s : State) :
    Host.Outcome State Fault Refusal :=
  effect (command q 0x0601 (payloadAt 21 [(0, 2, queue), (2, 1, access), (3, 1, prefetch), (4, 4, capacity), (8, 4, base),
      (12, 4, count), (16, 4, stale), (20, 1, flags)])
    (queueCreateCmd (u16 queue) (u8 access) (u8 prefetch) (u32 capacity) (u32 base) (u32 count) (u32 stale) (u8 flags))) s

/-- 0x0602: held pops are answered as a DISABLED queue answers (log 56). -/
def queueDestroyCmd (queue : Nat) (s : State) : State × Reply :=
  checks [(!s.dev.ready.queues, stNotReady),
      (decide ((s.queue queue).state = .disabled) || decide ((s.queue queue).pers ≠ 0xFFFF), stWrong)]
    (fun s =>
      let s := freeQueuePages queue (answerHeld queue rDecode s)
      (s.modQueue queue fun x =>
        { destroying := true, resetting := x.resetting, pageBase := x.pageBase, pageCount := x.pageCount }, .wait [] queue 0)) s
def execQueueDestroy (q : CmdCtx) (queue : Nat) (s : State) : Host.Outcome State Fault Refusal :=
  effect (fun s => pumpQueues (command q 0x0602 (leBytes 2 queue) (queueDestroyCmd (u16 queue)) s)) s

/-- R261: descriptor bytes 0x00 to 0x1F. -/
def queueState : QState → Nat
  | .disabled => 0 | .active => 1 | .faulted => 2
def descriptor (s : State) (q : Nat) : List Byte :=
  let x := s.queue q
  leBytes 1 (queueState x.state)
    ++ leBytes 1 (flag x.spillEn 0 + flag x.paused 1 + flag x.underrun 2 + flag x.fullSeen 3 + flag x.stale 4
      + flag (!x.held.isEmpty) 5)
    ++ leBytes 1 x.access ++ leBytes 1 x.prefetch ++ leBytes 4 x.capacity ++ leBytes 4 x.pageBase ++ leBytes 4 x.pageCount
    ++ leBytes 4 x.head ++ leBytes 4 x.tail ++ leBytes 4 x.staleUs ++ leBytes 2 x.pers ++ leBytes 2 (residentPages s q)

/-- 0x0603. -/
def queueGetCmd (queue select : Nat) (s : State) : State × Reply :=
  checks [(1 < select, stBadArg)] (fun s =>
    okWith (if select = 0 then descriptor s queue ++ leBytes 4 (depthOf (s.queue queue))
      else leBytes 32 (s.queue queue).lastValue.toNat) s) s
def execQueueGet (q : CmdCtx) (queue select : Nat) (s : State) : Host.Outcome State Fault Refusal :=
  effect (command q 0x0603 (payloadAt 3 [(0, 2, queue), (2, 1, select)]) (queueGetCmd (u16 queue) (u8 select))) s

/-- 0x0604. -/
def queueSetCmd (queue access prefetch stale flags : Nat) (s : State) : State × Reply :=
  checks [(decide (prefetch = 0) || decide (15 < prefetch) || decide (1000000 < stale), stBadArg),
      (!s.dev.ready.queues, stNotReady), (decide ((s.queue queue).state = .disabled), stWrong)]
    (fun s => ok (s.modQueue queue fun x => { x with access, prefetch, staleUs := stale, spillEn := bit flags 0 })) s
def execQueueSet (q : CmdCtx) (queue access prefetch stale flags : Nat) (s : State) : Host.Outcome State Fault Refusal :=
  effect (fun s => pumpQueues (command q 0x0604
    (payloadAt 9 [(0, 2, queue), (2, 1, access), (3, 1, prefetch), (4, 4, stale), (8, 1, flags)])
    (queueSetCmd (u16 queue) (u8 access) (u8 prefetch) (u32 stale) (u8 flags)) s)) s

/-- 0x0605. -/
def queueResetCmd (queue : Nat) (s : State) : State × Reply :=
  checks [(!s.dev.ready.queues, stNotReady), (decide ((s.queue queue).state = .disabled), stWrong)]
    (fun s =>
      let s := freeQueuePages queue (answerHeld queue rFrozen s)
      let s := s.modQueue queue fun x =>
        { x with state := .active, head := x.tail, underrun := false, fullSeen := false, stale := false, lastValue := 0
                 fired := false, resetting := true }
      (queueChanged queue s, .wait [] queue 0)) s
def execQueueReset (q : CmdCtx) (queue : Nat) (s : State) : Host.Outcome State Fault Refusal :=
  effect (fun s => pumpQueues (command q 0x0605 (leBytes 2 queue) (queueResetCmd (u16 queue)) s)) s

/-- 0x0606. -/
def queuePushCmd (queue : Nat) (item : BitVec 256) (s : State) : State × Reply :=
  checks [(!s.dev.ready.queues, stNotReady)] (fun s =>
    let r := pushQueue queue 0 item s
    if r.1.1 = rOk then okWith (leBytes 1 r.1.2) r.2 else fail (queueStatus r.1.1 false) r.2) s
def execQueuePushCmd (q : CmdCtx) (queue : Nat) (item : BitVec 256) (s : State) : Host.Outcome State Fault Refusal :=
  effect (fun s => pumpQueues (command q 0x0606 (payloadAt 40 [(0, 2, queue), (8, 32, item.toNat)])
    (queuePushCmd (u16 queue) item) s)) s

/-- 0x0607: a pop that is held waits as a command too; any other is answered at once. -/
def queuePopCmd (mbx queue : Nat) (s : State) : State × Reply :=
  checks [(!s.dev.ready.queues, stNotReady)] (fun s =>
    let x := s.queue queue
    let c := queueRefusal s queue 0 4
    if c ≠ rOk then fail (queueStatus c false) s
    else if x.paused then okWith (leBytes 40 2) s
    else if depthOf x = 0 then
      okWith (leBytes 8 1 ++ leBytes 32 (if s.qm.emptyZero then 0 else x.lastValue.toNat))
        (emptyPop (.mailbox 18) queue s)
    else
      let (e, s) := lookup (vpage x x.head) s
      if e.whr = .scratch ∧ x.held = [] then
        let r := removeItem (.mailbox 18) queue e.spage s
        match (checkUnit (itemUnit e.spage x.head) 0 s).1 with
        | some d => okWith (leBytes 8 0 ++ leBytes 32 d) r
        | none => fail stIntegrity r
      else (popQueue (.mailbox mbx) queue 0 s, .wait [] queue 0)) s
def execQueuePopCmd (q : CmdCtx) (queue : Nat) (s : State) : Host.Outcome State Fault Refusal :=
  effect (fun s => pumpQueues (command q 0x0607 (leBytes 2 queue) (queuePopCmd q.mbx (u16 queue)) s)) s

/-- 0x0608. -/
def queueGroupStatsCmd (g : Nat) (s : State) : State × Reply :=
  checks [(decide (31 < g), stBadArg)] (fun s =>
    let c (k : Nat) := tget 0 (s.qgroup g).counters k
    okWith ((List.range 7).flatMap (fun k => leBytes 6 (c k))
      ++ leBytes 1 ((List.range 7).foldl (fun a k => a + flag (decide (c k = 2 ^ 48 - 1)) k) 0)) s) s
def execQueueGroupStats (q : CmdCtx) (g : Nat) (s : State) : Host.Outcome State Fault Refusal :=
  effect (command q 0x0608 (leBytes 1 g) (queueGroupStatsCmd (u8 g))) s

/-- 0x0609. -/
def queuePoolStatusCmd (s : State) : State × Reply :=
  okWith (leBytes 2 (poolPages s) ++ leBytes 6 (freeCount s) ++ leBytes 32 s.qm.banks.toNat) s
def execQueuePoolStatus (q : CmdCtx) (s : State) : Host.Outcome State Fault Refusal :=
  effect (command q 0x0609 [] queuePoolStatusCmd) s

/-! ### Registers (R290, R293, R294, R299, R300) -/

def qmPoolWord (s : State) : Nat := field (poolPages s) 16 15 + field (freeCount s) 0 15
def qmCacheWord (s : State) : Nat := field s.qm.misses 16 16 + field (cacheEntries s) 0 16
def queueFlagsWord (s : State) (q : Nat) : Nat :=
  let x := s.queue q
  field (queueState x.state) 30 2 + flag x.paused 29 + flag x.stale 28 + flag x.fullSeen 27 + flag x.underrun 26
    + flag (!x.held.isEmpty) 25 + field (residentPages s q) 0 15

end Sys2Proof.Machine
end

