-- ==== Sys2Proof/Machine/Engines.lean ====
section
/-! DEFINITION. The engines as hardware (chapter 5): local memory and its code, contexts, clusters, the pin edge schedulers,
and the engine commands. -/

namespace Sys2Proof.Machine

/-! ### Local memory (R185 to R188) -/

/-- Word `w` of engine `n`'s instruction (`d` false) or data memory. -/
def eword (s : State) (d : Bool) (n w : Nat) : EWord := tget {} (if d then s.eng.dmem else s.eng.imem) (4096 * n + w)
def setEword (d : Bool) (n w : Nat) (x : EWord) (s : State) : State :=
  if d then { s with eng := { s.eng with dmem := tset {} s.eng.dmem (4096 * n + w) x } }
  else { s with eng := { s.eng with imem := tset {} s.eng.imem (4096 * n + w) x } }

/-- The 64 bits a checker delivers. -/
def ewordData (x : EWord) : BitVec 64 := (correctedData { data := x.data.setWidth 72, flips := x.flips }).setWidth 64

/-- A list with `w` at its end, unless it holds it already. -/
def addNew (l : List Nat) (w : Nat) : List Nat := if l.contains w then l else l ++ [w]

/-- R186, R214: count an error of a word; one of a single bit is to be written back. -/
def countEword (d : Bool) (n w : Nat) (s : State) : State :=
  match flipKind (eword s d n w).flips with
  | 0 => s
  | 1 => s.modEngine n fun e =>
    let e := { e with ce := satAdd 15 e.ce 1 }
    if d then { e with dmemWb := addNew e.dmemWb w } else { e with imemWb := addNew e.imemWb w }
  | _ => s.modEngine n fun e =>
    let e := { e with ue := satAdd 7 e.ue 1 }
    if d then { e with dmemUe := true } else { e with imemUe := true }

/-- R186: a checked read of a word: none where it cannot be corrected. -/
def readEword (d : Bool) (n w : Nat) (s : State) : Option (BitVec 64) × State :=
  (if 2 ≤ flipKind (eword s d n w).flips then none else some (ewordData (eword s d n w)), countEword d n w s)

/-- A cluster's clocks run. -/
def clusterRuns (s : State) (c : Nat) : Bool :=
  decide ((s.cluster c).state = .on) || decide ((s.cluster c).state = .parking)
    || decide ((s.cluster c).state = .draining)

/-- R187: the walker reads its next word; `upset` gives flips that have happened in this memory meanwhile. -/
def walkMemory (n : Nat) (d : Bool) (upset : List (Nat × BitVec 72)) (s : State) : State :=
  let s := upset.foldl (fun a e =>
    setEword d n (e.1 % 4096) { eword a d n (e.1 % 4096) with flips := (eword a d n (e.1 % 4096)).flips ^^^ e.2 } a) s
  let w := if d then (s.engine n).dmemWalk else (s.engine n).imemWalk
  (countEword d n w s).modEngine n fun e =>
    if d then { e with dmemWalk := (w + 1) % 4096 } else { e with imemWalk := (w + 1) % 4096 }
def execEngMemWalk (n : Nat) (d : Bool) (upset : List (Nat × BitVec 72)) (s : State) :
    Host.Outcome State Fault Refusal :=
  effect (when (n < 96 && clusterRuns s (n / 8) && decide (s.dev.mode ≠ .hold)) (walkMemory n d upset)) s

/-- R186: the oldest corrected word is written back. -/
def writeBackEword (n : Nat) (d : Bool) (s : State) : State :=
  match (if d then (s.engine n).dmemWb else (s.engine n).imemWb) with
  | [] => s
  | w :: t =>
    let x := eword s d n w
    let s := if flipKind x.flips = 1 then setEword d n w { data := ewordData x } s else s
    s.modEngine n fun e => if d then { e with dmemWb := t } else { e with imemWb := t }
def execEngMemWriteback (n : Nat) (d : Bool) (s : State) : Host.Outcome State Fault Refusal :=
  effect (when (n < 96 && clusterRuns s (n / 8) && decide (s.dev.mode ≠ .hold)) (writeBackEword n d)) s

/-- R214: CLR_COUNTS. -/
def clearEngCounts (n : Nat) (s : State) : State := s.modEngine n fun e => { e with ce := 0, ue := 0 }
def execEngClrCounts (n : Nat) (s : State) : Host.Outcome State Fault Refusal :=
  effect (when (n < 96) (clearEngCounts n)) s

/-! ### Contexts (R189 to R200) -/

/-- A register of a context. -/
def Ctx.reg (c : Ctx) (r : Nat) : BitVec 64 := tget 0 c.regs r
def Ctx.setReg (c : Ctx) (r : Nat) (v : BitVec 64) : Ctx := { c with regs := tset 0 c.regs r v }
/-- R226: past an instruction that does not transfer control. -/
def Ctx.advance (c : Ctx) : Ctx := { c with pc := c.pc + 1 }

/-- The context's cluster runs it (R198: also under COAST) and the machine is not in HOLD (R208). -/
def ctxLives (s : State) (n : Nat) : Bool := n < 96 && clusterRuns s (n / 8) && decide (s.dev.mode ≠ .hold)

/-- R190: context `k` is the one that issues: the smallest deadline, then the lowest number. -/
def selected (s : State) (n k : Nat) : Bool :=
  issuable (s.ctx (4 * n + k)) && (List.range 4).all fun j =>
    !issuable (s.ctx (4 * n + j)) || decide ((s.ctx (4 * n + k)).deadline.toNat < (s.ctx (4 * n + j)).deadline.toNat)
      || (decide ((s.ctx (4 * n + k)).deadline.toNat = (s.ctx (4 * n + j)).deadline.toNat) && decide (k ≤ j))

/-- R191: the deadline at the end of a wait for tick `w`. -/
def slackDeadline (c : Ctx) (w : BitVec 64) : BitVec 64 :=
  if c.dlSlack = 0 then BitVec.allOnes 64 else w + BitVec.ofNat 64 c.dlSlack

/-- R193: the tick count reaches a context's target. -/
def wakeTick (n k : Nat) (s : State) : State :=
  s.modCtx (4 * n + k) fun c =>
    { c.advance with state := .ready, deadline := slackDeadline c c.target, missed := false }
def execWaitTickExpiry (n k : Nat) (s : State) : Host.Outcome State Fault Refusal :=
  effect (when (k < 4 && ctxLives s n && decide ((s.ctx (4 * n + k)).state = .waitTick)
    && decide ((s.ctx (4 * n + k)).target.toNat ≤ s.now)) (wakeTick n k)) s

/-- R192: a deadline miss. -/
def missDeadline (n k : Nat) (s : State) : State :=
  let s := s.modCtx (4 * n + k) countMiss
  if (s.ctx (4 * n + k)).missFault then faultCtx n k 0x0A 0 s else raiseEvent (16 + n) s
def execDeadlineMiss (n k : Nat) (s : State) : Host.Outcome State Fault Refusal :=
  effect (when (k < 4 && ctxLives s n && deadlinePassed s (s.ctx (4 * n + k))) fun s => reapStops (missDeadline n k s)) s

/-- R194: a context reaches a wait on a tick or event: a stop asked for ends it, a disable parks it. -/
def reachWait (n : Nat) (s : State) (c : Ctx) (event : Bool) : Ctx :=
  if c.stopAtWait || c.stopNow then { c with state := .idle, stopAtWait := false, stopNow := false }
  else if (s.cluster (n / 8)).state = .parking then { c with state := .parked, parkedEvent := event }
  else { c with state := if event then .waitEvent else .waitTick }

/-- A context at the end of a blocking access goes on, or stops where a stop NOW waits for it (R194). -/
def resumeCtx (c : Ctx) : Ctx :=
  if c.stopNow then { c with state := .idle, stopAtWait := false, stopNow := false } else { c with state := .ready }

/-! ### Requests (R199, R246 to R250) -/

/-- R199: outstanding requests of an engine. -/
def outstanding (e : Engine) : Nat := e.reqs.length
def freeTag (e : Engine) : Nat := ((List.range 32).find? fun j => (tget none e.reqs j).isNone).getD 32

/-- R246: the four words of 32 bytes. -/
def words4 (data : List Byte) : List (BitVec 64) :=
  (List.range 4).map fun i => BitVec.ofNat 64 (ofLe ((data.drop (8 * i)).take 8))
def setGroup (c : Ctx) (g : Nat) (data : List Byte) : Ctx :=
  ((List.range 4).zip (words4 data)).foldl (fun c e => c.setReg (4 * g + e.1) e.2) c

/-- R246 to R249: what an OK response writes. -/
def writeAnswer (kind : EngReqKind) (qout : Nat) (data : List Byte) (c : Ctx) : Ctx :=
  match kind with
  | .pop g st => (if qout < 2 then setGroup c g data else c).setReg st (BitVec.ofNat 64 qout)
  | .push st => c.setReg st (BitVec.ofNat 64 qout)
  | .load d => c.setReg d (BitVec.ofNat 64 (ofLe (data.take 8)))
  | .load4 g => setGroup c g data
  | .store => c
  | .atomic _ d => c.setReg d (BitVec.ofNat 64 (ofLe (data.take 8)))

/-- R199, R250: contexts that wait for a slot or a posted count go on. -/
def wakeNoc (n poster : Nat) (s : State) : State :=
  forEach (List.range 4) (fun k a => a.modCtx (4 * n + k) fun c =>
    if c.state = .waitNoc ∧ (c.wait = .reissue ∨ (c.wait = .ownPosted ∧ k = poster)) then { c with state := .ready }
    else if c.state = .waitNoc ∧ c.wait = .fence ∧ c.posted = 0 then { c.advance with state := .ready }
    else c) s

/-- R199: a posted request is answered. -/
def postedAnswer (n k code : Nat) (s : State) : State :=
  let s := s.modCtx (4 * n + k) fun c => { c with posted := c.posted - 1 }
  if code = rOk then s else
  raiseEvent (16 + n) (s.modEngine n fun e =>
    if e.postedErr then e else { e with postedErr := true, lastCode := code, lastCtx := k })

/-- R199: the blocking request with a tag is answered. In HOLD contexts keep what they had (R208); a context that no
longer waits for this request (it has faulted, and perhaps started again) is not touched. -/
def blockingAnswer (n tag : Nat) (r : EngReq) (code qout : Nat) (data : List Byte) (s : State) : State :=
  let k := r.ctx
  if s.dev.mode = .hold ∨ (s.ctx (4 * n + k)).state ≠ .waitNoc ∨ (s.ctx (4 * n + k)).wait ≠ .answer
      ∨ (s.ctx (4 * n + k)).waitTag ≠ tag then s
  else if code = rOk then
    s.modCtx (4 * n + k) fun c => resumeCtx (writeAnswer r.kind qout data c).advance
  else faultCtx n k 0x05 code (s.modCtx (4 * n + k) fun c => { c with stopAtWait := false, stopNow := false })

/-- R199: a response reaches engine `n`. -/
def engineAnswer (n tag code qout : Nat) (data : List Byte) (s : State) : State :=
  match tget none (s.engine n).reqs tag with
  | none => s
  | some r =>
    let s := s.modEngine n fun e => { e with reqs := tset none e.reqs tag none, unsent := e.unsent.erase tag }
    let s := if r.posted then postedAnswer n r.ctx code s else blockingAnswer n tag r code qout data s
    let s := if s.dev.mode = .hold then s else wakeNoc n (if r.posted then r.ctx else 4) s
    reapStops s
def execEngineNocResponse (n tag code qout : Nat) (data : List Byte) (s : State) : Host.Outcome State Fault Refusal :=
  effect (when (n < 96) (engineAnswer n tag code qout data)) s

/-! ### Pin edge schedulers (R201 to R208) -/

/-- R203, R222: LEAD: 32 ticks at nominal ratios, and at reset, before the root PLL runs; else what the cluster measures,
8 bits as ENG_CL_STAT shows it (log 153). -/
def leadTicks (s : State) : Nat :=
  let r (d : Nat) := (s.clk.div d).ratio
  if !s.dev.clockSeen || (List.range 4).all (fun d => r d = nominalRatio d) then 32
  else Config.engineLead (r 0) (r 1) (r 2) (r 3) % 256

/-- R584, R586: the OUT step has released the user pins. -/
def pinsReleased (s : State) : Bool := s.boot.stepsDone.getLsbD 1 && decide (s.dev.mode ≠ .safe)

/-- R584, R673: the pull of pin `p`: until the OUT step and in SAFE the weak pull-up (1) where PULL_CFG_N was sampled low,
then what PINS selects; an unused pin keeps the weak pull-up. -/
def pinPull (s : State) (p : Nat) : Nat :=
  if (s.pin p).pull = 4 then 1
  else if pinsReleased s then (s.pin p).pull
  else if s.dev.pullCfgN then 0 else 1

/-- R202: MIN_SEP in 1/16 ticks. -/
def minSep (p : Nat) : Nat := if p / 48 < 16 then 2 * 16 else 16 * 16

/-- What becomes of an edge (R202 to R205). -/
inductive EdgeResult where
  | fault (code : Nat)
  | stall
  | drop
  /-- Accepted for this time, in 1/16 ticks; `late` says that AT_ONCE moved it. -/
  | accept (time : Nat) (late : Bool)
deriving DecidableEq, Repr

/-- R202: the checks, in order, for an edge of engine `n` on pin `p` at `t` ticks and `sub` sixteenths. -/
def judgeEdge (s : State) (n p t sub : Nat) : EdgeResult :=
  let x := s.pin p
  let time := 16 * t + sub
  if 960 ≤ p ∨ x.owner ≠ n ∨ !pinsReleased s then .fault 0x06
  else if s.now + 2 ^ 30 ≤ t then .fault 0x08
  else if time < x.last + minSep p then .fault 0x07
  else if x.credits = 0 then (if x.ovfFault then .fault 0x09 else .stall)
  else if time < 16 * (s.now + leadTicks s) then
    (if x.lateAtOnce then .accept (16 * (s.now + leadTicks s)) true else .drop)
  else .accept time false

/-- R205: an edge has failed the Lead check. -/
def lateEdge (n p : Nat) (s : State) : State :=
  raiseEvent (16 + n) (s.modPin p fun x => { x with late := true, lateCount := satAdd 8 x.lateCount 1 })

/-- R203: an accepted edge leaves for its scheduler. -/
def sendEdge (p time act : Nat) (s : State) : State :=
  s.modPin p fun x =>
    { x with credits := x.credits - 1, last := time
             flying := x.flying ++ [(s.now + leadTicks s - 12, ⟨time, act⟩)] }

/-- Insert an event in time order. -/
def insertEdge (e : EdgeEv) : List EdgeEv → List EdgeEv
  | [] => [e]
  | x :: t => if e.time < x.time then e :: x :: t else x :: insertEdge e t

/-- R203: an event reaches its scheduler. -/
def arriveEdge (p : Nat) (s : State) : State :=
  match (s.pin p).flying with
  | [] => s
  | e :: t => if e.1 ≤ s.now then s.modPin p fun x => { x with flying := t, stored := insertEdge e.2 x.stored } else s
def execEdgeEventArrive (p : Nat) (s : State) : Host.Outcome State Fault Refusal :=
  effect (when (p < 960) (arriveEdge p)) s

/-- R203: an event is released to the delay line 12 ticks before its time; its slot's credit is on its way. -/
def releaseEdge (p : Nat) (s : State) : State :=
  match (s.pin p).stored with
  | [] => s
  | e :: t =>
    if e.time / 16 ≤ s.now + 12 then
      s.modPin p fun x => { x with stored := t, released := x.released ++ [e], returning := x.returning ++ [s.now + 20] }
    else s
def execEdgeRelease (p : Nat) (s : State) : Host.Outcome State Fault Refusal :=
  effect (when (p < 960) (releaseEdge p)) s

/-- R202: the level after an action: drive low, drive high, high-impedance, toggle. -/
def edgeLevel (act out : Nat) : Nat := if act < 3 then act else if out = 1 then 0 else 1

/-- R206, R207: an edge reaches the ball; before the outputs are released it drives nothing (R584). -/
def fireEdge (p : Nat) (s : State) : State :=
  match (s.pin p).released with
  | [] => s
  | e :: t => if e.time / 16 ≤ s.now then s.modPin p fun x => { x with
      released := t, out := if pinsReleased s then edgeLevel e.act x.out else x.out } else s
def execEdgeFire (p : Nat) (s : State) : Host.Outcome State Fault Refusal :=
  effect (when (p < 960) (fireEdge p)) s

/-- R203, R204: a credit reaches the owner engine; contexts stalled on the pin issue again. -/
def returnEdgeCredit (p : Nat) (s : State) : State :=
  match (s.pin p).returning with
  | [] => s
  | e :: t =>
    if s.now < e then s else
    let s := s.modPin p fun x => { x with returning := t, credits := x.credits + 1 }
    let n := (s.pin p).owner
    if n < 96 ∧ s.dev.mode ≠ .hold then
      forEach (List.range 4) (fun k a => a.modCtx (4 * n + k) fun c =>
        if c.state = .waitPin ∧ c.pinWait = p then { c with state := .ready } else c) s
    else s
def execEdgeCreditReturn (p : Nat) (s : State) : Host.Outcome State Fault Refusal :=
  effect (when (p < 960) (returnEdgeCredit p)) s

/-! ### Clusters (R210, R211) -/

/-- R222: STATE as a number. -/
def clusterState : ClusterState → Nat
  | .off => 0 | .waitGrant => 1 | .wiping => 2 | .on => 3 | .parking => 4 | .draining => 5

/-- R225: final responses of 0x0705 for those who asked for `want`, with STATE at that moment. -/
def clusterFinal (c want status : Nat) (s : State) : State :=
  finishArg 0x0705 c (· = want) status (leBytes 1 (clusterState (s.cluster c).state)) s

/-- OFF loses every context and all local memory; what the hub's control block holds stays (R198, R211, log 65). -/
def lostCtx (c : Ctx) : Ctx :=
  { missFault := c.missFault, needTime := c.needTime, dlSlack := c.dlSlack, dlMiss := c.dlMiss, misses := c.misses }
def wipeEngines (c : Nat) (s : State) : State :=
  let out (k : Nat) : Bool := k / 32768 = c
  { s with eng := { s.eng with
      imem := tdrop {} out s.eng.imem
      dmem := tdrop {} out s.eng.dmem
      ctxs := tmap {} (fun i x => if i / 32 = c then lostCtx x else x) s.eng.ctxs
      engines := tmap {} (fun i x => if i / 8 = c then { x with reqs := [], unsent := [], imemWb := [], dmemWb := [] } else x)
        s.eng.engines } }

/-- R211: a request for 11 credits. -/
def startCluster (c : Nat) (s : State) : State :=
  request kCluster c 11 (s.modCluster c fun x => { x with state := .waitGrant })

/-- R211: the clocks stop; a latched enable starts the cluster again. -/
def clusterOff (c : Nat) (s : State) : State :=
  let s := giveBackAll kCluster c (wipeEngines c s)
  let again := (s.cluster c).pendingEnable
  let s := s.modCluster c fun x =>
    { x with state := .off, disablePending := false, pendingEnable := false, serving := false, fence := false }
  let s := reapStops (clusterFinal c 0 stOk (settle s))
  if again then startCluster c s else s

/-- R210: the grant: the engines start. -/
def clusterGranted (c : Nat) (s : State) : State := s.modCluster c fun x => { x with state := .wiping }

/-- R211: an enable. -/
def clusterEnable (c : Nat) (s : State) : State :=
  match (s.cluster c).state with
  | .off => startCluster c s
  | .wiping =>
    if (s.cluster c).disablePending then
      clusterFinal c 0 stWrong (s.modCluster c fun x => { x with disablePending := false })
    else s
  | .parking => s.modCluster c fun x => { x with pendingEnable := true }
  | .draining => s.modCluster c fun x => { x with pendingEnable := true }
  | _ => s

/-- R194, R211: contexts that wait on a tick or event are PARKED. -/
def parkCtx (c : Ctx) : Ctx :=
  if c.state = .waitTick then { c with state := .parked, parkedEvent := false }
  else if c.state = .waitEvent then { c with state := .parked, parkedEvent := true }
  else c
def mapCluster (c : Nat) (f : Ctx → Ctx) (s : State) : State :=
  { s with eng := { s.eng with ctxs := tmap {} (fun i x => if i / 32 = c then f x else x) s.eng.ctxs } }

/-- R211: a disable. In HOLD the contexts keep their states (R208). -/
def clusterDisable (c : Nat) (s : State) : State :=
  match (s.cluster c).state with
  | .waitGrant =>
    let s := withdraw kCluster c (s.modCluster c fun x => { x with state := .off })
    clusterFinal c 0 stOk (clusterFinal c 1 stWrong s)
  | .wiping => clusterFinal c 1 stWrong (s.modCluster c fun x => { x with disablePending := true })
  | .on =>
    settle (when (decide (s.dev.mode ≠ .hold)) (mapCluster c parkCtx)
      (s.modCluster c fun x => { x with state := .parking, serving := false }))
  | .parking => clusterFinal c 1 stWrong (s.modCluster c fun x => { x with pendingEnable := false })
  | .draining => clusterFinal c 1 stWrong (s.modCluster c fun x => { x with pendingEnable := false })
  | .off => s

def execClusterEnable (c : Nat) (s : State) : Host.Outcome State Fault Refusal :=
  effect (when (c < 12) (clusterEnable c)) s
def execClusterDisable (c : Nat) (s : State) : Host.Outcome State Fault Refusal :=
  effect (when (c < 12) (clusterDisable c)) s

/-- R211: the wipe ends. -/
def clusterWiped (c : Nat) (s : State) : State :=
  if (s.cluster c).disablePending then clusterOff c s
  else
    let s := wipeEngines c s
    clusterFinal c 1 stOk (settle (s.modCluster c fun x => { x with state := .on, serving := true }))
def execClusterWipeDone (c : Nat) (s : State) : Host.Outcome State Fault Refusal :=
  effect (when (c < 12 && decide ((s.cluster c).state = .wiping)) (clusterWiped c)) s

/-- R211: every context has parked. -/
def allParked (s : State) (c : Nat) : Bool :=
  (List.range 32).all fun i =>
    let x := s.ctx (32 * c + i)
    decide (x.state = .idle) || decide (x.state = .faulted) || decide (x.state = .parked)
def clusterParked (c : Nat) (s : State) : State := s.modCluster c fun x => { x with state := .draining, fence := true }
def execClusterParked (c : Nat) (s : State) : Host.Outcome State Fault Refusal :=
  effect (when (c < 12 && decide ((s.cluster c).state = .parking) && allParked s c) (clusterParked c)) s

/-- R194, R197: a parked context takes up its wait again, or faults where time is invalid. -/
def resumeParked (c : Nat) (s : State) : State :=
  let s := mapCluster c (fun x => if x.state = .parked
    then { x with state := if x.parkedEvent then .waitEvent else .waitTick } else x) s
  let s := forEach (List.range 32) (fun i a =>
    let x := a.ctx (32 * c + i)
    if x.state = .waitTick ∧ x.needTime ∧ (a.engine (8 * c + i / 4)).timeInvalid
    then faultCtx (8 * c + i / 4) (i % 4) 0x0B 0 a else a) s
  wakeEvents s

/-- R211: the disable is refused: event 10. -/
def clusterRefused (c : Nat) (s : State) : State :=
  let s := s.modCluster c fun x =>
    { x with state := .on, serving := true, fence := false, pendingEnable := false, busyRefused := true }
  let s := raiseEvent 10 (settle (resumeParked c s))
  reapStops (clusterFinal c 1 stOk (clusterFinal c 0 stBusy s))
def execClusterParkTimeout (c : Nat) (s : State) : Host.Outcome State Fault Refusal :=
  effect (when (c < 12 && decide ((s.cluster c).state = .parking) && decide (s.dev.mode ≠ .hold)) (clusterRefused c)) s
def execClusterDrainTimeout (c : Nat) (s : State) : Host.Outcome State Fault Refusal :=
  effect (when (c < 12 && decide ((s.cluster c).state = .draining) && decide (s.dev.mode ≠ .hold)) (clusterRefused c)) s

/-- R211: no request is outstanding. -/
def clusterQuiet (s : State) (c : Nat) : Bool := (List.range 8).all fun i => decide (outstanding (s.engine (8 * c + i)) = 0)
def execClusterDrainIdle (c : Nat) (s : State) : Host.Outcome State Fault Refusal :=
  effect (when (c < 12 && decide ((s.cluster c).state = .draining) && clusterQuiet s c && decide (s.dev.mode ≠ .hold))
    (clusterOff c)) s

/-! ### Device memory read and written for a mailbox (R225, R621, R623) -/

/-- R306: the tile whose fabric port an address names. -/
def fabricTile (addr : Nat) : Option Nat :=
  if 0x200000000 ≤ addr ∧ addr < 0x260000000 then some ((addr - 0x200000000) / 2 ^ 24) else none
/-- R29, R95: what a fabric port answers to an access of a mailbox command: DOMAIN_OFF, or what user logic gives, a free
value (log 95). -/
def fabricAnswer (t : Nat) (s : State) : Nat × State :=
  if !s.dev.ready.fabric || !portLive s t || (s.tile t).fence || decide ((s.tile t).state = .draining) || decide (s.dev.mode = .hold) then (rOff, s)
  else let (c, s) := draw 3 s; (if c.toNat < 6 then c.toNat else rOk, s)

/-- One access of at most 256 bytes within a 256-byte block, judged and performed for class `cls`. -/
def blockRead (cls addr len : Nat) (s : State) : (Nat × List Byte) × State :=
  let r : Req := ⟨⟨cls, 0⟩, 0, addr, len, [], 0⟩
  let (ok, s) := rightsJudge cls 0 true false addr (len - 1) s
  if !ok then ((rRights, []), recordViolation cls 0 false addr s)
  else if 0x100000000 ≤ addr ∧ addr < 0x104000000 then scratchReadAt r [] s
  else match fabricTile addr with
  | none => dramReadAt r [] false s
  | some t =>
    let (c, s) := fabricAnswer t s
    let (d, s) := draw (8 * len) s
    ((c, if c = rOk then leBytes len d.toNat else []), s)
def blockWrite (cls addr : Nat) (data : List Byte) (s : State) : Nat × State :=
  let r : Req := ⟨⟨cls, 0⟩, 0, addr, data.length, data, 2 ^ data.length - 1⟩
  let (ok, s) := rightsJudge cls 0 false true addr (data.length - 1) s
  if !ok then (rRights, recordViolation cls 0 true addr s)
  else if 0x100000000 ≤ addr ∧ addr < 0x104000000 then scratchWriteAt r [] s
  else match fabricTile addr with
  | none => dramWriteAt r [] false s
  | some t => fabricAnswer t s

/-- Read `len` bytes from `addr` on, 256-byte block by block (at most `fuel` blocks): the first refusal, or the bytes. -/
def deviceRead (cls : Nat) : Nat → Nat → Nat → State → (Nat × List Byte) × State
  | 0, _, _, s => ((rOk, []), s)
  | fuel + 1, addr, len, s =>
    if len = 0 then ((rOk, []), s) else
    let n := min len (256 - addr % 256)
    match blockRead cls addr n s with
    | ((code, d), s) =>
      if code ≠ rOk then ((code, []), s) else
      match deviceRead cls fuel (addr + n) (len - n) s with
      | ((code, ds), s) => ((code, d ++ ds), s)
def deviceWrite (cls : Nat) : Nat → Nat → List Byte → State → Nat × State
  | 0, _, _, s => (rOk, s)
  | fuel + 1, addr, data, s =>
    if data = [] then (rOk, s) else
    let n := 256 - addr % 256
    match blockWrite cls addr (data.take n) s with
    | (code, s) => if code ≠ rOk then (code, s) else deviceWrite cls fuel (addr + n) (data.drop n) s

/-! ### Commands (R225) -/

def clusterServes (s : State) (c : Nat) : Bool := s.dev.ready.engCluster.getLsbD c

/-- Store bytes into a local memory from byte offset `o` (a multiple of 8) on; a last part word keeps its other bytes, and
is left untouched where the read of it finds an uncorrectable error (R186): then the command ends INTEGRITY (log 154). -/
def loadWords (d : Bool) (n o : Nat) (data : List Byte) (s : State) : Nat × State :=
  let whole := data.length / 8
  let s := forEach (List.range whole) (fun i a =>
    setEword d n (o / 8 + i) { data := BitVec.ofNat 64 (ofLe ((data.drop (8 * i)).take 8)) } a) s
  let rest := data.drop (8 * whole)
  if rest = [] then (stOk, s) else
  match readEword d n (o / 8 + whole) s with
  | (none, s) => (stIntegrity, s)
  | (some old, s) =>
    (stOk, setEword d n (o / 8 + whole)
      { data := BitVec.ofNat 64 (ofLe (rest ++ (leBytes 8 old.toNat).drop rest.length)) } s)

/-- R188: every context of an engine is IDLE or FAULTED. -/
def allStopped (s : State) (n : Nat) : Bool :=
  (List.range 4).all fun k => decide ((s.ctx (4 * n + k)).state = .idle) || decide ((s.ctx (4 * n + k)).state = .faulted)

/-- 0x0701: PENDING, then a final status (log 150). -/
def engLoadCmd (mbx n mem offset len src : Nat) (s : State) : State × Reply :=
  checks [(decide (95 < n) || decide (1 < mem) || decide (offset % 8 ≠ 0) || decide (32768 < offset + len), stBadArg),
      (!clusterServes s (n / 8), stNotReady), (!allStopped s n, stWrong)]
    (fun s =>
      match deviceRead (mbxClass mbx) 130 src len s with
      | ((code, data), s) =>
        if code ≠ rOk then (s, .pend (statusOf code) []) else
        match loadWords (decide (mem = 1)) n offset data s with
        | (st, s) => (s, .pend st [])) s
def execEngLoad (q : CmdCtx) (n mem offset len src : Nat) (s : State) : Host.Outcome State Fault Refusal :=
  effect (command q 0x0701 (payloadAt 16 [(0, 1, n), (1, 1, mem), (2, 2, offset), (4, 4, len), (8, 8, src)])
    (engLoadCmd q.mbx (u8 n) (u8 mem) (u16 offset) (u32 len) (u64 src))) s

/-- R194: a context starts. -/
def startCtx (n k pc : Nat) (deadline v0 : BitVec 64) (s : State) : State :=
  s.modCtx (4 * n + k) fun c =>
    { c with state := .ready, pc := BitVec.ofNat 13 pc, deadline, fault := 0, detail := 0, regs := tset 0 [] 0 v0
             misses := 0, missed := false, stopAtWait := false, stopNow := false }

/-- 0x0702. -/
def engCtxStartCmd (n k pc : Nat) (deadline v0 : BitVec 64) (s : State) : State × Reply :=
  checks [(decide (95 < n) || decide (3 < k) || decide (8191 < pc), stBadArg), (!clusterServes s (n / 8), stNotReady),
      (decide ((s.ctx (4 * n + k)).state ≠ .idle) && decide ((s.ctx (4 * n + k)).state ≠ .faulted)
        || decide (s.dev.mode = .hold), stWrong)]
    (fun s => ok (startCtx n k pc deadline v0 s)) s
def execEngCtxStart (q : CmdCtx) (n k pc : Nat) (deadline v0 : BitVec 64) (s : State) : Host.Outcome State Fault Refusal :=
  effect (command q 0x0702
    (payloadAt 24 [(0, 1, n), (1, 1, k), (2, 2, pc), (8, 8, deadline.toNat), (16, 8, v0.toNat)])
    (engCtxStartCmd (u8 n) (u8 k) (u16 pc) deadline v0)) s

/-- R194: a stop: at once where the context already waits on a tick or event, or (NOW) has no blocking request out. -/
def stopCtx (n k mode : Nat) (s : State) : State :=
  s.modCtx (4 * n + k) fun c =>
    if c.state = .waitTick ∨ c.state = .waitEvent ∨ c.state = .parked
        ∨ (mode = 1 ∧ !(decide (c.state = .waitNoc) && decide (c.wait = .answer))) then
      { c with state := .idle, stopAtWait := false, stopNow := false }
    else if mode = 1 then { c with stopNow := true } else { c with stopAtWait := true }

/-- 0x0703: PENDING, then OK once the context is IDLE; one that has faulted, where nothing is outstanding and no wait will
come, is IDLE at once (log 67). -/
def engCtxStopCmd (n k mode : Nat) (s : State) : State × Reply :=
  checks [(decide (95 < n) || decide (3 < k) || decide (1 < mode), stBadArg), (!clusterServes s (n / 8), stNotReady)]
    (fun s =>
      let c := s.ctx (4 * n + k)
      if c.state = .idle then (s, .pend stOk (leBytes 1 (ctxState .idle)))
      else if s.dev.mode = .hold then fail stWrong s
      else if c.state = .faulted then
        (s.modCtx (4 * n + k) fun c => { c with state := .idle }, .pend stOk (leBytes 1 (ctxState .idle)))
      else (stopCtx n k mode s, .wait [] (4 * n + k) 0)) s
def execEngCtxStop (q : CmdCtx) (n k mode : Nat) (s : State) : Host.Outcome State Fault Refusal :=
  effect (fun s => reapStops (command q 0x0703 (payloadAt 3 [(0, 1, n), (1, 1, k), (2, 1, mode)])
    (engCtxStopCmd (u8 n) (u8 k) (u8 mode)) s)) s

/-- 0x0704. -/
def engCtxReadCmd (n k first : Nat) (s : State) : State × Reply :=
  let c := s.ctx (4 * n + k)
  checks [(decide (95 < n) || decide (3 < k) || decide (12 < first), stBadArg),
      (decide (c.state ≠ .idle) && decide (c.state ≠ .parked) && decide (c.state ≠ .faulted), stWrong)]
    (okWith (leBytes 1 (ctxState c.state) ++ leBytes 1 c.fault ++ leBytes 2 c.pc.toNat ++ leBytes 4 c.detail.toNat
      ++ leBytes 8 c.deadline.toNat ++ (List.range 4).flatMap (fun i => leBytes 8 (c.reg (first + i)).toNat))) s
def execEngCtxRead (q : CmdCtx) (n k first : Nat) (s : State) : Host.Outcome State Fault Refusal :=
  effect (command q 0x0704 (payloadAt 3 [(0, 1, n), (1, 1, k), (2, 1, first)]) (engCtxReadCmd (u8 n) (u8 k) (u8 first))) s

/-- 0x0705: OK at once in the state asked for, else PENDING. In HOLD no grant comes (R554). -/
def engClusterEnableCmd (c en : Nat) (s : State) : State × Reply :=
  checks [(decide (11 < c) || decide (1 < en), stBadArg)] (fun s =>
    let st := (s.cluster c).state
    if (en = 1 ∧ st = .on) ∨ (en = 0 ∧ st = .off) then okWith (leBytes 1 (clusterState st)) s
    else if s.dev.mode = .hold then fail stWrong s
    else if en = 0 ∧ st = .waitGrant then
      let s := clusterDisable c s
      (s, .pend stOk (leBytes 1 (clusterState (s.cluster c).state)))
    else (if en = 1 then clusterEnable c s else clusterDisable c s, .wait [] c en)) s
def execEngClusterEnable (q : CmdCtx) (c en : Nat) (s : State) : Host.Outcome State Fault Refusal :=
  effect (command q 0x0705 (payloadAt 2 [(0, 1, c), (1, 1, en)]) (engClusterEnableCmd (u8 c) (u8 en))) s

/-- R21, R672: the die of a pin (true east). -/
def pinEast (p : Nat) : Bool :=
  let b := p / 48
  (8 ≤ b && b ≤ 15) || 18 ≤ b

/-- R201: pins an engine owns. -/
def pinsOwned (s : State) (n : Nat) : Nat := (s.eng.pins.filter fun e => e.2.owner = n).length

/-- R225: the cluster whose readiness 0x0706 needs. -/
def assignNotReady (s : State) (p owner : Nat) : Bool :=
  let old := (s.pin p).owner
  if owner < 96 then !clusterServes s (owner / 8) else if old < 96 then !clusterServes s (old / 8) else false

/-- 0x0706. -/
def engPinAssignCmd (p owner ovf late : Nat) (s : State) : State × Reply :=
  let x := s.pin p
  checks [(decide (959 < p) || decide (1 < ovf) || decide (1 < late) || (decide (95 < owner) && decide (owner ≠ 0xFF))
        || !x.sched || (decide (owner < 96) && (pinEast p != decide (48 ≤ owner)))
        || (decide (owner < 96) && decide (32 ≤ pinsOwned s owner)), stBadArg),
      (assignNotReady s p owner, stNotReady), (decide (x.owner < 96) && decide (x.credits ≠ 4), stWrong)]
    (fun s => ok (s.modPin p fun y =>
      { y with owner := if owner = 0xFF then 0x7F else owner, ovfFault := decide (ovf = 1), lateAtOnce := decide (late = 1) })) s
def execEngPinAssign (q : CmdCtx) (p owner ovf late : Nat) (s : State) : Host.Outcome State Fault Refusal :=
  effect (command q 0x0706 (payloadAt 5 [(0, 2, p), (2, 1, owner), (3, 1, ovf), (4, 1, late)])
    (engPinAssignCmd (u16 p) (u8 owner) (u8 ovf) (u8 late))) s

/-- 0x0707: corrected data, and which of the four words show a single- or a double-bit error; the reads are checked, counted
and written back as any other (R186). -/
def engMemReadCmd (n mem offset : Nat) (s : State) : State × Reply :=
  checks [(decide (95 < n) || decide (1 < mem) || decide (offset % 32 ≠ 0) || decide (32736 < offset), stBadArg),
      (!clusterServes s (n / 8), stNotReady)]
    (fun s =>
      let x (i : Nat) := eword s (decide (mem = 1)) n (offset / 8 + i)
      let mask (k : Nat) := (List.range 4).foldl (fun a i => a + flag (decide (flipKind (x i).flips = k)) i) 0
      okWith ((List.range 4).flatMap (fun i => leBytes 8 (ewordData (x i)).toNat) ++ leBytes 1 (mask 1)
        ++ leBytes 1 (mask 2)) (forEach (List.range 4) (fun i => countEword (decide (mem = 1)) n (offset / 8 + i)) s)) s
def execEngMemRead (q : CmdCtx) (n mem offset : Nat) (s : State) : Host.Outcome State Fault Refusal :=
  effect (command q 0x0707 (payloadAt 4 [(0, 1, n), (1, 1, mem), (2, 2, offset)])
    (engMemReadCmd (u8 n) (u8 mem) (u16 offset))) s

/-- 0x0708. -/
def engStatusCmd (c : Nat) (s : State) : State × Reply :=
  checks [(decide (11 < c), stBadArg)] (fun s =>
    let st (i : Nat) := (s.ctx (32 * c + i)).state
    let faults := (List.range 8).foldl (fun a e =>
      a + flag ((List.range 4).any fun k => decide (st (4 * e + k) = .faulted)) e) 0
    let codes := (List.range 32).foldl (fun a i => a + ctxState (st i) * 16 ^ i) 0
    okWith (leBytes 1 (clusterState (s.cluster c).state) ++ leBytes 1 (heldBy s kCluster c) ++ leBytes 2 (leadTicks s)
      ++ leBytes 4 faults ++ leBytes 16 codes) s) s
def execEngStatus (q : CmdCtx) (c : Nat) (s : State) : Host.Outcome State Fault Refusal :=
  effect (command q 0x0708 (leBytes 1 c) (engStatusCmd (u8 c))) s

/-! ### Registers (R213 to R224) -/

def engStatWord (s : State) (n : Nat) : Nat :=
  let e := s.engine n
  flag e.timeInvalid 31 + flag e.postedErr 30 + field (pinsOwned s n) 16 6 + field e.lastCode 8 8 + field e.lastCtx 0 2
def engEccWord (e : Engine) : Nat :=
  flag (decide (e.ce = 0x7FFF)) 31 + field e.ce 16 15 + flag (decide (e.ue = 0x7F)) 15 + field e.ue 8 7 + flag e.imemUe 1
    + flag e.dmemUe 0
def ctxCfgWord (c : Ctx) : Nat := flag c.missFault 31 + flag c.needTime 30 + field c.dlSlack 0 16
def ctxStatWord (c : Ctx) : Nat :=
  flag c.dlMiss 31 + field (ctxState c.state) 24 4 + field c.fault 16 8 + field c.pc.toNat 0 13
def ctxMissWord (c : Ctx) : Nat := flag (decide (c.misses = 0xFFFF)) 31 + field c.misses 0 16
def clusterStatWord (s : State) (c : Nat) : Nat :=
  let x := s.cluster c
  field (heldBy s kCluster c) 24 8 + field (leadTicks s) 16 8 + flag x.busyRefused 9 + flag x.pendingEnable 8
    + flag x.disablePending 7 + field (clusterState x.state) 0 3
def pinCfgWord (x : Pin) : Nat :=
  flag x.sched 31 + field x.safeLevel 29 2 + flag x.ovfFault 28 + flag x.lateAtOnce 27 + field x.owner 16 7
def pinStatWord (x : Pin) : Nat :=
  flag x.late 31 + flag x.ovf 30 + field x.lateCount 16 8 + field x.out 3 2 + field x.stored.length 0 3

end Sys2Proof.Machine
end

