-- ==== Sys2Proof/Machine/Units/EngInstr.lean ====
section
/-! DEFINITION. The engine instructions of R232, with the fields of their formats (R230). -/

namespace Sys2Proof.Machine

/-- An engine instruction; every field is the number its format's field holds. -/
inductive EngInstr where
  | alu (fn d a b : Nat)
  | addi (d a imm : Nat)
  | andi (d a imm : Nat)
  | ori (d a imm : Nat)
  | xori (d a imm : Nat)
  | shi (d a kind amount : Nat)
  | movw (d lane : Nat) (keep : Bool) (imm : Nat)
  | ext (d a pos len : Nat)
  | ins (d a pos len : Nat)
  | get (d sel : Nat)
  | ld (d a size : Nat) (signed : Bool) (offset : Nat)
  | st (s a size offset : Nat)
  | tld (d a b size : Nat) (signed : Bool)
  | branch (cond a b target : Nat)
  | j (target : Nat)
  | jal (d target : Nat)
  | jr (a : Nat)
  | wait (a : Nat)
  | waite (mask : Nat)
  | evclr (mask : Nat)
  | dln (a : Nat)
  | fence
  | halt
  | pop (g s q : Nat)
  | popr (g s a : Nat)
  | push (g s : Nat) (posted : Bool) (q : Nat)
  | pushr (g s : Nat) (posted : Bool) (a : Nat)
  | ldn (d a offset : Nat)
  | stn (s a : Nat) (posted : Bool) (offset : Nat)
  | ldn4 (g a offset : Nat)
  | stn4 (g a : Nat) (posted : Bool) (offset : Nat)
  | aadd (d a b : Nat)
  | aswp (d a b : Nat)
  | edge (t act sub pin : Nat)
  | edgel (t p : Nat)
  | edger (t a : Nat)
deriving DecidableEq, Repr

end Sys2Proof.Machine
end

