-- ==== Sys2Proof/Machine/Operands.lean ====
section
/-! DEFINITION. Every operand form of the engine instruction set (R230 to R232): the decoder of a 32-bit word, which
refuses what R231 calls undefined, and the encoder of the same formats. -/

namespace Sys2Proof.Machine

/-- Number of a flag bit. -/
def boolBit (b : Bool) : Nat := if b then 1 else 0

/-- The opcode in bits 31:26 (R230, R232). -/
def EngInstr.opcode : EngInstr → Nat
  | .alu .. => 0x01 | .addi .. => 0x02 | .andi .. => 0x03 | .ori .. => 0x04 | .xori .. => 0x05 | .shi .. => 0x06
  | .movw .. => 0x07 | .ext .. => 0x08 | .ins .. => 0x09 | .get .. => 0x0A | .ld .. => 0x10 | .st .. => 0x11
  | .tld .. => 0x12 | .branch c .. => 0x18 + c | .j .. => 0x20 | .jal .. => 0x21 | .jr .. => 0x22 | .wait .. => 0x24
  | .waite .. => 0x25 | .evclr .. => 0x26 | .dln .. => 0x27 | .fence => 0x28 | .halt => 0x29 | .pop .. => 0x30
  | .popr .. => 0x31 | .push .. => 0x32 | .pushr .. => 0x33 | .ldn .. => 0x34 | .stn .. => 0x35 | .ldn4 .. => 0x36
  | .stn4 .. => 0x37 | .aadd .. => 0x38 | .aswp .. => 0x39 | .edge .. => 0x3C | .edgel .. => 0x3D | .edger .. => 0x3E

/-- The formats of R230, as sums of their fields in place. -/
def fmtR (op d a b fn low : Nat) : Nat :=
  op * 2 ^ 26 + d * 2 ^ 22 + a * 2 ^ 18 + b * 2 ^ 14 + fn * 2 ^ 8 + low
def fmtI (op d a imm : Nat) : Nat := op * 2 ^ 26 + d * 2 ^ 22 + a * 2 ^ 18 + imm
def fmtW (op d lane keep z imm : Nat) : Nat :=
  op * 2 ^ 26 + d * 2 ^ 22 + lane * 2 ^ 20 + keep * 2 ^ 19 + z * 2 ^ 16 + imm
def fmtB (op a b z target : Nat) : Nat := op * 2 ^ 26 + a * 2 ^ 22 + b * 2 ^ 18 + z * 2 ^ 13 + target
def fmtM (op d a size signed offset : Nat) : Nat :=
  op * 2 ^ 26 + d * 2 ^ 22 + a * 2 ^ 18 + size * 2 ^ 16 + signed * 2 ^ 15 + offset
def fmtN (op d a posted offset : Nat) : Nat :=
  op * 2 ^ 26 + d * 2 ^ 22 + a * 2 ^ 18 + posted * 2 ^ 17 + offset
def fmtQ (op g s posted z q : Nat) : Nat :=
  op * 2 ^ 26 + g * 2 ^ 24 + s * 2 ^ 20 + posted * 2 ^ 19 + z * 2 ^ 16 + q
def fmtE (op t act sub z pin : Nat) : Nat :=
  op * 2 ^ 26 + t * 2 ^ 22 + act * 2 ^ 20 + sub * 2 ^ 16 + z * 2 ^ 10 + pin

/-- The 32-bit word of an instruction (R230, R232). -/
def EngInstr.encode (i : EngInstr) : Nat :=
  match i with
  | .alu fn d a b => fmtR 0x01 d a b fn 0
  | .addi d a imm => fmtI 0x02 d a imm
  | .andi d a imm => fmtI 0x03 d a imm
  | .ori d a imm => fmtI 0x04 d a imm
  | .xori d a imm => fmtI 0x05 d a imm
  | .shi d a k n => fmtI 0x06 d a (k * 2 ^ 6 + n)
  | .movw d lane keep imm => fmtW 0x07 d lane (boolBit keep) 0 imm
  | .ext d a pos len => fmtI 0x08 d a (pos * 2 ^ 6 + len)
  | .ins d a pos len => fmtI 0x09 d a (pos * 2 ^ 6 + len)
  | .get d sel => fmtI 0x0A d 0 sel
  | .ld d a size sg off => fmtM 0x10 d a size (boolBit sg) off
  | .st s a size off => fmtM 0x11 s a size 0 off
  | .tld d a b size sg => fmtR 0x12 d a b (size * 2 ^ 4 + boolBit sg * 2 ^ 3) 0
  | .branch c a b t => fmtB (0x18 + c) a b 0 t
  | .j t => fmtB 0x20 0 0 0 t
  | .jal d t => fmtB 0x21 d 0 0 t
  | .jr a => fmtI 0x22 0 a 0
  | .wait a => fmtI 0x24 0 a 0
  | .waite m => fmtI 0x25 0 0 m
  | .evclr m => fmtI 0x26 0 0 m
  | .dln a => fmtI 0x27 0 a 0
  | .fence => fmtI 0x28 0 0 0
  | .halt => fmtI 0x29 0 0 0
  | .pop g s q => fmtQ 0x30 g s 0 0 q
  | .popr g s a => fmtQ 0x31 g s 0 0 a
  | .push g s p q => fmtQ 0x32 g s (boolBit p) 0 q
  | .pushr g s p a => fmtQ 0x33 g s (boolBit p) 0 a
  | .ldn d a off => fmtN 0x34 d a 0 off
  | .stn s a p off => fmtN 0x35 s a (boolBit p) off
  | .ldn4 g a off => fmtN 0x36 (g * 4) a 0 off
  | .stn4 g a p off => fmtN 0x37 (g * 4) a (boolBit p) off
  | .aadd d a b => fmtR 0x38 d a b 0 0
  | .aswp d a b => fmtR 0x39 d a b 0 0
  | .edge t act sub pin => fmtE 0x3C t act sub 0 pin
  | .edgel t p => fmtI 0x3D t p 0
  | .edger t a => fmtI 0x3E t a 0

/-- What R231 asks of the fields, beside the widths of R230. -/
def EngInstr.wf (i : EngInstr) : Bool :=
  match i with
  | .alu fn d a b => fn < 16 && d < 16 && a < 16 && b < 16 && (fn != 15 || b == 0)
  | .addi d a imm | .andi d a imm | .ori d a imm | .xori d a imm => d < 16 && a < 16 && imm < 2 ^ 18
  | .shi d a k n => d < 16 && a < 16 && k < 4 && n < 64
  | .movw d lane _ imm => d < 16 && lane < 4 && imm < 2 ^ 16
  | .ext d a pos len | .ins d a pos len =>
    d < 16 && a < 16 && pos < 64 && len < 64 && pos + (if len = 0 then 64 else len) ≤ 64
  | .get d sel => d < 16 && sel < 7
  | .ld d a size _ off => d < 16 && a < 16 && size < 4 && off < 2 ^ 15
  | .st s a size off => s < 16 && a < 16 && size < 4 && off < 2 ^ 15
  | .tld d a b size _ => d < 16 && a < 16 && b < 16 && size < 4
  | .branch c a b t => c < 8 && a < 16 && b < 16 && t < 2 ^ 13 && (c < 6 || b == 0)
  | .j t => t < 2 ^ 13
  | .jal d t => d < 16 && t < 2 ^ 13
  | .jr a | .wait a | .dln a => a < 16
  | .waite m | .evclr m => m < 2 ^ 16 && m != 0
  | .fence | .halt => true
  | .pop g s q => g < 4 && s < 16 && q < 2 ^ 16
  | .popr g s a => g < 4 && s < 16 && a < 16
  | .push g s p q => g < 4 && s < 16 && q < 2 ^ 16 && (!p || s == 0)
  | .pushr g s p a => g < 4 && s < 16 && a < 16 && (!p || s == 0)
  | .ldn d a off => d < 16 && a < 16 && off < 2 ^ 17
  | .stn s a _ off => s < 16 && a < 16 && off < 2 ^ 17
  | .ldn4 g a off => g < 4 && a < 16 && off < 2 ^ 17
  | .stn4 g a _ off => g < 4 && a < 16 && off < 2 ^ 17
  | .aadd d a b | .aswp d a b => d < 16 && a < 16 && b < 16
  | .edge t act sub pin => t < 16 && act < 4 && sub < 16 && pin < 2 ^ 10
  | .edgel t p | .edger t p => t < 16 && p < 16

/-- The instruction the opcode `op` and the fields of `w` spell, before the checks of R231 on values (unused fields must
still be read as zero: the second component says so). -/
def decodeFields (op w : Nat) : Option (EngInstr × Bool) :=
  let d := bits w 22 4
  let a := bits w 18 4
  let b := bits w 14 4
  let fn := bits w 8 6
  let imm := bits w 0 18
  let t := bits w 0 13
  let g := bits w 24 2
  let s := bits w 20 4
  let q := bits w 0 16
  let zS := imm == 0
  let zB := bits w 13 5 == 0
  let zQ := bits w 16 3 == 0
  let zK := bits w 16 10 == 0
  let zR := bits w 0 8 == 0
  if op = 0x01 then some (.alu fn d a b, zR)
  else if op = 0x02 then some (.addi d a imm, true)
  else if op = 0x03 then some (.andi d a imm, true)
  else if op = 0x04 then some (.ori d a imm, true)
  else if op = 0x05 then some (.xori d a imm, true)
  else if op = 0x06 then some (.shi d a (bits w 6 2) (bits w 0 6), bits w 8 10 == 0)
  else if op = 0x07 then some (.movw d (bits w 20 2) (bit w 19) q, zQ)
  else if op = 0x08 then some (.ext d a (bits w 6 6) (bits w 0 6), bits w 12 6 == 0)
  else if op = 0x09 then some (.ins d a (bits w 6 6) (bits w 0 6), bits w 12 6 == 0)
  else if op = 0x0A then some (.get d imm, a == 0)
  else if op = 0x10 then some (.ld d a (bits w 16 2) (bit w 15) (bits w 0 15), true)
  else if op = 0x11 then some (.st d a (bits w 16 2) (bits w 0 15), !bit w 15)
  else if op = 0x12 then some (.tld d a b (bits w 12 2) (bit w 11), zR && bits w 8 3 == 0)
  else if 0x18 ≤ op ∧ op ≤ 0x1F then some (.branch (op - 0x18) d a t, zB)
  else if op = 0x20 then some (.j t, zB && d == 0 && a == 0)
  else if op = 0x21 then some (.jal d t, zB && a == 0)
  else if op = 0x22 then some (.jr a, zS && d == 0)
  else if op = 0x24 then some (.wait a, zS && d == 0)
  else if op = 0x25 then some (.waite q, zK)
  else if op = 0x26 then some (.evclr q, zK)
  else if op = 0x27 then some (.dln a, zS && d == 0)
  else if op = 0x28 then some (.fence, zS && d == 0 && a == 0)
  else if op = 0x29 then some (.halt, zS && d == 0 && a == 0)
  else if op = 0x30 then some (.pop g s q, zQ && !bit w 19)
  else if op = 0x31 then some (.popr g s (bits w 0 4), zQ && !bit w 19 && bits w 4 12 == 0)
  else if op = 0x32 then some (.push g s (bit w 19) q, zQ)
  else if op = 0x33 then some (.pushr g s (bit w 19) (bits w 0 4), zQ && bits w 4 12 == 0)
  else if op = 0x34 then some (.ldn d a (bits w 0 17), !bit w 17)
  else if op = 0x35 then some (.stn d a (bit w 17) (bits w 0 17), true)
  else if op = 0x36 then some (.ldn4 g a (bits w 0 17), !bit w 17 && bits w 22 2 == 0)
  else if op = 0x37 then some (.stn4 g a (bit w 17) (bits w 0 17), bits w 22 2 == 0)
  else if op = 0x38 then some (.aadd d a b, zR && fn == 0)
  else if op = 0x39 then some (.aswp d a b, zR && fn == 0)
  else if op = 0x3C then some (.edge d (bits w 20 2) (bits w 16 4) (bits w 0 10), bits w 10 6 == 0)
  else if op = 0x3D then some (.edgel d a, zS)
  else if op = 0x3E then some (.edger d a, zS)
  else none

/-- R231: the instruction a word holds, or none where the word is undefined. -/
def engDecode (w : Nat) : Option EngInstr :=
  match decodeFields (bits w 26 6) w with
  | some (i, zeros) => if zeros && i.wf then some i else none
  | none => none

/-! ### Arithmetic (R233 to R239) -/

/-- R233: the ALU operation FN. -/
def aluOp (fn : Nat) (x y : BitVec 64) : BitVec 64 :=
  let n := y.toNat % 64
  match fn with
  | 0x00 => x + y
  | 0x01 => x - y
  | 0x02 => x &&& y
  | 0x03 => x ||| y
  | 0x04 => x ^^^ y
  | 0x05 => x <<< n
  | 0x06 => x >>> n
  | 0x07 => x.sshiftRight n
  | 0x08 => x * y
  | 0x09 => if x.toInt ≤ y.toInt then x else y
  | 0x0A => if x.toInt ≤ y.toInt then y else x
  | 0x0B => if x.toNat ≤ y.toNat then x else y
  | 0x0C => if x.toNat ≤ y.toNat then y else x
  | 0x0D => if x.toInt < y.toInt then 1 else 0
  | 0x0E => if x.toNat < y.toNat then 1 else 0
  | _ => x

/-- R234: SHI's kinds: SHL, SHR, SAR, rotate right. -/
def shiOp (kind n : Nat) (x : BitVec 64) : BitVec 64 :=
  match kind with
  | 0 => x <<< n
  | 1 => x >>> n
  | 2 => x.sshiftRight n
  | _ => x.rotateRight n

/-- A LEN field: 0 means 64 (R236). -/
def lenOf (len : Nat) : Nat := if len = 0 then 64 else len

/-- R236: EXT. -/
def extOp (pos len : Nat) (x : BitVec 64) : BitVec 64 := BitVec.ofNat 64 (bits x.toNat pos (lenOf len))

/-- A mask of `len` ones at `pos`. -/
def maskAt (pos len : Nat) : BitVec 64 := BitVec.ofNat 64 ((2 ^ len - 1) * 2 ^ pos)

/-- R236: INS of `x` into `old`. -/
def insOp (pos len : Nat) (x old : BitVec 64) : BitVec 64 :=
  (old &&& ~~~(maskAt pos (lenOf len))) ||| ((x <<< pos) &&& maskAt pos (lenOf len))

/-- R237: MOVW. -/
def movwOp (lane : Nat) (keep : Bool) (imm : Nat) (old : BitVec 64) : BitVec 64 :=
  insOp (16 * lane) 16 (BitVec.ofNat 64 imm) (if keep then old else 0)

/-- Sign extension of a `w`-bit field to 64 bits. -/
def sext64 (w v : Nat) : BitVec 64 := BitVec.ofInt 64 (sgn w v)

/-- R239: whether branch condition `c` (opcode less 0x18) holds. -/
def branchTaken (c : Nat) (x y : BitVec 64) : Bool :=
  match c with
  | 0 => x == y
  | 1 => x != y
  | 2 => x.toInt < y.toInt
  | 3 => y.toInt ≤ x.toInt
  | 4 => x.toNat < y.toNat
  | 5 => y.toNat ≤ x.toNat
  | 6 => x == 0
  | _ => x != 0

/-- R241: a loaded field of `2^size` bytes, zero- or sign-extended. -/
def extend (size : Nat) (signed : Bool) (v : Nat) : BitVec 64 :=
  if signed then sext64 (8 * 2 ^ size) v else BitVec.ofNat 64 v

/-- R252: an edge list entry's PIN, ACT, SUB and OFFSET. -/
def entryPin (e : BitVec 64) : Nat := bits e.toNat 54 10
def entryAct (e : BitVec 64) : Nat := bits e.toNat 52 2
def entrySub (e : BitVec 64) : Nat := bits e.toNat 48 4
def entryOffset (e : BitVec 64) : Nat := bits e.toNat 0 32

end Sys2Proof.Machine
end

