-- ==== Sys2Proof/Machine/Instructions.lean ====
section
/-! DEFINITION. The engine instructions (chapter 6). A row of an instruction says that engine `n` issues it from context
`k`; it happens when R190 selects that context and the word at its PC is that instruction. -/

namespace Sys2Proof.Machine

/-! ### Fetch (R227, R255) -/

/-- R227: the instruction word at a context's PC: none where its memory word cannot be corrected. -/
def fetchWord (s : State) (n : Nat) (pc : BitVec 13) : Option Nat :=
  let x := eword s false n (pc.toNat / 2)
  if 2 ≤ flipKind x.flips then none else some (bits (ewordData x).toNat (32 * (pc.toNat % 2)) 32)

/-- R190: the context is selected to issue; it then is RUNNING and the others are not. -/
def mayIssue (s : State) (n k : Nat) : Bool := k < 4 && ctxLives s n && selected s n k
def run (n k : Nat) (s : State) : State :=
  forEach (List.range 4) (fun j a => a.modCtx (4 * n + j) fun c =>
    if j = k then { c with state := .running } else if c.state = .running then { c with state := .ready } else c) s

/-- Change the issuing context. -/
def onCtx (n k : Nat) (f : Ctx → Ctx) (s : State) : State := s.modCtx (4 * n + k) f

/-- An instruction that writes register `d` and goes on. -/
def writeReg (n k d : Nat) (v : BitVec 64) (s : State) : State := onCtx n k (fun c => (c.setReg d v).advance) s

/-! ### Data memory (R241, R242) -/

/-- R241: the byte address of an access of `2^size` bytes is in range and aligned. -/
def dataOk (x : BitVec 64) (size : Nat) : Bool := x.toNat < 32768 && x.toNat % 2 ^ size = 0

/-- R241, R242: a load of `2^size` bytes at `x` into register `d`. -/
def loadData (n k d : Nat) (x : BitVec 64) (size : Nat) (signed : Bool) (s : State) : State :=
  if !dataOk x size then faultCtx n k 0x04 (x.toNat % 2 ^ 16) s else
  let w := x.toNat / 8
  match readEword true n w s with
  | (none, s) => faultCtx n k 0x02 w s
  | (some v, s) => writeReg n k d (extend size signed (bits v.toNat (8 * (x.toNat % 8)) (8 * 2 ^ size))) s

/-- R241, R186: a store of the low `2^size` bytes of `v` at `x`; below 8 bytes the word is read first. -/
def storeData (n k : Nat) (x : BitVec 64) (size : Nat) (v : BitVec 64) (s : State) : State :=
  if !dataOk x size then faultCtx n k 0x04 (x.toNat % 2 ^ 16) s else
  let w := x.toNat / 8
  if size = 3 then onCtx n k Ctx.advance (setEword true n w { data := v } s) else
  match readEword true n w s with
  | (none, s) => faultCtx n k 0x02 w s
  | (some old, s) =>
    onCtx n k Ctx.advance (setEword true n w { data := insOp (8 * (x.toNat % 8)) (8 * 2 ^ size) v old } s)

/-! ### Requests (R199, R246 to R250) -/

/-- R199: send a request, or wait for a tracking slot or one of the 8 posted requests. -/
def sendRequest (n k : Nat) (r : EngReq) (s : State) : State :=
  let e := s.engine n
  let c := s.ctx (4 * n + k)
  if r.posted ∧ 8 ≤ c.posted then onCtx n k (fun c => { c with state := .waitNoc, wait := .ownPosted }) s
  else if 32 ≤ outstanding e then onCtx n k (fun c => { c with state := .waitNoc, wait := .reissue }) s
  else
    let s := s.modEngine n fun e =>
      { e with reqs := tset none e.reqs (freeTag e) (some r), unsent := e.unsent ++ [freeTag e] }
    onCtx n k (fun c => if r.posted then { c.advance with posted := c.posted + 1 }
      else { c with state := .waitNoc, wait := .answer, waitTag := freeTag e }) s

/-- R246: the item of a group. -/
def groupWords (c : Ctx) (g : Nat) : List (BitVec 64) := (List.range 4).map fun i => c.reg (4 * g + i)

/-! ### Edges (R251 to R253) -/

/-- R204: a credit that arrives in the cycle of an edge is used by that edge. -/
def creditsDue (p : Nat) (s : State) : State := (s.pin p).returning.foldl (fun a _ => returnEdgeCredit p a) s

/-- R251: submit an edge; `more` is what the instruction does beside when it completes. -/
def issueEdge (n k p act t sub : Nat) (more : Ctx → Ctx) (s : State) : State :=
  let s := creditsDue p s
  let noCredit (s : State) : State := s.modPin p fun x => { x with ovf := true }
  match judgeEdge s n p t sub with
  | .fault code => faultCtx n k code p (if code = 0x09 then noCredit s else s)
  | .stall => onCtx n k (fun c => { c with state := .waitPin, pinWait := p }) (noCredit s)
  | .drop => onCtx n k (fun c => more c.advance) (lateEdge n p s)
  | .accept time late => onCtx n k (fun c => more c.advance) (sendEdge p time act (if late then lateEdge n p s else s))

/-! ### The instructions (R233 to R251) -/

/-- R238: the value GET selects. -/
def getValue (s : State) (n k sel : Nat) : BitVec 64 :=
  let c := s.ctx (4 * n + k)
  let e := s.engine n
  if sel = 0 then BitVec.ofNat 64 s.now
  else if sel = 1 then BitVec.ofNat 64 (n + k * 2 ^ 8)
  else if sel = 2 then c.deadline
  else if sel = 3 then BitVec.ofNat 64 (engPend s n)
  else if sel = 4 then BitVec.ofNat 64 (flag e.timeInvalid 0 + flag c.dlMiss 1 + flag e.postedErr 2)
  else if sel = 5 then BitVec.ofNat 64 c.posted
  else BitVec.ofNat 64 (leadTicks s)

/-- R239: a branch. -/
def branchTo (n k : Nat) (taken : Bool) (target : Nat) (s : State) : State :=
  onCtx n k (fun c => if taken then { c with pc := BitVec.ofNat 13 target } else c.advance) s

/-- R243: WAIT. -/
def waitTick (n k : Nat) (w : BitVec 64) (s : State) : State :=
  if (s.ctx (4 * n + k)).needTime ∧ (s.engine n).timeInvalid then faultCtx n k 0x0B 0 s
  else onCtx n k (fun c => reachWait n s { c with target := w } false) s

/-- R244: WAITE; a bit already pending is seen. -/
def waitEvent (n k mask : Nat) (s : State) : State :=
  wakeEvents (onCtx n k (fun c => reachWait n s { c with mask := BitVec.ofNat 16 mask } true) s)

/-- R244: EVCLR. -/
def clearEvents (n mask : Nat) (s : State) : State :=
  { s with eng := { s.eng with evtPend := tmap 0 (fun line v =>
      if bit mask line then v &&& ~~~ BitVec.twoPow 96 n else v) s.eng.evtPend } }

/-- What an instruction does, issued by context `k` of engine `n` (R228: sources are read before anything is written). -/
def perform (n k : Nat) (i : EngInstr) (s : State) : State :=
  let c := s.ctx (4 * n + k)
  let v (r : Nat) := c.reg r
  let at_ (a off : Nat) := v a + sext64 17 off
  match i with
  | .alu fn d a b => writeReg n k d (aluOp fn (v a) (v b)) s
  | .addi d a imm => writeReg n k d (v a + sext64 18 imm) s
  | .andi d a imm => writeReg n k d (v a &&& BitVec.ofNat 64 imm) s
  | .ori d a imm => writeReg n k d (v a ||| BitVec.ofNat 64 imm) s
  | .xori d a imm => writeReg n k d (v a ^^^ BitVec.ofNat 64 imm) s
  | .shi d a kind amount => writeReg n k d (shiOp kind amount (v a)) s
  | .movw d lane keep imm => writeReg n k d (movwOp lane keep imm (v d)) s
  | .ext d a pos len => writeReg n k d (extOp pos len (v a)) s
  | .ins d a pos len => writeReg n k d (insOp pos len (v a) (v d)) s
  | .get d sel => writeReg n k d (getValue s n k sel) s
  | .ld d a size signed offset => loadData n k d (v a + sext64 15 offset) size signed s
  | .st r a size offset => storeData n k (v a + sext64 15 offset) size (v r) s
  | .tld d a b size signed => loadData n k d (v a + v b <<< size) size signed s
  | .branch cond a b target => branchTo n k (branchTaken cond (v a) (v b)) target s
  | .j target => branchTo n k true target s
  | .jal d target =>
    onCtx n k (fun c => { c.setReg d (BitVec.ofNat 64 (c.pc + 1).toNat) with pc := BitVec.ofNat 13 target }) s
  | .jr a => branchTo n k true (v a).toNat s
  | .wait a => waitTick n k (v a) s
  | .waite mask => waitEvent n k mask s
  | .evclr mask => onCtx n k Ctx.advance (clearEvents n mask s)
  | .dln a => onCtx n k (fun c => { c.advance with deadline := v a, missed := false }) s
  | .fence => onCtx n k (fun c => if c.posted = 0 then c.advance else { c with state := .waitNoc, wait := .fence }) s
  | .halt => onCtx n k (fun c => { c.advance with state := .idle, stopAtWait := false, stopNow := false }) s
  | .pop g r q => sendRequest n k ⟨k, false, .pop g r, BitVec.ofNat 64 q, []⟩ s
  | .popr g r a => sendRequest n k ⟨k, false, .pop g r, BitVec.ofNat 64 ((v a).toNat % 2 ^ 16), []⟩ s
  | .push g r posted q => sendRequest n k ⟨k, posted, .push r, BitVec.ofNat 64 q, groupWords c g⟩ s
  | .pushr g r posted a =>
    sendRequest n k ⟨k, posted, .push r, BitVec.ofNat 64 ((v a).toNat % 2 ^ 16), groupWords c g⟩ s
  | .ldn d a offset => sendRequest n k ⟨k, false, .load d, at_ a offset, []⟩ s
  | .stn r a posted offset => sendRequest n k ⟨k, posted, .store, at_ a offset, [v r]⟩ s
  | .ldn4 g a offset => sendRequest n k ⟨k, false, .load4 g, at_ a offset, []⟩ s
  | .stn4 g a posted offset => sendRequest n k ⟨k, posted, .store, at_ a offset, groupWords c g⟩ s
  | .aadd d a b => sendRequest n k ⟨k, false, .atomic true d, v a, [v b]⟩ s
  | .aswp d a b => sendRequest n k ⟨k, false, .atomic false d, v a, [v b]⟩ s
  | .edge t act sub pin => issueEdge n k pin act (v t).toNat sub id s
  | .edgel t p =>
    if !dataOk (v p) 3 then faultCtx n k 0x04 ((v p).toNat % 2 ^ 16) s else
    match readEword true n ((v p).toNat / 8) s with
    | (none, s) => faultCtx n k 0x02 ((v p).toNat / 8) s
    | (some e, s) =>
      issueEdge n k (entryPin e) (entryAct e) (v t + BitVec.ofNat 64 (entryOffset e)).toNat (entrySub e)
        (fun c => c.setReg p (v p + 8)) s
  | .edger t a =>
    let e := v a
    issueEdge n k (entryPin e) (entryAct e) (v t + BitVec.ofNat 64 (entryOffset e)).toNat (entrySub e) id s

/-- One issue: the fetch (with its fault, R255), then the instruction when it is the row's. -/
def issue (is : EngInstr → Bool) (n k : Nat) (s : State) : State :=
  if !mayIssue s n k then s else
  let pc := (s.ctx (4 * n + k)).pc
  match fetchWord s n pc with
  | none => reapStops (faultCtx n k 0x01 (pc.toNat / 2) (countEword false n (pc.toNat / 2) s))
  | some w =>
    match engDecode w with
    | none => s
    | some i => if is i then reapStops (perform n k i (run n k (countEword false n (pc.toNat / 2) s))) else s

def execAlu (n k : Nat) (s : State) : Host.Outcome State Fault Refusal :=
  effect (issue (fun | .alu .. => true | _ => false) n k) s
def execAddi (n k : Nat) (s : State) : Host.Outcome State Fault Refusal :=
  effect (issue (fun | .addi .. => true | _ => false) n k) s
def execAndi (n k : Nat) (s : State) : Host.Outcome State Fault Refusal :=
  effect (issue (fun | .andi .. => true | _ => false) n k) s
def execOri (n k : Nat) (s : State) : Host.Outcome State Fault Refusal :=
  effect (issue (fun | .ori .. => true | _ => false) n k) s
def execXori (n k : Nat) (s : State) : Host.Outcome State Fault Refusal :=
  effect (issue (fun | .xori .. => true | _ => false) n k) s
def execShi (n k : Nat) (s : State) : Host.Outcome State Fault Refusal :=
  effect (issue (fun | .shi .. => true | _ => false) n k) s
def execMovw (n k : Nat) (s : State) : Host.Outcome State Fault Refusal :=
  effect (issue (fun | .movw .. => true | _ => false) n k) s
def execExt (n k : Nat) (s : State) : Host.Outcome State Fault Refusal :=
  effect (issue (fun | .ext .. => true | _ => false) n k) s
def execIns (n k : Nat) (s : State) : Host.Outcome State Fault Refusal :=
  effect (issue (fun | .ins .. => true | _ => false) n k) s
def execGet (n k : Nat) (s : State) : Host.Outcome State Fault Refusal :=
  effect (issue (fun | .get .. => true | _ => false) n k) s
def execLd (n k : Nat) (s : State) : Host.Outcome State Fault Refusal :=
  effect (issue (fun | .ld .. => true | _ => false) n k) s
def execSt (n k : Nat) (s : State) : Host.Outcome State Fault Refusal :=
  effect (issue (fun | .st .. => true | _ => false) n k) s
def execTld (n k : Nat) (s : State) : Host.Outcome State Fault Refusal :=
  effect (issue (fun | .tld .. => true | _ => false) n k) s
def execBeq (n k : Nat) (s : State) : Host.Outcome State Fault Refusal :=
  effect (issue (fun | .branch 0 .. => true | _ => false) n k) s
def execBne (n k : Nat) (s : State) : Host.Outcome State Fault Refusal :=
  effect (issue (fun | .branch 1 .. => true | _ => false) n k) s
def execBlt (n k : Nat) (s : State) : Host.Outcome State Fault Refusal :=
  effect (issue (fun | .branch 2 .. => true | _ => false) n k) s
def execBge (n k : Nat) (s : State) : Host.Outcome State Fault Refusal :=
  effect (issue (fun | .branch 3 .. => true | _ => false) n k) s
def execBltu (n k : Nat) (s : State) : Host.Outcome State Fault Refusal :=
  effect (issue (fun | .branch 4 .. => true | _ => false) n k) s
def execBgeu (n k : Nat) (s : State) : Host.Outcome State Fault Refusal :=
  effect (issue (fun | .branch 5 .. => true | _ => false) n k) s
def execBz (n k : Nat) (s : State) : Host.Outcome State Fault Refusal :=
  effect (issue (fun | .branch 6 .. => true | _ => false) n k) s
def execBnz (n k : Nat) (s : State) : Host.Outcome State Fault Refusal :=
  effect (issue (fun | .branch 7 .. => true | _ => false) n k) s
def execJ (n k : Nat) (s : State) : Host.Outcome State Fault Refusal :=
  effect (issue (fun | .j .. => true | _ => false) n k) s
def execJal (n k : Nat) (s : State) : Host.Outcome State Fault Refusal :=
  effect (issue (fun | .jal .. => true | _ => false) n k) s
def execJr (n k : Nat) (s : State) : Host.Outcome State Fault Refusal :=
  effect (issue (fun | .jr .. => true | _ => false) n k) s
def execWait (n k : Nat) (s : State) : Host.Outcome State Fault Refusal :=
  effect (issue (fun | .wait .. => true | _ => false) n k) s
def execWaite (n k : Nat) (s : State) : Host.Outcome State Fault Refusal :=
  effect (issue (fun | .waite .. => true | _ => false) n k) s
def execEvclr (n k : Nat) (s : State) : Host.Outcome State Fault Refusal :=
  effect (issue (fun | .evclr .. => true | _ => false) n k) s
def execDln (n k : Nat) (s : State) : Host.Outcome State Fault Refusal :=
  effect (issue (fun | .dln .. => true | _ => false) n k) s
def execFence (n k : Nat) (s : State) : Host.Outcome State Fault Refusal :=
  effect (issue (fun | .fence => true | _ => false) n k) s
def execHalt (n k : Nat) (s : State) : Host.Outcome State Fault Refusal :=
  effect (issue (fun | .halt => true | _ => false) n k) s
def execPop (n k : Nat) (s : State) : Host.Outcome State Fault Refusal :=
  effect (issue (fun | .pop .. => true | _ => false) n k) s
def execPopr (n k : Nat) (s : State) : Host.Outcome State Fault Refusal :=
  effect (issue (fun | .popr .. => true | _ => false) n k) s
def execPush (n k : Nat) (s : State) : Host.Outcome State Fault Refusal :=
  effect (issue (fun | .push .. => true | _ => false) n k) s
def execPushr (n k : Nat) (s : State) : Host.Outcome State Fault Refusal :=
  effect (issue (fun | .pushr .. => true | _ => false) n k) s
def execLdn (n k : Nat) (s : State) : Host.Outcome State Fault Refusal :=
  effect (issue (fun | .ldn .. => true | _ => false) n k) s
def execStn (n k : Nat) (s : State) : Host.Outcome State Fault Refusal :=
  effect (issue (fun | .stn .. => true | _ => false) n k) s
def execLdn4 (n k : Nat) (s : State) : Host.Outcome State Fault Refusal :=
  effect (issue (fun | .ldn4 .. => true | _ => false) n k) s
def execStn4 (n k : Nat) (s : State) : Host.Outcome State Fault Refusal :=
  effect (issue (fun | .stn4 .. => true | _ => false) n k) s
def execAadd (n k : Nat) (s : State) : Host.Outcome State Fault Refusal :=
  effect (issue (fun | .aadd .. => true | _ => false) n k) s
def execAswp (n k : Nat) (s : State) : Host.Outcome State Fault Refusal :=
  effect (issue (fun | .aswp .. => true | _ => false) n k) s
def execEdge (n k : Nat) (s : State) : Host.Outcome State Fault Refusal :=
  effect (issue (fun | .edge .. => true | _ => false) n k) s
def execEdgel (n k : Nat) (s : State) : Host.Outcome State Fault Refusal :=
  effect (issue (fun | .edgel .. => true | _ => false) n k) s
def execEdger (n k : Nat) (s : State) : Host.Outcome State Fault Refusal :=
  effect (issue (fun | .edger .. => true | _ => false) n k) s

/-- R231: an undefined instruction faults its context with ILLEGAL. -/
def illegal (n k : Nat) (s : State) : State :=
  if !mayIssue s n k then s else
  let pc := (s.ctx (4 * n + k)).pc
  match fetchWord s n pc with
  | none => reapStops (faultCtx n k 0x01 (pc.toNat / 2) (countEword false n (pc.toNat / 2) s))
  | some w =>
    match engDecode w with
    | some _ => s
    | none => reapStops (faultCtx n k 0x03 (w % 2 ^ 16) (countEword false n (pc.toNat / 2) s))
def execIllegalInstruction (n k : Nat) (s : State) : Host.Outcome State Fault Refusal := effect (illegal n k) s

end Sys2Proof.Machine
end

