-- ==== Sys2Proof/Machine/Lanes.lean ====
section
/-! DEFINITION. Serial lanes and their streams (chapter 12): line coding, quads, rings, registers with rows of their own. -/

namespace Sys2Proof.Machine

/-! ### 8b/10b (R450): the common code, bit a of a character in bit 0 -/

/-- The 5b/6b sub-block of D.x at negative disparity, written abcdei with a first. -/
def sixTable : List (List Nat) :=
  [[1,0,0,1,1,1], [0,1,1,1,0,1], [1,0,1,1,0,1], [1,1,0,0,0,1], [1,1,0,1,0,1], [1,0,1,0,0,1], [0,1,1,0,0,1], [1,1,1,0,0,0]]
    ++ [[1,1,1,0,0,1], [1,0,0,1,0,1], [0,1,0,1,0,1], [1,1,0,1,0,0], [0,0,1,1,0,1], [1,0,1,1,0,0], [0,1,1,1,0,0], [0,1,0,1,1,1]]
    ++ [[0,1,1,0,1,1], [1,0,0,0,1,1], [0,1,0,0,1,1], [1,1,0,0,1,0], [0,0,1,0,1,1], [1,0,1,0,1,0], [0,1,1,0,1,0], [1,1,1,0,1,0]]
    ++ [[1,1,0,0,1,1], [1,0,0,1,1,0], [0,1,0,1,1,0], [1,1,0,1,1,0], [0,0,1,1,1,0], [1,0,1,1,1,0], [0,1,1,1,1,0], [1,0,1,0,1,1]]
/-- The 3b/4b sub-block of D.y and of K.y at negative disparity, fghj. -/
def fourTable : List (List Nat) :=
  [[1,0,1,1], [1,0,0,1], [0,1,0,1], [1,1,0,0], [1,1,0,1], [1,0,1,0], [0,1,1,0], [1,1,1,0]]
def fourTableK : List (List Nat) :=
  [[1,0,1,1], [0,1,1,0], [1,0,1,0], [1,1,0,0], [1,1,0,1], [0,1,0,1], [1,0,0,1], [0,1,1,1]]

def onesOf (l : List Nat) : Nat := l.foldl (· + ·) 0
def flipAll (l : List Nat) : List Nat := l.map (1 - ·)
/-- A sub-block at the given disparity: it is inverted at positive disparity when it is unbalanced, or is one of the two
balanced ones that alternate. -/
def subBlock (l : List Nat) (pos alternates : Bool) : List Nat :=
  if pos && (decide (2 * onesOf l ≠ l.length) || alternates) then flipAll l else l
/-- The disparity after a sub-block. -/
def afterBlock (l : List Nat) (pos : Bool) : Bool :=
  if l.length < 2 * onesOf l then true else if 2 * onesOf l < l.length then false
  else if l = [0,0,0,1,1,1] ∨ l = [0,0,1,1] then true else if l = [1,1,1,0,0,0] ∨ l = [1,1,0,0] then false else pos

/-- R450: the 12 valid K characters. -/
def validK (v : Nat) : Bool := v % 32 = 28 || [0xF7, 0xFB, 0xFD, 0xFE].contains v

/-- R450: the character of value `v` (K or data) at running disparity `pos`. -/
def encode8b10b (k : Bool) (v : Nat) (pos : Bool) : List Nat :=
  let x := v % 32
  let y := v / 32 % 8
  let six := if k && x = 28 then subBlock [0,0,1,1,1,1] pos false else subBlock (lget [] sixTable x) pos (x = 7)
  let mid := afterBlock six pos
  let alt := k || (y = 7 && (if mid then x = 11 || x = 13 || x = 14 else x = 17 || x = 18 || x = 20))
  let four :=
    if k then (if mid then flipAll (lget [] fourTableK y) else lget [] fourTableK y)
    else if alt then (if mid then [1,0,0,0] else [0,1,1,1])
    else subBlock (lget [] fourTable y) mid (y = 3)
  six ++ four

def listNat (l : List Nat) : Nat := l.foldr (fun b a => b + 2 * a) 0
def natList (n v : Nat) : List Nat := (List.range n).map fun i => v / 2 ^ i % 2

/-- A received character (R450, R455). -/
structure RxChar where
  k : Bool
  value : Nat
  codeErr : Bool
  dispErr : Bool
deriving DecidableEq, Repr

/-- The character values, K characters first. -/
def charValues : List (Bool × Nat) :=
  (((List.range 256).filter validK).map fun v => (true, v)) ++ ((List.range 256).map fun v => (false, v))
def findChar (c : List Nat) (pos : Bool) : Option (Bool × Nat) := charValues.find? fun e => encode8b10b e.1 e.2 pos = c

/-- R450: what the receiver makes of a character at running disparity `pos`. -/
def decode8b10b (c : List Nat) (pos : Bool) : RxChar :=
  match findChar c pos with
  | some (k, v) => ⟨k, v, false, false⟩
  | none => match findChar c (!pos) with
    | some (k, v) => ⟨k, v, false, true⟩
    | none => ⟨false, 0, true, false⟩
/-- R450: the disparity taken from a character. -/
def disparityOf (c : List Nat) (pos : Bool) : Bool := afterBlock (c.drop 6) (afterBlock (c.take 6) pos)

/-! ### PAM4 (R448) and PRBS (R482) -/

/-- R448: the level of a bit pair (first bit first), and back. -/
def grayLevel (a b : Nat) : Nat := if a = 0 then b else 3 - b
def grayBits (g : Nat) : List Nat := if g < 2 then [0, g] else [1, 3 - g]

/-- The bits of received PAM4 levels, with P(n-1) `last`; and the new P(n-1). -/
def pam4Receive (inv pre : Bool) : List Nat → Nat → List Nat × Nat
  | [], last => ([], last)
  | l :: t, last =>
    let p := if inv then 3 - l else l
    let r := pam4Receive inv pre t p
    (grayBits (if pre then (p + last) % 4 else p) ++ r.1, r.2)
/-- The levels sent for bits. -/
def pam4Send (inv pre : Bool) : List Nat → Nat → List Nat × Nat
  | a :: b :: t, last =>
    let g := grayLevel a b
    let p := if pre then (g + 4 - last) % 4 else g
    let r := pam4Send inv pre t p
    ((if inv then 3 - p else p) :: r.1, r.2)
  | _, last => ([], last)

/-- R482: the next bit of PRBS7 (x^7 + x^6 + 1) or PRBS31 (x^31 + x^28 + 1), whose names the spec does not expand
(PRESUMED, log 71), from the last 31 bits. -/
def prbsBit (kind : Nat) (r : BitVec 31) : Nat :=
  if kind = 1 then b2n (r.getLsbD 6 != r.getLsbD 5) else b2n (r.getLsbD 30 != r.getLsbD 27)
def prbsShift (r : BitVec 31) (b : Nat) : BitVec 31 := (r <<< 1) ||| BitVec.ofNat 31 b
def prbsCheck (kind : Nat) (r : BitVec 31) : List Nat → Nat × BitVec 31
  | [] => (0, r)
  | b :: t =>
    let n := prbsCheck kind (prbsShift r b) t
    (n.1 + (if prbsBit kind r = b then 0 else 1), n.2)
def prbsRun (kind : Nat) (r : BitVec 31) : Nat → List Nat × BitVec 31
  | 0 => ([], r)
  | n + 1 =>
    let b := prbsBit kind r
    let x := prbsRun kind (prbsShift r b) n
    (b :: x.1, x.2)

/-! ### Lanes and quads -/

/-- R461: a flag of a lane sets: event 192 + its quad. -/
def laneEvent (l : Nat) (s : State) : State := raiseEvent (192 + l / 4) s

/-- R444: a lane's mode. -/
def laneMode (s : State) (l : Nat) : Nat := (s.quad (l / 4)).qmode

/-- R456, R458, R463, R466, R467: a lane's streams may run (NRZ and PAM4; an Ethernet lane's rings serve its port). -/
def quadServes (s : State) (q : Nat) : Bool :=
  decide ((s.quad q).state = .on) && !(s.quad q).refLost && decide (s.dev.mode ≠ .hold)
def streamLane (s : State) (l : Nat) : Bool :=
  l < 80 && quadServes s (l / 4) && (laneMode s l = 2 || laneMode s l = 3)

/-- R454: the device address of a byte count. -/
def ringAddr (base size x : Nat) : Nat := base + x % 2 ^ size
/-- R454: the fill between two byte counts. -/
def ringFill (w r : Nat) : Nat := (w + 2 ^ 32 - r) % 2 ^ 32

/-- R454, R476: a range split at every 256-byte boundary: (start, length) of each piece. -/
def pieces : Nat → Nat → Nat → List (Nat × Nat)
  | 0, _, _ => []
  | fuel + 1, f, len =>
    if len = 0 then [] else
    let n := min len (256 - f % 256)
    (f, n) :: pieces fuel (f + n) (len - n)

/-! ### The receive stream (R455 to R457) -/

/-- R457: the gathered bytes are written, or dropped where they do not fit. -/
def issueRx (l n : Nat) (s : State) : State :=
  let x := s.lane l
  let data := x.rxBuf.take n
  if x.freeRun ∨ ringFill (x.rxNext + n) x.rxRptr ≤ 2 ^ x.rxSize then
    s.modLane l fun y => { y with rxBuf := y.rxBuf.drop n, rxNext := (y.rxNext + n) % 2 ^ 32
                                  rxOut := y.rxOut ++ [⟨ringAddr y.rxBase y.rxSize y.rxNext, data, n, false⟩] }
  else
    laneEvent l (s.modLane l fun y => { y with rxBuf := y.rxBuf.drop n, overrun := true
                                               dropBytes := min (y.dropBytes + n) (2 ^ 32 - 1) })

/-- R456, R463: writes of blocks that have gathered up to a multiple of 256, while the stream runs and fewer than 8 are
outstanding; `all` writes every complete 32-byte unit too. -/
def pumpRx (l : Nat) (all : Bool) : Nat → State → State
  | 0, s => s
  | fuel + 1, s =>
    let x := s.lane l
    let block := 256 - x.rxNext % 256
    let units := (x.rxNext + x.rxBuf.length) / 32 * 32 - x.rxNext
    if 8 ≤ x.rxOut.length ∨ !quadServes s (l / 4) ∨ !x.rxEn ∨ x.rxStopped then s
    else if block ≤ x.rxBuf.length then pumpRx l all fuel (issueRx l block s)
    else if all ∧ 0 < units ∧ units ≤ x.rxBuf.length then pumpRx l all fuel (issueRx l units s)
    else s

/-- R457, R459: `n` bytes are discarded and counted. -/
def discardRx (n : Nat) (y : Lane) : Lane := { y with dropBytes := min (y.dropBytes + n) (2 ^ 32 - 1) }

/-- Bytes of the stream arrive. A stopped stream discards and counts them (R459). -/
def receiveBytes (l : Nat) (data : List Byte) (s : State) : State :=
  if (s.lane l).rxStopped then s.modLane l (discardRx data.length)
  else pumpRx l false 16 (s.modLane l fun y => { y with rxBuf := y.rxBuf ++ data })

/-- R455: a character as stored; FORMAT codes 0b10 and 0b11 are not given (free values, log 72). -/
def storeChar (l : Nat) (c : RxChar) (fill : Bool) (s : State) : State :=
  let f := (s.lane l).format
  let s := if f = 0 then
      receiveBytes l [BitVec.ofNat 8 (if c.codeErr then 0 else c.value),
        BitVec.ofNat 8 (flag c.k 0 + flag c.codeErr 1 + flag c.dispErr 2 + flag fill 3)] s
    else if f = 1 then
      (if c.k || fill || c.codeErr || c.dispErr then s else receiveBytes l [BitVec.ofNat 8 c.value] s)
    else
      let (d, s) := draw 16 s
      receiveBytes l (leBytes 2 d.toNat) s
  s.modLane l fun y => { y with rxOdd := !y.rxOdd }

/-- R451: an aligning character. -/
def aligns (x : Lane) (c : RxChar) : Bool :=
  c.k && !c.codeErr && (if x.align = 2 then c.value = x.alignK else [0x3C, 0xBC, 0xFC].contains c.value)

/-- R452: a flagged character while ALIGNED; 16 within 256 lose the alignment. -/
def noteFlag (l : Nat) (bad : Bool) (s : State) : State :=
  let s := s.modLane l fun y =>
    { y with flagged := (y.flagged <<< 1) ||| BitVec.ofNat 256 (b2n bad)
             errs := if bad then satAdd 16 y.errs 1 else y.errs }
  let x := s.lane l
  if x.align ≠ 0 ∧ 16 ≤ ((List.range 256).filter fun i => x.flagged.getLsbD i).length then
    laneEvent l (s.modLane l fun y => { y with aligned := false, syncLost := true, flagged := 0 })
  else s

/-- R450 to R452: an 8b/10b character. -/
def receiveChar (l : Nat) (bits10 : List Nat) (s : State) : State :=
  let x := s.lane l
  let c := decode8b10b bits10 x.rxDisp
  let s := s.modLane l fun y => { y with rxDisp := disparityOf bits10 y.rxDisp }
  if x.align ≠ 0 ∧ !x.aligned then
    if aligns x c then
      storeChar l c false (s.modLane l fun y => { y with aligned := true, rxOdd := false, flagged := 0 })
    else s
  else
    let s := if x.align = 3 ∧ aligns x c ∧ x.rxOdd then storeChar l ⟨false, 0, false, false⟩ true s else s
    noteFlag l (c.codeErr || c.dispErr) (storeChar l c false s)

/-- The bits of a received group: in NRZ `v` holds them, first bit in bit 0; in PAM4 it holds levels of two bits each. -/
def receiveGroup (l n v : Nat) (s : State) : List Nat × State :=
  let x := s.lane l
  if laneMode s l = 3 then
    let r := pam4Receive x.rxInv x.rxPrecode ((List.range (n / 2)).map fun i => v / 4 ^ i % 4) x.rxLast
    (r.1, s.modLane l fun y => { y with rxLast := r.2 })
  else (if x.rxInv then flipAll (natList n v) else natList n v, s)

/-- R456: a character (8B10B) or a group of 8 bits (RAW) reaches the receive stream. -/
def receiveLane (l v : Nat) (s : State) : State :=
  let x := s.lane l
  let n := if x.coding = 1 ∧ laneMode s l = 2 then 10 else 8
  let (b, s) := receiveGroup l n v s
  if x.prbs ≠ 0 then
    let r := prbsCheck x.prbs x.rxPrbs b
    s.modLane l fun y => { y with rxPrbs := r.2, errs := satAdd 16 y.errs r.1 }
  else if n = 10 then receiveChar l b s
  else receiveBytes l [BitVec.ofNat 8 (listNat b)] s
def execLaneRxCharacter (l v : Nat) (s : State) : Host.Outcome State Fault Refusal :=
  effect (when (streamLane s l && (s.lane l).rxEn && (s.lane l).rxLock && !(s.lane l).los) (receiveLane l v)) s

/-- R456: FLUSH has passed with no unit completed. -/
def execLaneRxFlushTimer (l : Nat) (s : State) : Host.Outcome State Fault Refusal :=
  effect (when (streamLane s l && (s.lane l).rxEn && decide ((s.lane l).rxFlush ≠ 0) && !(s.lane l).rxStopped)
    (pumpRx l true 16)) s

/-! ### The transmit stream (R458) -/

/-- R458: bytes read or being read. -/
def txHeld (x : Lane) : Nat := x.txBuf.length + x.txOut.foldl (fun a r => a + r.len) 0

/-- R458: reads are issued while the ring holds more and 256 bytes have room. -/
def pumpTx (l : Nat) : Nat → State → State
  | 0, s => s
  | fuel + 1, s =>
    let x := s.lane l
    let ahead := ringFill x.txWptr x.txNext
    let n := if 2 ^ x.txSize < ahead then 0 else min (256 - x.txNext % 256) ahead
    if streamLane s l && x.txEn && !x.txStopped && decide (x.prbs = 0) && decide (0 < n) && decide (txHeld x + 256 ≤ 1024)
    then pumpTx l fuel (s.modLane l fun y =>
      { y with txNext := (y.txNext + n) % 2 ^ 32, txOut := y.txOut ++ [⟨ringAddr y.txBase y.txSize y.txNext, n, none, false⟩] })
    else s

/-- Bytes of a character in the transmit ring (R455, R458). -/
def txCharBytes (x : Lane) : Nat := if x.coding = 1 ∧ x.format ≠ 1 then 2 else 1

/-- R458: a K character that is not valid is sent as K28.5. -/
def fixK (v : Nat) : Nat := if validK v then v else 0xBC

/-- R458: what the lane sends next: the bits of its character or group, and what that leaves of the lane. -/
def nextBits (mode : Nat) (running : Bool) (x : Lane) : List Nat × Lane :=
  let b := txCharBytes x
  let have_ := running && decide (b ≤ x.txBuf.length)
  let taken : Lane := if have_ then { x with txBuf := x.txBuf.drop b, txRptr := (x.txRptr + b) % 2 ^ 32 } else x
  if x.coding = 1 ∧ mode = 2 then
    let k := if have_ then b = 2 && ((x.txBuf.drop 1).headD 0).getLsbD 0 else true
    let v := if have_ then (x.txBuf.headD 0).toNat else x.idleK
    let c := encode8b10b k (if k then fixK v else v) x.txDisp
    (c, { taken with txDisp := disparityOf c x.txDisp })
  else if have_ then (natList 8 (x.txBuf.headD 0).toNat, taken)
  else (natList 8 (x.txIdle / 256 ^ x.idlePos), { x with idlePos := (x.idlePos + 1) % 4 })

/-- R448, R482: the group as it leaves the lane. -/
def sendLane (l : Nat) (s : State) : State :=
  let x := s.lane l
  let mode := laneMode s l
  let n := if x.coding = 1 ∧ mode = 2 then 10 else 8
  let (b, x) := if x.prbs ≠ 0 then
      let r := prbsRun x.prbs x.txPrbs n
      (r.1, { x with txPrbs := r.2 })
    else nextBits mode (streamLane s l && !x.txStopped) x
  let x := if mode = 3 then
      let r := pam4Send x.txInv x.txPrecode b x.txLast
      { x with txLast := r.2, txOutput := r.1.foldr (fun v a => v + 4 * a) 0 }
    else { x with txOutput := listNat (if x.txInv then flipAll b else b) }
  pumpTx l 4 (s.modLane l fun _ => x)
def execLaneTxCharacter (l : Nat) (s : State) : Host.Outcome State Fault Refusal :=
  effect (when (streamLane s l && (s.lane l).txEn) (sendLane l)) s

/-! ### Responses (R456, R459) -/

/-- R459: a stream stops with a response code (7: a bad transmit record); a receive stream discards what it has gathered. -/
def streamStops (l code : Nat) (tx : Bool) (s : State) : State :=
  laneEvent l (s.modLane l fun y =>
    let y := if tx then { y with txStopped := true }
      else { discardRx y.rxBuf.length y with rxStopped := true, rxBuf := [] }
    { y with streamErr := true, errCode := code })

/-- R456: RX_WPTR moves past the oldest writes that have been answered. -/
def moveRx : List RxWrite → Nat → List RxWrite × Nat
  | [], w => ([], w)
  | r :: t, w => if r.answered then moveRx t ((w + r.moves) % 2 ^ 32) else (r :: t, w)
/-- R458: the oldest reads that have been answered reach the buffer. -/
def moveTx : List TxRead → List Byte → List TxRead × List Byte
  | [], b => ([], b)
  | r :: t, b => match r.data with
    | some d => moveTx t (if r.old then b else b ++ d)
    | none => (r :: t, b)

/-- R456, R459: the receive write `i` is performed and answered: RX_WPTR moves past it once it and every earlier one is
answered OK, so a failed write holds it for good (log 162). -/
def rxAnswer (l i other : Nat) (s : State) : State :=
  match (s.lane l).rxOut[i]? with
  | none => s
  | some r =>
    if r.answered then s else
    let (code, s) := moverWrite r.addr r.data other s
    let x := s.lane l
    if code ≠ rOk then
      let m := moveRx (x.rxOut.take i ++ (x.rxOut.drop (i + 1)).map fun w => { w with moves := 0 }) x.rxWptr
      streamStops l code false (s.modLane l fun y => { y with rxOut := m.1, rxWptr := m.2 })
    else
      let m := moveRx (x.rxOut.set i { r with answered := true }) x.rxWptr
      pumpRx l false 8 (s.modLane l fun y =>
        { y with rxOut := m.1, rxWptr := m.2, rxRptr := if y.freeRun then m.2 else y.rxRptr })

/-- R458, R459: the transmit read `i` is performed and answered; once the stream has stopped, data is not sent. -/
def txAnswer (l i other : Nat) (otherData : List Byte) (s : State) : State :=
  match (s.lane l).txOut[i]? with
  | none => s
  | some r =>
    if r.data.isSome then s else
    let ((code, data), s) := moverRead r.addr r.len (other, otherData) s
    let x := s.lane l
    if code ≠ rOk then
      streamStops l code true (s.modLane l fun y => { y with txOut := (y.txOut.eraseIdx i).filter fun q => q.data.isNone })
    else if x.txStopped then s.modLane l fun y => { y with txOut := y.txOut.eraseIdx i }
    else
      let m := moveTx (x.txOut.set i { r with data := some (data.take r.len) }) x.txBuf
      pumpTx l 4 (s.modLane l fun y => { y with txOut := m.1, txBuf := m.2 })

/-- R456, R458, R459: request `i` of a stream is answered: by DRAM or scratch as they stand, else with `code` and `data`. -/
def execLaneStreamResponse (l : Nat) (tx : Bool) (i code : Nat) (data : List Byte) (s : State) :
    Host.Outcome State Fault Refusal :=
  effect (when (l < 80) fun s => if tx then txAnswer l i code data s else rxAnswer l i code s) s

/-! ### Pointers and configuration (R460, R482, R484) -/

/-- R461: PTR_ERR sets. -/
def pointerError (l : Nat) (s : State) : State := laneEvent l (s.modLane l fun y => { y with ptrErr := true })

/-- R460, R457: RX_RPTR is written. -/
def writeRxRptr (l v : Nat) (s : State) : State :=
  let x := s.lane l
  if x.freeRun then s
  else if ringFill x.rxWptr x.rxRptr < ringFill v x.rxRptr then pointerError l s
  else s.modLane l fun y => { y with rxRptr := v }
def execLaneRxRptrWrite (l v : Nat) (s : State) : Host.Outcome State Fault Refusal :=
  effect (when (l < 80) (writeRxRptr l (u32 v))) s

/-- R460: TX_WPTR is written: it may not lie behind TX_RPTR nor make the fill exceed the size. -/
def writeTxWptr (l v : Nat) (s : State) : State :=
  let x := s.lane l
  if 2 ^ x.txSize < ringFill v x.txRptr then pointerError l s
  else pumpTx l 4 (s.modLane l fun y => { y with txWptr := v })
def execLaneTxWptrWrite (l v : Nat) (s : State) : Host.Outcome State Fault Refusal :=
  effect (when (l < 80) (writeTxWptr l (u32 v))) s

/-- R482: LANE_CFG as a word, and a lane with the fields of a word. -/
def laneCfgWord (x : Lane) : Nat :=
  flag x.txEn 31 + flag x.rxEn 30 + flag x.txInv 29 + flag x.rxInv 28 + flag x.txPrecode 27 + flag x.rxPrecode 26
    + field x.coding 24 2 + field x.format 22 2 + field x.align 20 2 + field x.prbs 18 2 + flag x.freeRun 17
    + field x.alignK 8 8 + field x.idleK 0 8
def laneWithCfg (v : Nat) (x : Lane) : Lane :=
  { x with txInv := bit v 29, rxInv := bit v 28, txPrecode := bit v 27, rxPrecode := bit v 26, coding := bits v 24 2
           format := bits v 22 2, align := bits v 20 2, prbs := bits v 18 2, freeRun := bit v 17, alignK := bits v 8 8
           idleK := bits v 0 8 }

/-- R448, R450, R452: a stream starts: SEARCH, negative disparity, P(-1) zero. -/
def startRx (x : Lane) : Lane := { x with aligned := false, rxOdd := false, flagged := 0, rxDisp := false, rxLast := 0 }
def startTx (x : Lane) : Lane := { x with txDisp := false, txLast := 0, idlePos := 0 }

/-- R482: LANE_CFG is written. -/
def writeLaneCfg (l v : Nat) (s : State) : State :=
  let x := s.lane l
  let same := laneCfgWord (laneWithCfg v x) = laneCfgWord x
  if (x.txEn || x.rxEn) && !same then pointerError l s
  else
    pumpTx l 4 (s.modLane l fun y =>
      let y := laneWithCfg v y
      let y := if bit v 31 ∧ !y.txEn then startTx y else y
      let y := if bit v 30 ∧ !y.rxEn then startRx y else y
      { y with txEn := bit v 31, rxEn := bit v 30 })
def execLaneCfgWrite (l v : Nat) (s : State) : Host.Outcome State Fault Refusal :=
  effect (when (l < 80) (writeLaneCfg l (u32 v))) s

/-! ### Signals (R447, R464, R523) -/

/-- R468: a port's first lane. -/
def firstLane (p : Nat) : Nat := 16 + 4 * p

/-- R515, R523: the nominated port's receiver or link is lost: RECOV is no candidate, and in use it trips the monitor. -/
def recovLost (p : Nat) (s : State) : State :=
  if s.clk.recovPort ≠ p then s
  else if s.clk.lock ∧ s.clk.source = 2 then clockTrip 3 s
  else { s with clk := { s.clk with recov := {}, tests := s.clk.tests.filter fun t => decide (t.src ≠ Source.recov) } }
def laneLost (l : Nat) (s : State) : State :=
  if 16 ≤ l ∧ l < 48 ∧ l % 4 = 0 then recovLost ((l - 16) / 4) s else s

def execLaneLos (l : Nat) (s : State) : Host.Outcome State Fault Refusal :=
  effect (when (l < 80) fun s => laneLost l (s.modLane l fun y => { y with los := true })) s
def execLaneSignalReturn (l : Nat) (s : State) : Host.Outcome State Fault Refusal :=
  effect (when (l < 80) fun s => s.modLane l fun y => { y with los := false }) s
def execLaneRxLock (l : Nat) (s : State) : Host.Outcome State Fault Refusal :=
  effect (when (l < 80 && quadServes s (l / 4) && !(s.lane l).los) fun s =>
    s.modLane l fun y => { startRx y with rxLock := true }) s
def execLaneRxLockLost (l : Nat) (s : State) : Host.Outcome State Fault Refusal :=
  effect (when (l < 80) fun s => laneLost l (s.modLane l fun y => { y with rxLock := false })) s

/-! ### Ethernet link state (R471, R501) -/

/-- R471: a port's link is lost: LINK_LOST, event 212 + p; copies that wait for it are dropped (R501). -/
def linkLoss (p : Nat) (s : State) : State :=
  if !(s.port p).linkUp then s else
  let s := s.modPort p fun x => { x with linkUp := false, fecLock := false, linkLost := true }
  let mine := s.tim.copies.any fun c => c.port = p
  let s := { s with tim := { s.tim with copies := s.tim.copies.filter fun c => c.port ≠ p
                                        tcDrop := s.tim.tcDrop || mine } }
  let s := if mine then raiseEvent 223 s else s
  settle (recovLost p (raiseEvent (212 + p) s))

/-! ### Quads (R462 to R467, R474) -/

/-- R462: FULL. -/
def fullCredits (x : Quad) : Nat := if x.qmode = 3 ∨ x.qmode = 4 then 14 else 10

/-- R481: STATE as a number. -/
def quadState : QuadState → Nat
  | .off => 0 | .waitGrant => 1 | .waking => 2 | .on => 3 | .deep => 4 | .draining => 5

/-- R488: final responses of 0x0A02 for those whose ACTION satisfies `p`, with STATE. -/
def quadFinal (q : Nat) (p : Nat → Bool) (status : Nat) (s : State) : State :=
  finishArg 0x0A02 q p status (leBytes 1 (quadState (s.quad q).state)) s

/-- R463: a request for the credits the quad lacks. A port's FEC that R468 does not allow keeps it OFF (R485). -/
def startQuad (q : Nat) (deep : Bool) (s : State) : State :=
  let x := s.quad q
  if x.qmode = 4 ∧ (s.port (q - 4)).badFec then s
  else request kQuad q (if deep then fullCredits x - 2 else fullCredits x)
    (s.modQuad q fun y => { y with state := .waitGrant, fromDeep := deep })

/-- R463: the grant. -/
def quadGranted (q : Nat) (s : State) : State := s.modQuad q fun y => { y with state := .waking, fromDeep := false }

/-- R463: an enable. -/
def quadEnable (q : Nat) (s : State) : State :=
  match (s.quad q).state with
  | .off => startQuad q false s
  | .draining => s.modQuad q fun y => { y with pendingEnable := true }
  | _ => s

/-- R474: LANE_QCMD acts on a quad that carries no PCIe. -/
def quadListens (s : State) (q : Nat) : Bool := quadMoves s q && !isPcie s q

/-- R463: the quad's streams stop, discard what they hold and drain. -/
def quadDrain (q : Nat) (deep : Bool) (s : State) : State :=
  forEach (List.range 4) (fun i a => a.modLane (4 * q + i) fun y => { y with rxBuf := [] })
    (s.modQuad q fun y => { y with state := .draining, toDeep := deep })

/-- R463: a disable. -/
def quadDisable (q : Nat) (s : State) : State :=
  match (s.quad q).state with
  | .waitGrant =>
    let s := giveBackAll kQuad q (withdraw kQuad q (s.modQuad q fun y =>
      { y with state := .off, fromDeep := false, trimSlept := false }))
    quadFinal q (· = 0) stOk (quadFinal q (fun a => a = 1 || a = 3) stWrong s)
  | .on => quadDrain q false s
  | .draining =>
    quadFinal q (fun a => a = 1 || a = 2 || a = 3) stWrong
      (s.modQuad q fun y => { y with pendingEnable := false, toDeep := false, trimSlept := false })
  | .deep =>
    quadFinal q (· = 0) stOk (giveBackAll kQuad q (s.modQuad q fun y => { y with state := .off, trimSlept := false }))
  | _ => s

/-- R463: a sleep. -/
def quadSleep (q : Nat) (s : State) : State := if (s.quad q).state = .on then quadDrain q true s else s
/-- R463: a wake. -/
def quadWake (q : Nat) (s : State) : State := if (s.quad q).state = .deep then startQuad q true s else s

def execLaneQcmdEnable (q : Nat) (s : State) : Host.Outcome State Fault Refusal :=
  effect (when (quadListens s q) (quadEnable q)) s
def execLaneQcmdDisable (q : Nat) (s : State) : Host.Outcome State Fault Refusal :=
  effect (when (quadListens s q) (quadDisable q)) s
def execLaneQcmdSleep (q : Nat) (s : State) : Host.Outcome State Fault Refusal :=
  effect (when (quadListens s q) (quadSleep q)) s
def execLaneQcmdWake (q : Nat) (s : State) : Host.Outcome State Fault Refusal :=
  effect (when (quadListens s q) (quadWake q)) s

/-- Start or restart the quad's enabled streams. -/
def startStreams (q : Nat) (s : State) : State :=
  forEach (List.range 4) (fun i a => pumpTx (4 * q + i) 4 (a.modLane (4 * q + i) fun y =>
    let y := if y.rxEn then startRx y else y
    if y.txEn then startTx y else y)) s

/-- R463: locked and calibrated. -/
def quadAwake (q : Nat) (s : State) : State :=
  let s := startStreams q (s.modQuad q fun y => { y with state := .on, trimSlept := false })
  quadFinal q (fun a => a = 1 || a = 3) stOk s
def execQuadWakeDone (q : Nat) (s : State) : Host.Outcome State Fault Refusal :=
  effect (when (quadMoves s q && decide ((s.quad q).state = .waking) && !(s.quad q).refLost) (quadAwake q)) s

/-- R463: no stream request is outstanding. -/
def quadQuiet (s : State) (q : Nat) : Bool :=
  (List.range 4).all fun i => (s.lane (4 * q + i)).rxOut.isEmpty && (s.lane (4 * q + i)).txOut.isEmpty

/-- R463: a shutdown ends; an Ethernet port on the quad loses its link (R465). -/
def quadDrained (q : Nat) (s : State) : State :=
  let x := s.quad q
  let s := if x.toDeep then giveBack kQuad q (fullCredits x - 2) s else giveBackAll kQuad q s
  let s := s.modQuad q fun y => { y with state := if x.toDeep then .deep else .off, pendingEnable := false }
  let s := forEach (List.range 4) (fun i a => a.modLane (4 * q + i) fun y =>
    { y with rxLock := false, aligned := false, rxBuf := [] }) s
  let s := if x.qmode = 4 then linkLoss (q - 4) s else s
  let s := if x.toDeep then quadFinal q (· = 2) stOk s else quadFinal q (· = 0) stOk s
  let s := if x.pendingEnable then startQuad q x.toDeep s else s
  modeChangeCheck s
def execQuadDrainIdle (q : Nat) (s : State) : Host.Outcome State Fault Refusal :=
  effect (when (quadMoves s q && decide ((s.quad q).state = .draining) && quadQuiet s q) (quadDrained q)) s

/-- R463: the shutdown is refused. -/
def quadRefused (q : Nat) (s : State) : State :=
  let s := s.modQuad q fun y =>
    { y with state := .on, pendingEnable := false, busyRefused := true, trimSlept := false }
  let s := raiseEvent (192 + q) (startStreams q s)
  modeChangeCheck (quadFinal q (· = 1) stOk (quadFinal q (fun a => a = 0 || a = 2) stBusy s))
def execQuadDrainTimeout (q : Nat) (s : State) : Host.Outcome State Fault Refusal :=
  effect (when (quadMoves s q && decide ((s.quad q).state = .draining) && !quadQuiet s q) (quadRefused q)) s

def execQuadRefLost (q : Nat) (s : State) : Host.Outcome State Fault Refusal :=
  effect (when (q < 20 && quadRuns s q) (quadLosesRef q)) s
def execQuadRefReturn (q : Nat) (s : State) : Host.Outcome State Fault Refusal :=
  effect (when (q < 20 && (s.quad q).refLost && (isPcie s q || quadRefOk s q)) (quadGainsRef q)) s

/-- R465: entry to TRIM and its end. -/
def quadsToTrim (s : State) : State :=
  forEach (List.range 20) (fun q a =>
    if (a.quad q).state = .on ∧ !(a.quad q).keepInTrim ∧ !isPcie a q then
      (quadSleep q a).modQuad q fun y => { y with trimSlept := true } else a) s
def quadsToRun (s : State) : State :=
  forEach (List.range 20) (fun q a => if (a.quad q).trimSlept then
    (if (a.quad q).state = .draining then a.modQuad q fun y => { y with pendingEnable := true, trimSlept := false }
      else (quadWake q a).modQuad q fun y => { y with trimSlept := false }) else a) s

/-- R444, R445: a mode and rate a quad may have. -/
def quadModeOk (q m baud : Nat) : Bool :=
  m = 0 || (m = 2 && 80000 ≤ baud && baud ≤ 1792000) || (m = 3 && 4 ≤ q && 640000 ≤ baud && baud ≤ 3584000)
    || (m = 4 && 4 ≤ q && q ≤ 11)

/-- R468, R445: the rate of a SPEED's lanes, in BAUD units. -/
def speedBaud (speed : Nat) : Nat := lget 0 [660000, 1650000, 1700000, 1650000, 1700000, 3400000, 1700000, 3400000, 3400000] speed
/-- R479: the port's settings set the rate of a quad in ETH mode. -/
def quadBaud (s : State) (q m baud : Nat) : Nat := if m = 4 then speedBaud (s.port (q - 4)).speed else baud

/-- R479: LANE_QCFG is written by other than Sorrel. -/
def writeQuadCfg (q v : Nat) (s : State) : State :=
  let m := bits v 25 3
  if (s.quad q).state ≠ .off ∨ isPcie s q ∨ !quadModeOk q m (bits v 0 22) then s.modQuad q fun y => { y with refused := true }
  else s.modQuad q fun y => { y with qmode := m, keepInTrim := bit v 24, baud := quadBaud s q m (bits v 0 22) }
def execLaneQcfgWrite (q v : Nat) (s : State) : Host.Outcome State Fault Refusal :=
  effect (when (q < 20) (writeQuadCfg q (u32 v))) s

/-- R474: Sorrel enables the PCIe quads when SORREL sets. -/
def startPcie (s : State) : State :=
  forEach ((List.range 4).filter fun q => isPcie s q) (fun q a =>
    quadEnable q (a.modQuad q fun y => { y with qmode := 1 })) s

/-! ### Commands 0x0A01 to 0x0A04 and 0x0A07 (R488) -/

/-- 0x0A01. -/
def laneQuadSetCmd (q m baud keep : Nat) (s : State) : State × Reply :=
  checks [(decide (19 < q) || decide (1 < keep) || !quadModeOk q m baud, stBadArg), (!s.dev.ready.lanes, stNotReady),
      (decide ((s.quad q).state ≠ .off) || isPcie s q, stWrong)]
    (fun s => ok (s.modQuad q fun y => { y with qmode := m, baud := quadBaud s q m baud, keepInTrim := decide (keep = 1) })) s
def execLaneQuadSet (q : CmdCtx) (quad m baud keep : Nat) (s : State) : Host.Outcome State Fault Refusal :=
  effect (command q 0x0A01 (payloadAt 9 [(0, 1, quad), (1, 1, m), (4, 4, baud), (8, 1, keep)])
    (laneQuadSetCmd (u8 quad) (u8 m) (u32 baud) (u8 keep))) s

/-- The state an ACTION asks for. -/
def actionGoal (a : Nat) : QuadState := if a = 0 then .off else if a = 2 then .deep else .on
/-- R463: whether an ACTION changes a quad in its state. -/
def actionListed (st : QuadState) (a : Nat) : Bool :=
  match st with
  | .off => a = 1
  | .waitGrant => a = 0
  | .on => a = 0 || a = 2
  | .draining => a = 0 || a = 1
  | .deep => a = 0 || a = 3
  | .waking => false
def quadAction (a q : Nat) (s : State) : State :=
  if a = 0 then quadDisable q s else if a = 1 then quadEnable q s else if a = 2 then quadSleep q s else quadWake q s

/-- 0x0A02: an ACTION that R463 does not list for the state changes nothing; it is OK at once in the state it asks for,
waits where an enable or a wake is on its way, and is WRONG_STATE otherwise (log 73). In HOLD no grant comes (R554). -/
def laneQuadPowerCmd (q a : Nat) (s : State) : State × Reply :=
  let st := (s.quad q).state
  let out (s : State) := leBytes 1 (quadState (s.quad q).state)
  checks [(decide (19 < q) || decide (3 < a), stBadArg), (!s.dev.ready.lanes, stNotReady),
      (isPcie s q || decide (s.dev.mode = .hold), stWrong)]
    (fun s =>
      if st = actionGoal a then (s, .pend stOk (out s))
      else if actionListed st a then
        let s := quadAction a q s
        if (s.quad q).state = actionGoal a then (s, .pend stOk (out s)) else (s, .wait [] q a)
      else if (a = 1 ∨ a = 3) ∧ (st = .waitGrant ∨ st = .waking) then (s, .wait [] q a)
      else (s, .done stWrong (out s))) s
def execLaneQuadPower (q : CmdCtx) (quad a : Nat) (s : State) : Host.Outcome State Fault Refusal :=
  effect (command q 0x0A02 (payloadAt 2 [(0, 1, quad), (1, 1, a)]) (laneQuadPowerCmd (u8 quad) (u8 a))) s

/-- A stream runs. -/
def streamRuns (s : State) (l : Nat) (tx : Bool) : Bool :=
  decide ((s.quad (l / 4)).state = .on) && (if tx then (s.lane l).txEn else (s.lane l).rxEn)

/-- 0x0A03. -/
def laneStreamSetCmd (l dir base size flush free : Nat) (s : State) : State × Reply :=
  checks [(decide (79 < l) || decide (1 < dir) || decide (1 < free) || decide (size < 12) || decide (30 < size)
        || decide (base % 2 ^ size ≠ 0), stBadArg), (!s.dev.ready.lanes, stNotReady),
      (streamRuns s l (decide (dir = 1)), stWrong)]
    (fun s => ok (s.modLane l fun y =>
      if dir = 1 then { y with txBase := base, txSize := size }
      else { y with rxBase := base, rxSize := size, rxFlush := flush, freeRun := decide (free = 1) })) s
def execLaneStreamSet (q : CmdCtx) (l dir base size flush free : Nat) (s : State) : Host.Outcome State Fault Refusal :=
  effect (command q 0x0A03
    (payloadAt 19 [(0, 1, l), (1, 1, dir), (8, 8, base), (16, 1, size), (17, 1, flush), (18, 1, free)])
    (laneStreamSetCmd (u8 l) (u8 dir) (u64 base) (u8 size) (u8 flush) (u8 free))) s

/-- 0x0A04: requests of the old run that are still outstanding move nothing. -/
def restartStream (l dir : Nat) (s : State) : State :=
  pumpTx l 4 (s.modLane l fun y =>
    let y := { y with streamErr := false, errs := 0 }
    if dir = 1 then startTx { y with txStopped := false, txWptr := 0, txRptr := 0, txNext := 0, txBuf := []
                                     txOut := y.txOut.map fun r => { r with old := true } }
    else startRx { y with rxStopped := false, rxWptr := 0, rxRptr := 0, rxNext := 0, rxBuf := []
                          rxOut := y.rxOut.map fun r => { r with moves := 0 } })
def laneStreamRestartCmd (l dir : Nat) (s : State) : State × Reply :=
  checks [(decide (79 < l) || decide (1 < dir), stBadArg), (!s.dev.ready.lanes, stNotReady)]
    (fun s => ok (restartStream l dir s)) s
def execLaneStreamRestart (q : CmdCtx) (l dir : Nat) (s : State) : Host.Outcome State Fault Refusal :=
  effect (command q 0x0A04 (payloadAt 2 [(0, 1, l), (1, 1, dir)]) (laneStreamRestartCmd (u8 l) (u8 dir))) s

/-- R483. -/
def laneStatWord (x : Lane) : Nat :=
  flag x.streamErr 31 + field x.errCode 28 3 + flag x.overrun 27 + flag x.ptrErr 26 + flag x.syncLost 25 + flag x.los 24
    + flag x.aligned 23 + flag x.rxLock 22 + field x.errs 0 16

/-- 0x0A07. -/
def laneStatusCmd (l : Nat) (s : State) : State × Reply :=
  checks [(decide (79 < l), stBadArg), (!s.dev.ready.lanes, stNotReady)] (fun s =>
    let x := s.lane l
    okWith (leBytes 4 (laneStatWord x) ++ leBytes 4 (quadState (s.quad (l / 4)).state) ++ leBytes 4 x.rxWptr
      ++ leBytes 4 x.txRptr ++ leBytes 4 x.dropBytes) s) s
def execLaneStatus (q : CmdCtx) (l : Nat) (s : State) : Host.Outcome State Fault Refusal :=
  effect (command q 0x0A07 (leBytes 1 l) (laneStatusCmd (u8 l))) s

/-- R479, R481. -/
def quadCfgWord (x : Quad) : Nat := field x.qmode 25 3 + flag x.keepInTrim 24 + field x.baud 0 22
def quadStatWord (s : State) (q : Nat) : Nat :=
  let x := s.quad q
  field (heldBy s kQuad q) 24 8 + flag x.refLost 12 + flag x.refused 11 + flag x.busyRefused 10 + flag x.pendingEnable 9
    + field (quadState x.state) 0 3

end Sys2Proof.Machine
end

