-- ==== Sys2Proof/Machine/Ethernet.lean ====
section
/-! DEFINITION. Ethernet ports (R468 to R472), frame time-stamping and the transparent clock (R495 to R501). -/

namespace Sys2Proof.Machine

/-! ### Frames -/

/-- Big-endian numbers in a frame. -/
def beBytes (n v : Nat) : List Byte := (leBytes n v).reverse
def beAt (f : List Byte) (o n : Nat) : Nat := ofLe ((f.drop o).take n).reverse
/-- Replace bytes of a frame from offset `o` on. -/
def putBytes (f : List Byte) (o : Nat) (b : List Byte) : List Byte := f.take o ++ b ++ f.drop (o + b.length)

/-- R469: the FCS: the CRC-32 of Ethernet. -/
def fcsOf (f : List Byte) : Nat := (~~~ crcBytes (BitVec.allOnes 32) f).toNat

def etherType (f : List Byte) : Nat := beAt f 12 2

/-- R469, R498: where a PTP message starts in a frame, and where its UDP checksum stands (none for layer 2). -/
def ptpAt (f : List Byte) : Option (Nat × Option Nat) :=
  let ihl := 4 * (beAt f 14 1 % 16)
  let port (o : Nat) := beAt f (o + 2) 2 = 319 ∨ beAt f (o + 2) 2 = 320
  if etherType f = 0x88F7 then some (14, none)
  else if etherType f = 0x0800 ∧ beAt f 23 1 = 17 ∧ port (14 + ihl) then some (14 + ihl + 8, some (14 + ihl + 6))
  else if etherType f = 0x86DD ∧ beAt f 20 1 = 17 ∧ port 54 then some (62, some 60)
  else none

/-- The PTP header's messageType, messageLength, domainNumber and sequenceId. -/
def ptpType (f : List Byte) (o : Nat) : Nat := beAt f o 1 % 16
def ptpLength (f : List Byte) (o : Nat) : Nat := beAt f (o + 2) 2
def ptpDomain (f : List Byte) (o : Nat) : Nat := beAt f (o + 4) 1
def ptpSeq (f : List Byte) (o : Nat) : Nat := beAt f (o + 30) 2
/-- A message whose header stands whole in its frame. -/
def ptpWhole (f : List Byte) (o : Nat) : Bool := 34 ≤ ptpLength f o && o + ptpLength f o ≤ f.length

/-- R498, R500: the incremental update of a ones' complement checksum when the bytes from the even offset `o` change; an
IPv4 checksum of zero stays zero. -/
def fold16 (v : Nat) : Nat := let a := v % 65536 + v / 65536; a % 65536 + a / 65536
def updateSum (sum : Nat) : List (Nat × Nat) → Nat
  | [] => sum
  | e :: t => updateSum (65535 - fold16 ((65535 - sum) + (65535 - e.1) + e.2)) t
def wordsOf (b : List Byte) : List Nat := (List.range (b.length / 2)).map fun i => beAt b (2 * i) 2
/-- Replace bytes at an even distance from the UDP header, and update the checksum. -/
def patchPtp (f : List Byte) (o : Nat) (b : List Byte) (sum : Option Nat) : List Byte :=
  let g := putBytes f o b
  match sum with
  | none => g
  | some c =>
    let old := beAt f c 2
    if old = 0 ∧ etherType f = 0x0800 then g
    else putBytes g c (beBytes 2 (updateSum old ((wordsOf ((f.drop o).take b.length)).zip (wordsOf b))))

/-- Add to correctionField, a signed 64-bit number in units of 2^-16 ns. -/
def addCorrection (f : List Byte) (o : Nat) (sum : Option Nat) (d : Nat) : List Byte :=
  patchPtp f (o + 8) (beBytes 8 ((beAt f (o + 8) 8 + d) % 2 ^ 64)) sum

/-! ### Ports -/

/-- R472: count. -/
def portCount (p k n : Nat) (s : State) : State :=
  s.modPort p fun x => { x with counters := tmod 0 x.counters k (fun v => satAdd 48 v n) }

/-- R471: frames pass. -/
def portPasses (s : State) (p : Nat) : Bool :=
  p < 8 && (s.port p).linkUp && quadServes s (4 + p) && decide ((s.quad (4 + p)).qmode = 4)

/-- R470: a receive record is written whole to the ring of the port's first lane, or dropped. -/
def writeRecord (p : Nat) (rec_ : List Byte) (s : State) : Bool × State :=
  let l := firstLane p
  let x := s.lane l
  let used := ringFill (x.rxNext + x.rxBuf.length) x.rxRptr
  if !x.rxEn || x.rxStopped || (!x.freeRun && decide (2 ^ x.rxSize < used + rec_.length)) then (false, portCount p 4 1 s)
  else (true, pumpRx l true 64 (s.modLane l fun y => { y with rxBuf := y.rxBuf ++ rec_ }))

def padTo32 (b : List Byte) : List Byte := b ++ List.replicate ((32 - b.length % 32) % 32) 0
def isMulticast (f : List Byte) : Bool := (f.headD 0).getLsbD 0
def isBroadcast (f : List Byte) : Bool := decide (f.take 6 = List.replicate 6 (0xFF : Byte))

/-- R469, R470: a frame goes to the ring. -/
def deliverFrame (p : Nat) (f : List Byte) (s : State) : State :=
  let x := s.port p
  let bcast := isBroadcast f
  let flags := flag (ptpAt f).isSome 0 + flag (isMulticast f && !bcast) 1 + flag bcast 2
  let header := leBytes 2 f.length ++ leBytes 2 flags ++ leBytes 4 x.recordNo.toNat ++ leBytes 8 s.now ++ leBytes 16 0
  let r := writeRecord p (header ++ padTo32 f) s
  if r.1 then portCount p 1 f.length (portCount p 0 1 (r.2.modPort p fun y => { y with recordNo := y.recordNo + 1 }))
  else r.2

/-- R499: the transparent clock takes copies of a PTP message for the other member ports. -/
def copyMessage (p sub : Nat) (f : List Byte) (o : Nat) (s : State) : State :=
  let t := s.tim
  if !bit t.tcPorts p then s
  else if !ptpWhole f o ∨ 256 < ptpLength f o then
    raiseEvent 223 (portCount p 4 1 { s with tim := { s.tim with tcDrop := true } })
  else if !t.tcAll ∧ ptpDomain f o ≠ t.tcDomain then s
  else
    let out := (List.range 8).filter fun e => e ≠ p && bit t.tcPorts e && (s.port e).linkUp
    let copies := t.copies ++ out.map fun e => ⟨e, decide (ptpType f o ≤ 1), 16 * s.now + sub, f⟩
    { s with tim := { s.tim with copies } }

/-- R469: a frame that the port delivers by its destination. -/
def addressed (x : Port) (f : List Byte) : Bool :=
  x.promisc || decide (BitVec.ofNat 48 (ofLe (f.take 6)) = x.mac) || isBroadcast f || (isMulticast f && x.mcastEn)

/-- R469: a frame as received, FCS included, captured at sub-tick `sub` of this tick. -/
def receiveFrame (p sub : Nat) (whole : List Byte) (s : State) : State :=
  let x := s.port p
  let f := whole.take (whole.length - 4)
  if whole.length < 64 ∨ 9600 < whole.length then portCount p 3 1 s
  else if ofLe (whole.drop (whole.length - 4)) ≠ fcsOf f then portCount p 2 1 s
  else if etherType f = 0x8808 then portCount p 5 1 s
  else
    match ptpAt f with
    | some (o, _) =>
      let s := copyMessage p sub f o s
      if x.ptpSorrel then
        let sync := ptpType f o = 0 ∧ s.tim.ptpPort = p
        { s.modPort p fun y => { y with toSorrel := ⟨f, s.now, sub⟩ :: y.toSorrel } with
          tim := { s.tim with syncRx := if sync then s.tim.syncRx + 1 else s.tim.syncRx } }
      else if addressed x f then deliverFrame p f s else s
    | none => if addressed x f then deliverFrame p f s else s
def execEthRxFrame (p sub : Nat) (whole : List Byte) (s : State) : Host.Outcome State Fault Refusal :=
  effect (when (portPasses s p) (receiveFrame p (sub % 16) whole)) s

/-- R497: an egress capture goes to the port's FIFO. -/
def captureEgress (p sub : Nat) (f : List Byte) (s : State) : State :=
  if 16 ≤ (s.port p).tsFifo.length then raiseEvent 223 { s with tim := { s.tim with tsOvf := true } }
  else
    let e : TsEntry := match ptpAt f with
      | some (o, _) => ⟨ptpType f o, ptpSeq f o, ptpDomain f o, s.now, sub⟩
      | none => ⟨0, 0, 0, s.now, sub⟩
    s.modPort p fun x => { x with tsFifo := x.tsFifo ++ [e] }

/-- A frame leaves the port. -/
def sendFrame (p : Nat) (f : List Byte) (s : State) : State :=
  portCount p 7 f.length (portCount p 6 1 (s.modPort p fun x => { x with sent := f }))

/-- R498: N at the egress capture: whole nanoseconds and the fraction. -/
def egressTime (s : State) (sub : Nat) : Nat :=
  netTime { s.tim with tick := s.now * 2 ^ 48 + sub * 2 ^ 44 }

/-- R498: a one-step frame: originTimestamp, correctionField and twoStepFlag of a Sync are rewritten. -/
def oneStep (sub : Nat) (f : List Byte) (s : State) : List Byte × State :=
  match ptpAt f with
  | some (o, sum) =>
    if ptpType f o = 0 ∧ ptpLength f o ≤ 256 ∧ ptpWhole f o then
      let n := egressTime s sub
      let stamp := beBytes 6 (ntSeconds n) ++ beBytes 4 (ntNanos n)
      let f := patchPtp f (o + 34) stamp sum
      let f := addCorrection f o sum (ntFraction n)
      let flags := beAt f (o + 6) 2
      (patchPtp f (o + 6) (beBytes 2 (flags - (if bit flags 9 then 2 ^ 9 else 0))) sum, s)
    else (f, raiseEvent 223 { s with tim := { s.tim with tsBad := true } })
  | none => (f, raiseEvent 223 { s with tim := { s.tim with tsBad := true } })

/-- R470: the port reads pieces of its transmit ring: the first response other than OK, or the bytes; `code` and `bytes`
answer where the ring lies in neither DRAM nor scratch. -/
def readRing (x : Lane) (code : Nat) (bytes : List Byte) : List (Nat × Nat) → State → (Nat × List Byte) × State
  | [], s => ((rOk, []), s)
  | e :: t, s =>
    let ((c, d), s) := moverRead (ringAddr x.txBase x.txSize e.1) e.2 (code, bytes.take e.2) s
    if c ≠ rOk then ((c, []), s) else
    let ((c, r), s) := readRing x code (bytes.drop e.2) t s
    ((c, d ++ r), s)

/-- R500: no copy of the transparent clock waits for port `p`; copies go ahead of ring records. -/
def noCopies (s : State) (p : Nat) : Bool := s.tim.copies.all fun c => c.port ≠ p

/-- R470: a whole transmit record is read and its frame is sent. -/
def sendRecord (p sub code : Nat) (rec_ : List Byte) (s : State) : State :=
  let l := firstLane p
  let x := s.lane l
  if ringFill x.txWptr x.txRptr < 32 then s else
  let ((c, head), s) := readRing x code rec_ (pieces 2 x.txRptr 32) s
  let len := ofLe (head.take 2)
  let total := 32 + (len + 31) / 32 * 32
  let flags := ofLe ((head.drop 2).take 1)
  if c ≠ rOk then streamStops l c true s
  else if len < 60 ∨ 9596 < len then streamStops l 7 true s
  else if ringFill x.txWptr x.txRptr < total then s
  else
    let ((c, body), s) := readRing x code (rec_.drop 32) (pieces 40 (x.txRptr + 32) (total - 32)) s
    if c ≠ rOk then streamStops l c true s else
    let s := s.modLane l fun y => { y with txRptr := (y.txRptr + total) % 2 ^ 32, txNext := (y.txRptr + total) % 2 ^ 32 }
    let f := body.take len
    let r := if bit flags 1 then oneStep sub f s else (f, s)
    let s := sendFrame p r.1 r.2
    if bit flags 0 then captureEgress p sub r.1 s else s
def execEthTxRecord (p sub code : Nat) (rec_ : List Byte) (s : State) : Host.Outcome State Fault Refusal :=
  effect (when (portPasses s p && noCopies s p && (s.lane (firstLane p)).txEn && !(s.lane (firstLane p)).txStopped
    && decide ((s.lane (firstLane p)).txWptr ≠ (s.lane (firstLane p)).txRptr)) (sendRecord p (sub % 16) code rec_)) s

/-- R500: the oldest copy for port `p` leaves, its residence time added. -/
def sendCopy (p sub : Nat) (s : State) : State :=
  match s.tim.copies.find? fun c => c.port = p with
  | none => s
  | some c =>
    let s := { s with tim := { s.tim with copies := s.tim.copies.erase c } }
    let residence := (16 * s.now + sub - c.ingress) * 8192 / 3
    match ptpAt c.frame with
    | some (o, sum) => sendFrame p (if c.correct then addCorrection c.frame o sum residence else c.frame) s
    | none => sendFrame p c.frame s
def execTcCopySend (p sub : Nat) (s : State) : Host.Outcome State Fault Refusal :=
  effect (when (portPasses s p) (sendCopy p (sub % 16))) s

/-- R497: Sorrel sends a PTP message of its protocol. -/
def sendPtp (p sub : Nat) (f : List Byte) (twoStep : Bool) (s : State) : State :=
  let s := sendFrame p f s
  if twoStep then captureEgress p sub f s else s
def execPtpFrameSend (p sub : Nat) (f : List Byte) (twoStep : Bool) (s : State) : Host.Outcome State Fault Refusal :=
  effect (when (portPasses s p && s.dev.ready.sorrel) (sendPtp p (sub % 16) f twoStep)) s

/-! ### Links (R471) -/

def execEthLinkUp (p : Nat) (s : State) : Host.Outcome State Fault Refusal :=
  effect (when (p < 8 && quadServes s (4 + p) && decide ((s.quad (4 + p)).qmode = 4)) fun s =>
    settle (s.modPort p fun x =>
      { x with linkUp := true, localFault := false, remoteFault := false, fecLock := decide (x.fec ≠ 0) })) s

/-- R471: a link loss, with the faults seen. -/
def execEthLinkLoss (p : Nat) (loc rem : Bool) (s : State) : Host.Outcome State Fault Refusal :=
  effect (when (p < 8 && (s.port p).linkUp) fun s =>
    (linkLoss p s).modPort p fun x => { x with localFault := loc, remoteFault := rem }) s

/-! ### Configuration (R468, R485) -/

/-- R468: the FEC a SPEED allows, and the speeds there are. -/
def fecAllowed (speed fec : Nat) : Bool :=
  if speed = 0 then fec = 0 else if speed = 1 then fec < 2 else if speed = 3 then fec = 1 else speed ≤ 8 && fec = 2

/-- R479: the port's settings set the quad of a port in ETH mode. -/
def ethQuad (p : Nat) (s : State) : State :=
  s.modQuad (4 + p) fun y => if y.qmode = 4 then { y with baud := speedBaud (s.port p).speed } else y

/-- R485: ETH_CFG is written. -/
def writeEthCfg (p v : Nat) (s : State) : State :=
  if (s.quad (4 + p)).state ≠ .off then s.modPort p fun x => { x with cfgErr := true }
  else
    let ok := fecAllowed (bits v 0 4) (bits v 4 2)
    ethQuad p (s.modPort p fun x =>
      { x with ptpSorrel := bit v 10, mcastEn := bit v 9, promisc := bit v 8, fec := bits v 4 2, speed := bits v 0 4
               badFec := !ok, cfgErr := x.cfgErr || !ok })
def execEthCfgWrite (p v : Nat) (s : State) : Host.Outcome State Fault Refusal :=
  effect (when (p < 8) (writeEthCfg p (u32 v))) s

def ethCfgWord (x : Port) : Nat :=
  flag x.ptpSorrel 10 + flag x.mcastEn 9 + flag x.promisc 8 + field x.fec 4 2 + field x.speed 0 4
def ethStatWord (x : Port) : Nat :=
  flag x.linkUp 31 + flag x.localFault 30 + flag x.remoteFault 29 + flag x.fecLock 28 + flag x.linkLost 27
    + flag x.cfgErr 26

/-- 0x0A05: it also puts the port's quad in ETH mode (log 74). -/
def ethPortSetCmd (p speed fec : Nat) (mac : BitVec 48) (flags : Nat) (s : State) : State × Reply :=
  checks [(decide (7 < p) || !fecAllowed speed fec, stBadArg), (!s.dev.ready.lanes, stNotReady),
      (decide ((s.quad (4 + p)).state ≠ .off), stWrong)]
    (fun s =>
      let s := s.modPort p fun x =>
        { x with speed, fec, mac, promisc := bit flags 0, mcastEn := bit flags 1, ptpSorrel := bit flags 2, badFec := false }
      ok (ethQuad p (s.modQuad (4 + p) fun y => { y with qmode := 4 }))) s
def execEthPortSet (q : CmdCtx) (p speed fec : Nat) (mac : BitVec 48) (flags : Nat) (s : State) :
    Host.Outcome State Fault Refusal :=
  effect (command q 0x0A05 (payloadAt 15 [(0, 1, p), (1, 1, speed), (2, 1, fec), (8, 6, mac.toNat), (14, 1, flags)])
    (ethPortSetCmd (u8 p) (u8 speed) (u8 fec) mac (u8 flags))) s

/-- 0x0A06. -/
def ethPortStatusCmd (p : Nat) (s : State) : State × Reply :=
  checks [(decide (7 < p), stBadArg), (!s.dev.ready.lanes, stNotReady)] (fun s =>
    let c (k : Nat) := tget 0 (s.port p).counters k
    okWith (leBytes 8 (ethStatWord (s.port p)) ++ (List.range 10).flatMap (fun k => leBytes 6 (c k))
      ++ leBytes 2 ((List.range 10).foldl (fun a k => a + flag (decide (c k = 2 ^ 48 - 1)) k) 0)) s) s
def execEthPortStatus (q : CmdCtx) (p : Nat) (s : State) : Host.Outcome State Fault Refusal :=
  effect (command q 0x0A06 (leBytes 1 p) (ethPortStatusCmd (u8 p))) s

end Sys2Proof.Machine
end

