-- ==== Sys2Proof/Machine/Pcie.lean ====
section
/-! DEFINITION. The PCIe host port (R473 to R478, R487). -/

namespace Sys2Proof.Machine

/-- R475: the device address of a BAR0 offset. -/
def barAddress (s : State) (f : Nat) : Nat :=
  if f < 0x04000000 then f
  else if f < 0x08000000 then 0x100000000 + (f - 0x04000000)
  else (s.lan.pci.aper.toNat + (f - 0x08000000)) % 2 ^ 64

/-- R274, R277, R461: the host writes that wait for the posted writes before them: doorbells and TX_WPTR. -/
def waitsPosted (f : Nat) : Bool := within f 0x00800000 0x00100000 || (within f 0x00F10000 0x1400 && f % 0x40 = 0x28)
/-- R277: the tags of the host's posted writes that are not answered. -/
def postedTags (p : Pci) : List Nat := (p.reqs.filter fun e => e.2.any fun r => r.write).map (·.1)

/-- R476: the host port carries up to 256 requests at once. -/
def freeHostTag (p : Pci) : Option Nat := (List.range 256).find? fun t => (tget none p.reqs t).isNone

/-- One piece of the newest request takes a tag. -/
def sendPiece (f len : Nat) (write : Bool) (data : List Byte) (s : State) : State :=
  match freeHostTag s.lan.pci with
  | none => s
  | some t => { s with lan := { s.lan with pci := { s.lan.pci with
      reqs := tset none s.lan.pci.reqs t (some ⟨f, barAddress s f, len, write, data, false, s.lan.pci.count,
        if write && waitsPosted f then postedTags s.lan.pci else []⟩) } } }

/-- R475: a host request to BAR0 of `len` bytes at offset `f`: at most the maximum payload of R473 for a write, 4,096
bytes for a read, within BAR0; it waits outside while its pieces have no room. -/
def hostRequest (f len : Nat) (write : Bool) (data : List Byte) (s : State) : State :=
  (pieces 17 f len).foldl (fun a e => sendPiece e.1 e.2 write ((data.drop (e.1 - f)).take e.2) a)
    { s with lan := { s.lan with pci := { s.lan.pci with count := s.lan.pci.count + 1 } } }
def hostFits (s : State) (f len : Nat) (write : Bool) : Bool :=
  s.dev.ready.pcie && 0 < len && len ≤ (if write then 512 else 4096) && f + len ≤ 0x10000000
    && s.lan.pci.reqs.length + (pieces 17 f len).length ≤ 256

/-- What the host port answers. -/
def hostSays (c : HostCpl) (s : State) : State :=
  { s with lan := { s.lan with pci := { s.lan.pci with completions := c :: s.lan.pci.completions } } }

/-- R476: a failed write is recorded, logged and signalled; event 220. -/
def hostWriteFailed (code offset : Nat) (s : State) : State :=
  let p := s.lan.pci
  let p := if p.hostWrErr then p else { p with hostWrErr := true, errCode := code, errOffset := offset }
  hostSays (if code = rDecode then .writeUnsupported offset else if code = rRights ∨ code = rOff then .writeAborted offset
    else .writePoisoned offset) (raiseEvent 220 { s with lan := { s.lan with pci := p } })

/-- R598: while Sorrel restarts, the host port keeps its link and answers as it answers DOMAIN_OFF. -/
def hostAborted (f : Nat) (write : Bool) (s : State) : State :=
  if write then hostWriteFailed rOff f s else hostSays (.aborted f) s
def hostShut (s : State) : Bool := s.lan.pci.linkUp && s.lan.pci.memEnabled && !s.dev.ready.pcie

def execPcieHostRequest (f len : Nat) (write : Bool) (data : List Byte) (s : State) : Host.Outcome State Fault Refusal :=
  effect (fun s => if hostShut s then hostAborted f write s
    else when (hostFits s f len write) (hostRequest f len write data) s) s

/-- R476: the completion of a read's NoC code. -/
def readCompletion (r : HostReq) (code : Nat) (data : List Byte) : HostCpl :=
  if code = rOk then .success r.offset data
  else if code = rDecode then .unsupported r.offset
  else if code = rRights ∨ code = rOff then .aborted r.offset
  else .poisoned r.offset r.len

/-- R476: the read completions of a request are returned in address order: the held ones whose request has no piece of a
lower address left in the network are returned. -/
def returnHeld (s : State) : State :=
  let p := s.lan.pci
  let free (h : HostHeld) := !(p.reqs.any fun e => e.2.any fun r => r.req = h.req && r.offset < h.offset)
  { s with lan := { s.lan with pci := { p with
    held := p.held.filter fun h => !free h
    completions := ((p.held.filter free).map (·.cpl)).reverse ++ p.completions } } }
/-- A completion is held in the place of its address. -/
def holdCompletion (h : HostHeld) (l : List HostHeld) : List HostHeld :=
  l.filter (fun x => x.req ≠ h.req || x.offset < h.offset) ++ h :: l.filter (fun x => x.req = h.req && h.offset < x.offset)

/-- R476: the answer of a piece reaches the host port. -/
def hostAnswer (t code : Nat) (data : List Byte) (s : State) : State :=
  match tget none s.lan.pci.reqs t with
  | none => s
  | some r =>
    let p := { s.lan.pci with
      reqs := tmap none (fun _ x => x.map fun y => { y with after := y.after.erase t }) (tset none s.lan.pci.reqs t none) }
    let s := postedAnswered t { s with lan := { s.lan with pci := p } }
    if r.discard then s
    else if !r.write then
      returnHeld { s with lan := { s.lan with pci := { s.lan.pci with
        held := holdCompletion ⟨r.req, r.offset, readCompletion r code data⟩ s.lan.pci.held } } }
    else if code = rOk then s
    else
      hostWriteFailed code r.offset s

/-- R478: the link reaches L0 with memory space enabled. -/
def linkUpPcie (width rate : Nat) (s : State) : State :=
  settle { s with lan := { s.lan with pci := { s.lan.pci with
    linkUp := true, memEnabled := true, linkWidth := width, linkRate := rate } } }
def execPcieLinkUp (width rate : Nat) (s : State) : Host.Outcome State Fault Refusal :=
  effect (when (decide ((s.quad 0).state = .on) && isPcie s 0) (linkUpPcie (width % 32) (rate % 8))) s

/-- R478: PCIE clears; responses to requests in the network are discarded. -/
def pcieStops (linkDown reset : Bool) (s : State) : State :=
  let p := s.lan.pci
  let p := { p with memEnabled := false, linkUp := p.linkUp && !linkDown
                    linkWidth := if linkDown then 0 else p.linkWidth, linkRate := if linkDown then 0 else p.linkRate
                    reqs := tmap none (fun _ r => r.map fun x => { x with discard := true }) p.reqs
                    held := []
                    msixTable := if reset then [] else p.msixTable }
  settle { s with lan := { s.lan with pci := p } }
def execPcieLinkDown (s : State) : Host.Outcome State Fault Refusal := effect (pcieStops true false) s
/-- R478, R477: the resets of the PCIe function return the MSI-X table, as PCIe gives (PRESUMED, log 30). -/
def execPciePerst (s : State) : Host.Outcome State Fault Refusal := effect (fun s => pcieStops true true s) s
def execPcieHotReset (s : State) : Host.Outcome State Fault Refusal := effect (fun s => pcieStops true true s) s
def execPcieFlr (s : State) : Host.Outcome State Fault Refusal := effect (pcieStops false true) s

/-- R487. -/
def pciStatWord (p : Pci) : Nat := flag p.linkUp 31 + field p.linkWidth 26 5 + field p.linkRate 23 3
def pciErrWord (p : Pci) : Nat := flag p.hostWrErr 31 + field p.errCode 28 3 + field p.errOffset 0 28

end Sys2Proof.Machine
end

