-- ==== Sys2Proof/Machine/Noc.lean ====
section
/-! DEFINITION. The network on chip (chapter 8). -/

namespace Sys2Proof.Machine

/-! ### Piers, links and routes (R302 to R306, R314 to R317) -/

/-- R303, R304: the local ports. -/
def localPort (id : Nat) : Bool :=
  let p := id / 8
  let j := id % 8
  if p < 96 then j = 4 || (j = 5 && 36 ≤ p && p < 48)
  else if p < 104 ∨ (108 ≤ p ∧ p < 116) ∨ p = 104 ∨ p = 105 ∨ p = 116 ∨ p = 117 ∨ p = 118 then j = 2 || j = 3
  else if p = 106 then j = 2
  else (p = 107 || p = 119) && 2 ≤ j && j ≤ 5

/-- R303, R22, R23: the pier at the other end of a link. -/
def linkTo (p j : Nat) : Option Nat :=
  if p < 96 then
    let c := p % 12
    if j = 0 then (if p / 12 < 7 then some (p + 12) else none)
    else if j = 1 then (if c = 5 ∨ c = 11 then none else some (p + 1))
    else if j = 2 then (if 0 < p / 12 then some (p - 12) else none)
    else if j = 3 then (if c = 0 ∨ c = 6 then none else some (p - 1))
    else if j = 6 then (if c = 5 then some (96 + p / 12) else if c = 6 then some (108 + p / 12) else none)
    else none
  else if p < 120 then
    let n := p - 96
    if j = 0 then some (96 + (n + 1) % 24)
    else if j = 1 then some (96 + (n + 23) % 24)
    else if j = 6 then (if n < 8 then some (12 * n + 5) else if 12 ≤ n ∧ n < 20 then some (12 * (n - 12) + 6) else none)
    else none
  else none

/-- The input port by which a link from port `j` of pier `p` comes in. -/
def inputOf (p j : Nat) : Nat :=
  if j = 6 then 6 else if p < 96 then (j + 2) % 4 else 1 - j

/-- R23: the hub pier of the viaduct link of a tile's row and die. -/
def viaduct (t : Nat) : Nat := if t % 12 < 6 then t / 12 else 12 + t / 12

/-- R314, R315: the port by which a packet for pier `b` leaves pier `a`, by the path rule. -/
def firstPort (a b : Nat) : Nat :=
  if a < 96 then
    if b < 96 ∧ (a % 12 < 6 ↔ b % 12 < 6) then
      if a % 12 < b % 12 then 1 else if b % 12 < a % 12 then 3 else if a / 12 < b / 12 then 0 else 2
    else
      let inner := if a % 12 < 6 then 5 else 6
      if a % 12 < inner then 1 else if inner < a % 12 then 3 else 6
  else
    let n := a - 96
    let m := if b < 96 then viaduct b else b - 96
    if n = m then 6 else if (m + 24 - n) % 24 ≤ 12 then 0 else 1

/-- R316, R344: the index of a route entry, and the default entry as OWN and NEXT, the same in both epochs. -/
def routeKey (p : Nat) (e : Bool) (d : Nat) : Nat := (2 * p + b2n e) * 120 + d
def defaultOwn (p d : Nat) : Nat :=
  if p = d then (Config.routeFill (120 * p + d)).toNat else firstPort p d
def defaultNext (p d : Nat) : Nat :=
  if p = d then (Config.routeFill (14400 + 120 * p + d)).toNat else
  match linkTo p (firstPort p d) with
  | none => 0
  | some q => if q = d then (Config.routeFill (120 * p + d)).toNat else firstPort q d
def routeOwn (s : State) (p : Nat) (e : Bool) (d : Nat) : Nat :=
  match tget none s.noc.routes (routeKey p e d) with
  | none => defaultOwn p d
  | some v => bits v 0 3
def routeNext (s : State) (p : Nat) (e : Bool) (d : Nat) : Nat :=
  match tget none s.noc.routes (routeKey p e d) with
  | none => defaultNext p d
  | some v => bits v 3 3

/-- R306: the port ID that a device address names. -/
def addressPort (s : State) (a : Nat) : Option Nat :=
  if a < 0x04000000 then some (portId 107 4)
  else if 0x100000000 ≤ a ∧ a < 0x104000000 then some (scratchPort ((a - 0x100000000) / 2 ^ 21))
  else if 0x200000000 ≤ a ∧ a < 0x260000000 then some (portId ((a - 0x200000000) / 2 ^ 24) 4)
  else (dramTarget s a).map fun e => dramPort e.1

/-! ### Causes, counters and drops (R327, R330 to R332, R336, R342) -/

def ncCe : Nat := 0
def ncReplay : Nat := 1
def ncLinkFail : Nat := 2
def ncMisroute : Nat := 3
def ncDropped : Nat := 4
def ncFenceAns : Nat := 5
def ncStatSat : Nat := 6
def ncLate : Nat := 7

/-- R336: the group of a pier. -/
def pierGroup (p : Nat) : Nat := if p < 96 then p / 4 else 24 + (p - 96) / 3

/-- R342: set a cause at a pier. -/
def nocCause (p k : Nat) (s : State) : State :=
  let g := pierGroup p
  let s := s.modNocGroup g fun x =>
    let x := if x.causes = 0 then { x with firstCause := k, firstPier := p } else x
    { x with causes := x.causes ||| BitVec.twoPow 8 k }
  if (s.nocGroup g).en.getLsbD k then raiseEvent (256 + g) s else s

/-- R332: the largest value of a statistics counter. -/
def statMax (n : Noc) : Nat := if n.cnt32 then 2 ^ 32 - 1 else 2 ^ 48 - 1
def statAdd (n : Noc) (v k : Nat) : Nat := min (v + k) (statMax n)

/-- R332: a counter of the port `id` went from `v` to `w`: STAT_SAT when it saturates. -/
def statSat (id v w : Nat) (s : State) : State :=
  if v < statMax s.noc ∧ w = statMax s.noc then nocCause (id / 8) ncStatSat s else s

/-- R330: `k` units injected by, or delivered to, the port `id`. -/
def countTx (id k : Nat) (s : State) : State :=
  let v := (tget {} s.noc.bw id).tx
  let w := statAdd s.noc v k
  statSat id v w { s with noc := { s.noc with bw := tmod {} s.noc.bw id (fun x => { x with tx := w }) } }
def countRx (id k : Nat) (s : State) : State :=
  let v := (tget {} s.noc.bw id).rx
  let w := statAdd s.noc v k
  statSat id v w { s with noc := { s.noc with bw := tmod {} s.noc.bw id (fun x => { x with rx := w }) } }

/-- R341: a packet of epoch `e` enters or leaves the network at pier `p`. -/
def countInj (p : Nat) (e : Bool) (s : State) : State :=
  s.modPier p fun x => if e then { x with inj1 := x.inj1 + 1 } else { x with inj0 := x.inj0 + 1 }
def countEj (p : Nat) (e : Bool) (s : State) : State :=
  s.modPier p fun x => if e then { x with ej1 := x.ej1 + 1 } else { x with ej0 := x.ej0 + 1 }

/-- R331: the bin of a latency. -/
def latencyBin (l : Nat) : Nat := if l < 64 then 0 else min 15 (l.log2 - 5)

/-- R331: a request of the port `id` had the latency `l`. -/
def countLatency (id l : Nat) (s : State) : State :=
  forEach (List.range 16) (fun m s =>
    let x := s.monitor m
    if x.en ∧ x.port = id then
      let k := latencyBin l
      let v := tget 0 x.bins k
      let w := statAdd s.noc v 1
      let s := s.modMonitor m fun x => { x with bins := tset 0 x.bins k w, max := max x.max (min l (2 ^ 32 - 1)) }
      let s := statSat id v w s
      if k = 15 then nocCause (id / 8) ncLate s else s
    else s) s

/-- R309, R317, R327: a packet is discarded at pier `p`. -/
def dropPacket (p : Nat) (x : Packet) (s : State) : State :=
  nocCause p ncDropped (countEj p x.epoch (s.modPier p fun y => { y with dropped := true }))

/-! ### Packets in flight -/

/-- A packet whose header stands at pier `p`, in the buffer of input `i`, takes its ports from the tables there. -/
def launch (x : Packet) (p i : Nat) (s : State) : State :=
  let f : Flight := ⟨{ x with laPort := routeNext s p x.epoch x.destPier }, p, i, routeOwn s p x.epoch x.destPier,
    s.noc.cycle, s.noc.cycle, 0, 0⟩
  countInj p x.epoch { s with noc := { s.noc with
    flight := tset none s.noc.flight s.noc.nextId (some f), nextId := s.noc.nextId + 1 } }

/-- R310, R313: the class and index that a source port writes. Sorrel's port also carries what Sorrel does for a mailbox,
under the mailbox's class (R621); a port that no rule gives a class writes class 0 (log 157). -/
def sourceFields (id : Nat) (src : Initiator) : Initiator :=
  if id / 8 < 96 then (if id % 8 = 4 then ⟨3, id / 8⟩ else ⟨2, 8 * (id / 8 - 36) + src.index % 8⟩)
  else if id = 860 then ⟨if src.cls = 0 ∨ src.cls = 7 then src.cls else 1, 0⟩
  else if id = queuePort 0 ∨ id = queuePort 1 ∨ id = 954 ∨ id = 956 then ⟨4, 0⟩
  else if id = 947 then ⟨5, 0⟩ else ⟨0, 0⟩

/-- R309, R317, R326: pier `p` answers a request itself, as from its port `j`. -/
def pierAnswer (p j code : Nat) (x : Packet) (s : State) : State :=
  let src := sourceFields (portId p j) ⟨0, 0⟩
  launch { x with
    destPier := x.srcPier, destPort := x.srcPort, srcPier := p, srcPort := j, srcClass := src.cls, srcIndex := src.index
    vc := 1, epoch := s.noc.epoch, rclass := false, opcode := 0x20, age := 0, resp := code, qout := 0, data := [] } p j
    (countEj p x.epoch s)

/-- R320: whether two packets share a buffer of an input: their virtual channel, and on a ring input their class. -/
def sameBuffer (p i : Nat) (x y : Packet) : Bool :=
  x.vc = y.vc && (!(96 ≤ p && decide (i < 2)) || x.rclass = y.rclass)

/-- R320: units waiting in the buffer that packet `x` would enter by input `i` of pier `p`. -/
def bufferUnits (s : State) (p i : Nat) (x : Packet) : Nat :=
  s.noc.flight.foldl (fun a e => match e.2 with
    | some f => if f.pier = p ∧ f.input = i ∧ sameBuffer p i f.pkt x then a + packetUnits f.pkt else a
    | none => a) 0
def hasRoom (s : State) (p i : Nat) (x : Packet) : Bool := bufferUnits s p i x + packetUnits x ≤ 18

/-- The headers that stand first in the buffers of pier `p`, oldest first (R322). -/
def heads (s : State) (p : Nat) : List (Nat × Flight) :=
  s.noc.flight.foldl (fun a e => match e.2 with
    | some f =>
      if f.pier = p ∧ !(a.any fun h => h.2.input = f.input && sameBuffer p f.input h.2.pkt f.pkt) then a ++ [(e.1, f)]
      else a
    | none => a) []

/-- R316: the port a header wants at its pier. -/
def wanted (f : Flight) : Nat := if f.pkt.destPier = f.pier then f.pkt.destPort else f.exit

/-- R321: the effective age of a header. -/
def effectiveAge (s : State) (f : Flight) : Nat := min 255 (f.pkt.age + (s.noc.cycle - f.arrived) / 16)

/-- R321: the better of two headers: the larger effective age, then the first input at or after the pointer. -/
def olderHeader (s : State) (ptr : Nat) (a b : Nat × Flight) : Nat × Flight :=
  if effectiveAge s a.2 < effectiveAge s b.2 then b
  else if effectiveAge s b.2 < effectiveAge s a.2 then a
  else if (b.2.input + 7 - ptr) % 7 < (a.2.input + 7 - ptr) % 7 then b else a

/-- R321: the two stages of the output `port` of pier `p` over the headers that may leave: the winner. -/
def arbitrate (s : State) (p port : Nat) (l : List (Nat × Flight)) : Option (Nat × Flight) :=
  let v := tget 0 (s.pier p).vcPtr port
  match [v, (v + 1) % 3, (v + 2) % 3].find? fun c => l.any fun e => e.2.pkt.vc = c with
  | none => none
  | some c =>
    match l.filter fun e => e.2.pkt.vc = c with
    | [] => none
    | e :: r => some (r.foldl (olderHeader s (tget 0 (s.pier p).inPtr port)) e)

/-- R321: the pointers move past the winner, whose header leaves its pier. -/
def departs (port id : Nat) (f : Flight) (s : State) : State :=
  let s := s.modPier f.pier fun x =>
    { x with vcPtr := tset 0 x.vcPtr port ((f.pkt.vc + 1) % 3), inPtr := tset 0 x.inPtr port ((f.input + 1) % 7) }
  { s with noc := { s.noc with flight := tset none s.noc.flight id none } }

/-- R329: piers and links run while CLOCK is set and while the clocks coast. -/
def nocRuns (s : State) : Bool := s.dev.ready.clock || s.clk.coast

/-! ### Injection (R307, R313, R319, R325, R421) -/

/-- R306: the destination of a packet. -/
def destinationOf (s : State) (x : Inject) : Option Nat :=
  if x.opcode = 0x20 then some x.dest
  else if x.opcode = 0x08 ∨ x.opcode = 0x09 then some (queuePort (queueGroup (x.addr % 2 ^ 16) / 16))
  else if x.opcode = 0x10 ∨ x.opcode = 0x11 then (if x.addr < 0x04000000 then some (portId 107 4) else none)
  else addressPort s x.addr

/-- R307: the destination, unless the source port answers DECODE. -/
def decoded (s : State) (x : Inject) (e : Bool) : Option Nat :=
  if (x.opcode = 1 ∨ x.opcode = 2) ∧ 256 < x.addr % 256 + x.size % 256 + 1 then none else
  match destinationOf s x with
  | none => none
  | some d => if d / 8 ≠ x.port / 8 ∧ routeOwn s (x.port / 8) e (d / 8) = 7 ∧ x.opcode ≠ 0x20 then none else some d

/-- R310, R313: the packet as the source port writes it. -/
def packetOf (x : Inject) (d : Nat) (e : Bool) : Packet :=
  let src := sourceFields x.port x.src
  { destPier := d / 8, destPort := d % 8, srcPier := x.port / 8, srcPort := x.port % 8, srcClass := src.cls
    srcIndex := src.index, vc := channelOf x.opcode, epoch := e, rclass := false, opcode := x.opcode % 64
    tag := x.tag % 256, age := 0, resp := if x.opcode = 0x20 then x.resp % 8 else 0
    qout := if x.opcode = 0x20 then x.qout % 4 else 0, size := x.size % 256, laPort := 0, addr := BitVec.ofNat 64 x.addr
    data := x.data.take 8 }

/-- R92: a tag of the fabric is free again. -/
def freeFabricTag (t tag : Nat) (s : State) : State :=
  s.modTile t fun y => { y with tags := y.tags &&& ~~~ BitVec.twoPow 256 tag }

/-- R303: fabric ports and cluster ports. -/
def fabricPort (id : Nat) : Bool := decide (id / 8 < 96) && decide (id % 8 = 4)
def clusterPort (id : Nat) : Bool := decide (36 ≤ id / 8) && decide (id / 8 < 48) && decide (id % 8 = 5)

/-- R199: the engine that a tag of its cluster's port belongs to; each engine has 32 of the port's 256 tags (log 158). -/
def tagEngine (id tag : Nat) : Nat := 8 * (id / 8 - 36) + tag / 32 % 8

/-- R88, R199, R476: what the owner of a port does with the answer to its request `tag`. -/
def handOver (id tag code qout : Nat) (data : List Byte) (s : State) : State :=
  if fabricPort id then freeFabricTag (id / 8) tag s
  else if clusterPort id then engineAnswer (tagEngine id tag) (tag % 32) code qout data s
  else if id = 858 then hostAnswer tag code data s
  else s

/-! #### What the owner of a port offers it -/

/-- R87, R91: the packet that a fabric port holds. -/
def fabricInject (t : Nat) (o : Outbound) : Inject :=
  let p := packetOfUnits o.hd o.data
  ⟨portId t 4, ⟨3, t⟩, p.opcode, p.tag, p.addr.toNat, p.size, 0, 0, 0, p.data⟩

/-- R246 to R249, R311: the opcode, SIZE and data units of an engine's request. -/
def engineFields (r : EngReq) : Nat × Nat × List (BitVec 256) :=
  let bytes := r.data.flatMap fun w => leBytes 8 w.toNat
  match r.kind with
  | .pop .. => (9, 31, [])
  | .push .. => (8, 31, bytesUnits 0 bytes)
  | .load .. => (1, 7, [])
  | .load4 .. => (1, 31, [])
  | .store => (2, bytes.length - 1, bytesUnits r.addr.toNat bytes)
  | .atomic add _ => (if add then 4 else 5, 7, (bytesUnits r.addr.toNat bytes).take 1)
def engineInject (n t : Nat) (r : EngReq) : Inject :=
  let f := engineFields r
  ⟨portId (36 + n / 8) 5, ⟨2, n⟩, f.1, 32 * (n % 8) + t, r.addr.toNat, f.2.1, 0, 0, 0, f.2.2⟩

/-- R475, R476: a piece of a host request. -/
def hostInject (t : Nat) (r : HostReq) : Inject :=
  ⟨858, ⟨0, 0⟩, if r.write then 2 else 1, t, r.addr, r.len - 1, 0, 0, 0, if r.write then bytesUnits r.addr r.data else []⟩

/-- R312: the response to the request `p`: to its source, with its tag; a queue item fills its unit (R265). -/
def replyInject (p : Packet) (a : Answer) : Inject :=
  ⟨portId p.destPier p.destPort, ⟨p.srcClass, p.srcIndex⟩, 0x20, p.tag, p.addr.toNat, p.size, a.code, a.qout
  , portId p.srcPier p.srcPort
  , if a.code = rOk then bytesUnits (if p.opcode = 8 ∨ p.opcode = 9 then 0 else p.addr.toNat) a.data else []⟩

/-- R311: the data units of a request; an opcode that is not defined may have any number. -/
def unitsOk (x : Inject) : Bool :=
  if x.opcode = 2 then x.data.length = unitsFor x.addr (x.size % 256 + 1)
  else if x.opcode = 4 ∨ x.opcode = 5 ∨ x.opcode = 8 ∨ x.opcode = 0x10 then x.data.length = 1
  else if x.opcode = 1 ∨ x.opcode = 9 ∨ x.opcode = 0x11 then x.data = []
  else x.data.length ≤ 8

/-- R87, R94, R250, R312, R335, R476: the packet is one that the port's owner has for it: a response to a request that the
port has taken and answered, the oldest packet of the fabric, the oldest unsent request of a context, a piece of a host
request, or, of another block, a request with a tag that is free. -/
def offered (s : State) (x : Inject) : Bool :=
  if x.opcode = 0x20 then s.noc.replies.any fun e => replyInject e.1 e.2 = x
  else if fabricPort x.port then (s.tile (x.port / 8)).outbound.head?.any fun o => fabricInject (x.port / 8) o = x
  else if (tget [] s.noc.out x.port).any fun o => o.tag = x.tag then false
  else if clusterPort x.port then
    let n := tagEngine x.port x.tag
    let e := s.engine n
    match tget none e.reqs (x.tag % 32) with
    | none => false
    | some r => engineInject n (x.tag % 32) r = x && (e.unsent.find? fun t =>
        (tget none e.reqs t).any fun q => q.ctx = r.ctx) = some (x.tag % 32)
  else if x.port = 858 then (tget none s.lan.pci.reqs x.tag).any fun r => hostInject x.tag r = x && r.after.isEmpty
  else unitsOk x

/-- The packet leaves its owner, for the network or for an answer of the port's own: the fabric's credits return (R87), an
engine's request is sent (R250), a response has been given. -/
def leave (x : Inject) (s : State) : State :=
  if x.opcode = 0x20 then
    match s.noc.replies.find? fun e => replyInject e.1 e.2 = x with
    | none => s
    | some e => { s with answers := s.answers.erase e.2, noc := { s.noc with replies := s.noc.replies.erase e } }
  else if fabricPort x.port then
    let t := x.port / 8
    match (s.tile t).outbound with
    | [] => s
    | o :: l => returnCredits t (1 + headerLen o.hd) (s.modTile t fun y => { y with outbound := l })
  else if clusterPort x.port then
    s.modEngine (tagEngine x.port x.tag) fun e => { e with unsent := e.unsent.erase (x.tag % 32) }
  else s

/-- R307, R319, R422: the source port answers a request itself. -/
def portAnswer (x : Inject) (code : Nat) (s : State) : State :=
  handOver x.port (x.tag % 256) code 0 []
    (tell ⟨sourceFields x.port x.src, x.tag % 256, code, 0, []⟩ (leave x s))

/-- The packet enters its source pier. -/
def enterPier (x : Inject) (p : Packet) (s : State) : State :=
  let s := leave x s
  let s := if p.vc = 1 then s else { s with noc := { s.noc with
    out := tmod [] s.noc.out x.port (fun l => ⟨p.tag, p.epoch, s.noc.cycle⟩ :: l) } }
  countTx x.port (packetUnits p) (launch p (x.port / 8) (x.port % 8) s)

/-- R319: the ports that may use the management channel. -/
def mayManage (id : Nat) : Bool := id = 860 || id = 861 || id = 957

/-- R421: what an opcode needs: read, write. -/
def needs (op : Nat) : Bool × Bool := (op = 1 || op = 4 || op = 5, op = 2 || op = 4 || op = 5)

/-- R325: a request waits for the answers of the old epoch. -/
def heldBack (s : State) (x : Inject) (e : Bool) : Bool :=
  channelOf x.opcode = 0 && (tget [] s.noc.out x.port).any (fun o => o.epoch != e)

/-- R307, R313, R319, R421, R422: one injection. -/
def inject (x : Inject) (s : State) : State :=
  let e := s.noc.epoch
  let s := { s with noc := { s.noc with pending := tset false s.noc.pending x.port false } }
  let src := sourceFields x.port x.src
  if channelOf x.opcode = 2 ∧ !mayManage x.port then portAnswer x rRights s
  else match decoded s x e with
  | none => portAnswer x rDecode s
  | some d =>
    let p := packetOf x d e
    let n := needs x.opcode
    if heldBack s x e || !hasRoom s (x.port / 8) (x.port % 8) p then s
    else if n.1 || n.2 then
      let r := rightsJudge src.cls src.index n.1 n.2 x.addr (x.size % 256) s
      if r.1 then enterPier x p r.2
      else portAnswer x rRights (recordViolation src.cls src.index n.2 x.addr r.2)
    else enterPier x p s

/-- A packet that a local port can be given (R311 to R313). -/
def mayInject (x : Inject) (s : State) : Bool :=
  nocRuns s && localPort x.port && x.addr < 2 ^ 64 && offered s x

def execNocInject (x : Inject) (s : State) : Host.Outcome State Fault Refusal :=
  effect (when (mayInject x s) (inject x)) s

/-! ### One hop (R309, R315 to R317, R320, R321) -/

/-- R317, R309: a packet that cannot go on: a request is answered with `code`, others are discarded. -/
def turnAway (p j code : Nat) (x : Packet) (s : State) : State :=
  if x.vc = 0 then pierAnswer p j code x s else dropPacket p x s

/-- R340: single-bit errors corrected at pier `p`. -/
def countCe (p n : Nat) (s : State) : State :=
  if n = 0 then s else nocCause p ncCe (s.modPier p fun x => { x with ce := satAdd 16 x.ce n })

/-- R315: the datelines of the ring. -/
def dateline (p j : Nat) : Bool := (p = 119 && j = 0) || (p = 96 && j = 1)

/-- R308, R309: the packet that comes over a link on which the bits `flips` of its units flip (a unit not listed comes
whole), and how many of its units were corrected; or the unit that shows a double-bit error. -/
def crossed (x : Packet) (flips : List (BitVec 266)) : Except Nat (Packet × Nat) :=
  if flips.all (· = 0) then .ok (x, 0) else
  let us := headerUnit x :: x.data
  let rs := (List.range us.length).map fun i => receivedUnit (lget 0 us i) (lget 0 flips i)
  match rs.findIdx? fun r => r = .double with
  | some i => .error i
  | none =>
    let vs := rs.map UnitCheck.value
    .ok (packetOfUnits (lget 0 vs 0) (vs.drop 1), (rs.filter UnitCheck.wasCorrected).length)

/-- R309: unit `u` of flight `id` shows a double-bit error on the link of port `j` to pier `q`: it is replayed, and the
fourth failure of the same unit in a row is the link's end. -/
def linkReplay (p j q u id : Nat) (f : Flight) (s : State) : State :=
  let n := if f.failUnit = u then f.fails + 1 else 1
  let s := nocCause q ncReplay (s.modPier q fun x => { x with replay := satAdd 16 x.replay 1 })
  let s := { s with noc := { s.noc with flight := tset none s.noc.flight id (some { f with failUnit := u, fails := n }) } }
  if n < 4 then s
  else enterHold 4 (nocCause p ncLinkFail (s.modPier p fun x => { x with linkFail := x.linkFail ||| BitVec.twoPow 7 j }))

/-- A header as it leaves pier `p` by port `j` (R315, R321). -/
def leaving (s : State) (j : Nat) (f : Flight) : Packet :=
  { f.pkt with age := min 255 (effectiveAge s f + 1), rclass := f.pkt.rclass || dateline f.pier j }

/-- The header of flight `f` comes over the link of port `j` to pier `q` as the packet `x`, `ces` of its units corrected. -/
def cross (j q : Nat) (f : Flight) (x : Packet) (ces : Nat) (s : State) : State :=
  let g : Flight := ⟨{ x with laPort := routeNext s q x.epoch x.destPier }, q, inputOf f.pier j, x.laPort, s.noc.cycle,
    f.entered, 0, 0⟩
  countCe q ces { s with noc := { s.noc with
    flight := tset none s.noc.flight s.noc.nextId (some g), nextId := s.noc.nextId + 1 } }

/-- R320, R317: the headers at pier `p` that may leave by port `j`: a broken or missing link takes them all. -/
def departing (s : State) (p j : Nat) : List (Nat × Flight) :=
  (heads s p).filter fun e => e.2.pkt.destPier ≠ p && e.2.exit = j &&
    match linkTo p j with
    | none => true
    | some q => (s.pier p).linkFail.getLsbD j ||
        hasRoom s q (inputOf p j) { e.2.pkt with rclass := e.2.pkt.rclass || dateline p j }

/-- One header leaves pier `p` by port `j`; `flips` are the bits that flip in its units on the link. -/
def hop (p j : Nat) (flips : List (BitVec 266)) (s : State) : State :=
  match arbitrate s p j (departing s p j) with
  | none => s
  | some (id, f) =>
    match linkTo p j with
    | none =>
      let s := nocCause p ncMisroute (s.modPier p fun x => { x with misroute := true })
      turnAway p j rDecode f.pkt (departs j id f s)
    | some q =>
      if (s.pier p).linkFail.getLsbD j then turnAway p j rOff f.pkt (departs j id f s)
      else match crossed (leaving s j f) flips with
        | .error u => linkReplay p j q u id f s
        | .ok (x, ces) => cross j q f x ces (departs j id f s)

def execNocHop (p j : Nat) (flips : List (BitVec 266)) (s : State) : Host.Outcome State Fault Refusal :=
  effect (when (nocRuns s && p < 120 && j < 8) (hop p j flips)) s

/-- R309: the receiver finds a double-bit error in unit `u` of the packet that crosses the link of port `j`. -/
def replayLink (p j u : Nat) (s : State) : State :=
  match arbitrate s p j (departing s p j), linkTo p j with
  | some (id, f), some q =>
    when (!(s.pier p).linkFail.getLsbD j && u < packetUnits f.pkt) (linkReplay p j q u id f) s
  | _, _ => s
def execNocLinkReplay (port u : Nat) (s : State) : Host.Outcome State Fault Refusal :=
  effect (when (nocRuns s && port < 960 && port % 8 < 7) (replayLink (port / 8) (port % 8) u)) s

/-! ### Delivery (R318, R326, R327, R331) -/

/-- R78, R165, R211, R326, R657, R30: a fence stands at a local port: at a fabric port while its tile drains or its slot is
evicted, in HOLD, and while FABRIC has cleared; at a DRAM port while its channel drains (R393); at a cluster port while the cluster drains, and while ENG_CLUSTER has cleared
with the cluster serving (R198). -/
def fenceAt (s : State) (id : Nat) : Bool :=
  if id / 8 < 96 then
    let t := s.tile (id / 8)
    let c := id / 8 - 36
    if id % 8 = 4 then
      decide (t.state = .draining) || t.fence || (decide (s.dev.mode = .hold) && decide (t.state = .on))
        || (s.dev.cfgDone && !s.dev.ready.fabric)
    else id % 8 = 5 && ((s.cluster c).fence || ((s.cluster c).serving && !s.dev.ready.engCluster.getLsbD c))
  else tget false s.noc.fences id
    || (List.range 8).any fun c => dramPort c = id && decide ((s.chan c).state = .draining)

/-- R95, R327: the owner of a local port is off. -/
def ownerOff (s : State) (id : Nat) : Bool :=
  if id / 8 < 96 then
    if id % 8 = 4 then decide ((s.tile (id / 8)).state = .off) || decide ((s.tile (id / 8)).state = .waitGrant)
    else decide ((s.cluster (id / 8 - 36)).state = .off) || decide ((s.cluster (id / 8 - 36)).state = .waitGrant)
  else false

/-- R29: the function at a port does not serve: a tile's while its clocks stand, its slot is held (R95) or FABRIC is clear; a
cluster's while ENG_CLUSTER is clear (R198); scratch, the queue manager and a DRAM channel while their bits are clear, but
for a channel whose bit a freeze has cleared (R390). -/
def shut (s : State) (id : Nat) : Bool :=
  if id / 8 < 96 then
    (fabricPort id && (!portLive s (id / 8) || !s.dev.ready.fabric))
      || (clusterPort id && !s.dev.ready.engCluster.getLsbD (id / 8 - 36))
  else
    (!s.dev.ready.scratch && (List.range 32).any fun g => scratchPort g = id)
      || (!s.dev.ready.queues && decide (s.dev.mode ≠ .hold) && (id = queuePort 0 || id = queuePort 1))
      || (List.range 8).any fun c => dramPort c = id && !s.dev.ready.ddrCh.getLsbD c
          && !(s.sub (2 * c)).frozen && !(s.sub (2 * c + 1)).frozen

/-- R89: the fabric has inbound credits for the whole request; every other port accepts. -/
def accepts (s : State) (id : Nat) (x : Packet) : Bool :=
  !(fabricPort id && decide (x.vc = 0)) || fenceAt s id || shut s id
    || packetUnits x ≤ (s.tile (id / 8)).inboundFree

/-- R331: the response to the tagged request of the port `id` is complete. -/
def complete (id tag : Nat) (s : State) : State :=
  match (tget [] s.noc.out id).find? fun o => o.tag = tag with
  | none => s
  | some o => countLatency id (s.noc.cycle - o.entered)
      { s with noc := { s.noc with out := tmod [] s.noc.out id (fun l => l.erase o) } }

/-! ### Epochs and registers (R323, R324, R337, R346) -/

/-- R323: the table of epoch `e` is in use. -/
def tableInUse (s : State) (e : Bool) : Bool := e == s.noc.epoch || s.noc.oldLive

/-- R323, R344: a write of one byte of a route table: any write to a table in use sets TABLE_LIVE; only Sorrel (`fw`) writes
one that is not. -/
def writeRoute (fw : Bool) (p : Nat) (e : Bool) (d v : Nat) (s : State) : State :=
  if tableInUse s e then { s with noc := { s.noc with tableLive := true } }
  else if !fw then s
  else { s with noc := { s.noc with routes := tset none s.noc.routes (routeKey p e d) (some (bits v 0 6)) } }

/-- R324: SWITCH; the ports in `busy` are within a packet in this cycle and adopt the epoch at its end. -/
def epochSwitch (busy : List Nat) (s : State) : State :=
  if s.noc.oldLive then s else
  let e := !s.noc.epoch
  { s with noc := { s.noc with
      epoch := e, oldLive := true
      pending := (busy.filter localPort).foldl (fun t p => tset false t p true) []
      piers := tmap {} (fun _ x => if e then { x with inj1 := 0, ej1 := 0 } else { x with inj0 := 0, ej0 := 0 })
        s.noc.piers } }
def execNocEpochSwitch (busy : List Nat) (s : State) : Host.Outcome State Fault Refusal :=
  effect (when (nocRuns s) (epochSwitch busy)) s

/-- R324: RETIRE. -/
def epochRetire (s : State) : State := { s with noc := { s.noc with oldLive := false } }
def execNocEpochRetire (s : State) : Host.Outcome State Fault Refusal := effect epochRetire s

/-- R332, R337: CLR_STATS. -/
def clearStats (s : State) : State :=
  { s with noc := { s.noc with
    bw := [], monitors := tmap {} (fun _ m => { m with max := 0, bins := [] }) s.noc.monitors } }
def execNocClrStats (s : State) : Host.Outcome State Fault Refusal := effect clearStats s

/-- R332, R346: NOC_HM_CFG. -/
def writeMonitor (m : Nat) (en : Bool) (port : Nat) (s : State) : State :=
  s.modMonitor m fun x => if x.port = port then { x with en } else { en, port }
def execNocHmCfgWrite (m : Nat) (en : Bool) (port : Nat) (s : State) : Host.Outcome State Fault Refusal :=
  effect (when (m < 16) (writeMonitor m en (port % 2 ^ 10))) s

/-- R338 to R343, R346. -/
def tableSize (t : List (Nat × Bool)) : Nat := t.length
def epochWord (n : Noc) : Nat :=
  field (tableSize n.pending) 8 10 + flag n.tableLive 3 + flag n.oldLive 2 + b2n n.epoch
def pierStatWord (s : State) (p : Nat) : Nat :=
  let x := s.pier p
  flag x.misroute 24 + flag x.dropped 23 + field x.linkFail.toNat 16 7 +
    (List.range 7).foldl (fun a j => a + flag (localPort (portId p j) && fenceAt s (portId p j)) (8 + j)) 0
def count16Word (v : Nat) : Nat := flag (v == 2 ^ 16 - 1) 31 + v
def nocGroupWord (x : NocGroup) : Nat :=
  (if x.causes = 0 then 0 else 2 ^ 31 + field x.firstCause 28 3 + field x.firstPier 16 7) + x.causes.toNat
def statLo (v : Nat) : Nat := v % 2 ^ 32
def statHi (n : Noc) (v : Nat) : Nat := flag (statMax n ≤ v) 31 + (if n.cnt32 then 0 else v / 2 ^ 32 % 2 ^ 16)
def monitorCfgWord (m : Monitor) : Nat := flag m.en 31 + field m.port 0 10
/-- R344: four route entries. -/
def routeWord (s : State) (p : Nat) (e : Bool) (i : Nat) : Nat :=
  (List.range 4).foldl (fun a k =>
    a + (routeOwn s p e (4 * i + k) + 8 * routeNext s p e (4 * i + k)) * 256 ^ k) 0

end Sys2Proof.Machine
end

