-- ==== Sys2Proof/Machine/Management.lean ====
section
/-! DEFINITION. Sorrel, the mailboxes, the event controller and the device commands (chapter 17, R652, R653). -/

namespace Sys2Proof.Machine

/-! ### Mailbox registers (R602 to R604, R612, R613, R633 to R635) -/

/-- R603: a write of MBX_CMD_TAIL. -/
def doorbell (m tail : Nat) (s : State) : State :=
  s.modMailbox m fun b =>
    if 16 < (tail % 2 ^ 16 + 2 ^ 16 - b.cmdHead) % 2 ^ 16 then { b with ptrErr := true }
    else { b with cmdTail := tail % 2 ^ 16 }
def execMbxDoorbell (m tail : Nat) (s : State) : Host.Outcome State Fault Refusal :=
  effect (when (m < 18) (doorbell m tail)) s

/-- R603: a write of MBX_RSP_HEAD; beyond the tail is everything past it going forward from the head. -/
def consume (m head : Nat) (s : State) : State :=
  s.modMailbox m fun b =>
    if (b.rspTail + 2 ^ 16 - b.rspHead) % 2 ^ 16 < (head % 2 ^ 16 + 2 ^ 16 - b.rspHead) % 2 ^ 16 then { b with ptrErr := true }
    else { b with rspHead := head % 2 ^ 16 }
def execMbxRspHeadWrite (m head : Nat) (s : State) : Host.Outcome State Fault Refusal :=
  effect (when (m < 18) (consume m head)) s

/-- R612, R633: RESYNC discards untaken commands; taken ones still receive their responses. -/
def resync (m : Nat) (s : State) : State := s.modMailbox m fun b => { b with cmdHead := b.cmdTail }
def execMbxResync (m : Nat) (s : State) : Host.Outcome State Fault Refusal := effect (when (m < 18) (resync m)) s

/-- R613: a write that changes ENC_V1. -/
def writeEnc (m : Nat) (v : Bool) (s : State) : State :=
  s.modMailbox m fun b =>
    if b.encV1 = v then b
    else if b.cmdHead = b.cmdTail ∧ b.tasks = [] then
      { b with encV1 := v, expectSeq := if v then b.expectSeq % 2 ^ 8 else b.expectSeq }
    else { b with ptrErr := true }
def execMbxEncV1Write (m : Nat) (v : Bool) (s : State) : Host.Outcome State Fault Refusal :=
  effect (when (m < 18) (writeEnc m v)) s

/-- R633: a write of MBX_CTRL, its fields in one write. -/
def writeMbxCtrl (m v : Nat) (s : State) : State :=
  let s := s.modMailbox m fun b => { b with irqEn := bit v 7, rspVector := bits v 0 6 }
  let s := if bit v 31 then resync m s else s
  writeEnc m (bit v 8) s

/-- R633 to R635. -/
def mbxCtrlWord (b : Mailbox) : Nat := flag b.encV1 8 + flag b.irqEn 7 + field b.rspVector 0 6
def mbxStatWord (b : Mailbox) : Nat :=
  field b.expectSeq 16 16 + flag b.ptrErr 15 + field b.tasks.length 12 3 + field b.reserved 0 5

/-- R602: a word of a mailbox's 4 KiB read. -/
def mbxRead (s : State) (m o : Nat) : Nat :=
  let b := s.mailbox m
  if o = 0x000 then mbxCtrlWord b else if o = 0x004 then mbxStatWord b
  else if o = 0x008 then b.cmdTail else if o = 0x00C then b.cmdHead
  else if o = 0x010 then b.rspTail else if o = 0x014 then b.rspHead
  else if 0x400 ≤ o ∧ o < 0x800 then ofLe (ringLoad b.cmdRing (o - 0x400) 4)
  else if 0x800 ≤ o ∧ o < 0xC00 then ofLe (ringLoad b.rspRing (o - 0x800) 4)
  else 0

/-- R602: a word of a mailbox's 4 KiB written; Sorrel alone writes the response ring (log 97). -/
def mbxWrite (m o v : Nat) (s : State) : State :=
  if o = 0x000 then writeMbxCtrl m v s
  else if o = 0x004 then (if bit v 15 then s.modMailbox m fun b => { b with ptrErr := false } else s)
  else if o = 0x008 then doorbell m v s
  else if o = 0x014 then consume m v s
  else if 0x400 ≤ o ∧ o < 0x800 then
    s.modMailbox m fun b => { b with cmdRing := ringStore b.cmdRing (o - 0x400) (leBytes 4 v) }
  else s

/-- R610: DEADLINE_MS milliseconds have passed since a command was taken. -/
def deadlineOver (s : State) (t : Task) : Bool := t.deadline * msTicks ≤ s.now - t.taken

/-- R610: DEADLINE_MS has passed since the command `seq` was taken: it is answered, and its operation goes on. -/
def deadlineAnswer (m seq : Nat) (s : State) : State :=
  match (s.mailbox m).tasks.find? fun t => t.seq = seq && decide (t.deadline ≠ 0) && deadlineOver s t with
  | none => s
  | some t => finalResponse m t stTimeout true [] s
def execMbxDeadline (m seq : Nat) (s : State) : Host.Outcome State Fault Refusal :=
  effect (when (m < 18 && s.dev.ready.sorrel && !s.sor.restarting) (deadlineAnswer m seq)) s

/-! ### Sideband and JTAG (R614, R615) -/

/-- R614: words read from an offset on. -/
def sidebandRead (s : State) (o n : Nat) : List Nat := (List.range n).map fun i => mbxRead s 16 ((o + 4 * i) % 2 ^ 12)
def sidebandWrite (o : Nat) : List Byte → State → State
  | b0 :: b1 :: b2 :: b3 :: r, s => sidebandWrite (o + 4) r (mbxWrite 16 (o % 2 ^ 12) (ofLe [b0, b1, b2, b3]) s)
  | _, s => s

/-- R614: a frame at offset bits 11:0: whole words or nothing. -/
def sidebandFrame (write : Bool) (o n : Nat) (data : List Byte) (s : State) : State :=
  let o := o % 2 ^ 12
  if write then (if o % 4 = 0 ∧ data.length % 4 = 0 then sidebandWrite o data s else s)
  else if o % 4 = 0 ∧ n % 4 = 0 then { s with sor := { s.sor with sideband := sidebandRead s o (n / 4) } }
  else s

/-- R614: SPI: opcode 0x02 writes, 0x0B reads `n` bytes. -/
def execSpiFrame (op o n : Nat) (data : List Byte) (s : State) : Host.Outcome State Fault Refusal :=
  effect (when (op = 0x02 || op = 0x0B) (sidebandFrame (op = 0x02) o n data)) s

/-- R614: I2C: a transfer to the 7-bit address 0x5C. -/
def execI2cFrame (addr : Nat) (write : Bool) (o n : Nat) (data : List Byte) (s : State) :
    Host.Outcome State Fault Refusal :=
  effect (when (addr = 0x5C) (sidebandFrame write o n data)) s

/-- R615: Update-DR of MBXACC: WRITE in bit 44, the offset in bits 43:32, data in bits 31:0. -/
def mbxAcc (dr : BitVec 45) (s : State) : State :=
  let o := bits dr.toNat 32 12
  if o % 4 ≠ 0 then s
  else if bit dr.toNat 44 then mbxWrite 17 o (bits dr.toNat 0 32) s
  else { s with sor := { s.sor with jtagData := BitVec.ofNat 32 (mbxRead s 17 o) } }
def execJtagMbxacc (dr : BitVec 45) (s : State) : Host.Outcome State Fault Refusal := effect (mbxAcc dr) s

/-- R614: SB_IRQ_N is low. -/
def sidebandIrq (s : State) : Bool := (s.mailbox 16).irqEn && decide ((s.mailbox 16).rspTail ≠ (s.mailbox 16).rspHead)

/-! ### Sorrel (R597, R598, R612, R623, R628) -/

/-- R598: a lockstep mismatch, which a double-bit error of the SRAM (`sramUe`) counts as. -/
def lockstepMismatch (sramUe : Bool) (s : State) : State :=
  let s := { s with sor := { s.sor with
    mismatches := s.sor.mismatches + 1, running := false, restarting := true
    sramUe := if sramUe then s.sor.sramUe + 1 else s.sor.sramUe } }
  settle (enterHold 3 (settle s))
def execSorrelLockstepMismatch (sramUe : Bool) (s : State) : Host.Outcome State Fault Refusal :=
  effect (when s.sor.running (lockstepMismatch sramUe)) s

/-- R598, R612: the restart ends: SORREL sets, event 12, and every command taken and not finally answered is answered. -/
def restartDone (s : State) : State :=
  let s := { s with sor := { s.sor with running := true, restarting := false, restarts := s.sor.restarts + 1 } }
  let s := raiseEvent evSorrel (settle s)
  let hold := decide (s.dev.mode = .hold)
  finishIf (fun _ => true) (fun t => if hold && holdStops s t then stWrong else stTimeout)
    (fun t => !(hold && holdStops s t)) [] s
def execSorrelRestartDone (s : State) : Host.Outcome State Fault Refusal :=
  effect (when s.sor.restarting restartDone) s

/-- R628, R623, R597: one millisecond: the heartbeat while SORREL is set, UPTIME_MS from its first setting on, and the
SRAM errors corrected in it. -/
def heartbeat (sramCe : Nat) (s : State) : State :=
  { s with
    dev := { s.dev with heartbeat := if s.dev.ready.sorrel then s.dev.heartbeat + 1 else s.dev.heartbeat }
    sor := { s.sor with uptimeMs := if s.sor.uptimeOn then s.sor.uptimeMs + 1 else s.sor.uptimeMs
                        sramCe := s.sor.sramCe + BitVec.ofNat 32 sramCe } }
def execDevHeartbeat (sramCe : Nat) (s : State) : Host.Outcome State Fault Refusal := effect (heartbeat sramCe) s

/-! ### Events (R618 to R620, R477) -/

/-- R620, R632: a fabric user event. -/
def userEvent (n : Nat) (s : State) : State :=
  if 336 ≤ n % 2 ^ 9 ∧ n % 2 ^ 9 ≤ 383 then raiseEvent (n % 2 ^ 9) s else s
def execEvtRaise (n : Nat) (s : State) : Host.Outcome State Fault Refusal := effect (userEvent n) s

/-- R619, R631: EVT_VEC_ACK. -/
def ackVector (v : Nat) (s : State) : State :=
  { s with evt := { s.evt with armed := s.evt.armed ||| BitVec.twoPow 64 (v % 64) } }
def execEvtVecAck (v : Nat) (s : State) : Host.Outcome State Fault Refusal := effect (ackVector v) s

/-- R619: vector `v` is asserted. -/
def asserted (s : State) (v : Nat) : Bool :=
  s.evt.route.any (fun e => e.2.msixEn && e.2.vector = v && s.evt.pend.getLsbD e.1)
  || (List.range 16).any fun m =>
    (s.mailbox m).irqEn && (s.mailbox m).rspVector = v && decide ((s.mailbox m).rspTail ≠ (s.mailbox m).rspHead)

/-- R477: a word of the MSI-X table; the vector control words start masked (PRESUMED, log 30). -/
def msixDefault (i : Nat) : Nat := if i % 4 = 3 then 1 else 0
def msixWord (s : State) (i : Nat) : Nat := tget (msixDefault i) s.lan.pci.msixTable i
def setMsixWord (i v : Nat) (s : State) : State :=
  { s with lan := { s.lan with pci := { s.lan.pci with msixTable := tset (msixDefault i) s.lan.pci.msixTable i (v % 2 ^ 32) } } }

/-- R477: the message may go: the link is up and the vector is not masked. -/
def mayMessage (s : State) (v : Nat) : Bool :=
  s.lan.pci.linkUp && s.dev.ready.pcie && s.dev.ready.events && !bit (msixWord s (4 * v + 3)) 0

/-- R619, R477: the controller sends the message of vector `v`, or leaves it pending; a pending one goes once it may. -/
def sendVector (v : Nat) (s : State) : State :=
  let due := asserted s v && s.evt.armed.getLsbD v
  let s := if due then { s with evt := { s.evt with armed := s.evt.armed &&& ~~~ BitVec.twoPow 64 v } } else s
  let p := s.lan.pci
  if !due && !p.pba.getLsbD v then s
  else if mayMessage s v then
    { s with evt := { s.evt with sent := v :: s.evt.sent }
             lan := { s.lan with pci := { p with pba := p.pba &&& ~~~ BitVec.twoPow 64 v } } }
  else { s with lan := { s.lan with pci := { p with pba := p.pba ||| BitVec.twoPow 64 v } } }
def execMsixSend (v : Nat) (s : State) : Host.Outcome State Fault Refusal := effect (when (v < 64) (sendVector v)) s

/-! ### Device commands (R622, R653, R690) -/

/-- R626. -/
def modeCode : Mode → Nat
  | .off => 0 | .load => 1 | .safe => 2 | .run => 3 | .trim => 4 | .hold => 5

/-- R624, R625, R626. -/
def devIdWord : Nat := 0x00EF0960
def devRevWord (s : State) : Nat :=
  0xB1 * 2 ^ 24 + s.sor.fwMajor.toNat * 2 ^ 16 + s.sor.fwMinor.toNat * 2 ^ 8 + s.fuse.grade.toNat * 2 ^ 6
    + flag s.fuse.range 5 + flag s.dev.compat 4
def devModeWord (d : Dev) : Nat := field d.holdCause 8 8 + modeCode d.mode
/-- R661. -/
def holdInfoWord (d : Dev) : Nat := field d.busyTiles 16 7 + d.holdCauses.toNat

/-- 0x0101. -/
def devIdentifyCmd (s : State) : State × Reply :=
  okWith (leBytes 4 devIdWord ++ leBytes 4 (devRevWord s) ++ leBytes 8 s.fuse.unitId.toNat
    ++ leBytes 1 (lifecycle s.fuse) ++ leBytes 1 (modeCode s.dev.mode) ++ leBytes 2 0
    ++ leBytes 4 (readyWord s.dev.ready).toNat ++ leBytes 4 (readyUnitWord s.dev.ready).toNat
    ++ leBytes 16 s.boot.buildId ++ leBytes 8 s.boot.fwImage) s
def execDevIdentify (q : CmdCtx) (s : State) : Host.Outcome State Fault Refusal :=
  effect (command q 0x0101 [] devIdentifyCmd) s

/-- R653: what the taking of 0x0102 starts. -/
def startTrim (s : State) : State :=
  let s := setMode .trim { s with sor := { s.sor with modeChange := some ⟨false⟩ } }
  evaluateAll (dividersToTrim (quadsToTrim s))
def startRun (s : State) : State :=
  dividersToRun (quadsToRun { s with sor := { s.sor with modeChange := some ⟨true⟩ } })

/-- 0x0102: TARGET 3 RUN, 4 TRIM. -/
def devModeSetCmd (target : Nat) (s : State) : State × Reply :=
  checks [(target ≠ 3 && target ≠ 4, stBadArg),
      (!((target = 4 && decide (s.dev.mode = .run)) || (target = 3 && decide (s.dev.mode = .trim))), stWrong),
      (s.sor.modeChange.isSome, stBusy)]
    (fun s =>
      let s := modeChangeCheck (if target = 4 then startTrim s else startRun s)
      if s.sor.modeChange.isNone then (s, .pend stOk (leBytes 1 (modeCode s.dev.mode))) else (s, .wait [] 0 0)) s
def execDevModeSet (q : CmdCtx) (target : Nat) (s : State) : Host.Outcome State Fault Refusal :=
  effect (command q 0x0102 (leBytes 1 target) (devModeSetCmd (u8 target))) s

/-- 0x0103, R622: HOLD is entered after the final OK is written. -/
def devHoldCmd (s : State) : State × Reply := ok { s with sor := { s.sor with holdNext := true } }
def afterCommand (s : State) : State :=
  if s.sor.holdNext then enterHold 1 { s with sor := { s.sor with holdNext := false } } else s
def execDevHold (q : CmdCtx) (s : State) : Host.Outcome State Fault Refusal :=
  effect (fun s => afterCommand (command q 0x0103 [] devHoldCmd s)) s

/-- 0x0104. -/
def devResetCmd (s : State) : State × Reply := (armRestart .reset s, .wait [] 0 0)
def execDevReset (q : CmdCtx) (s : State) : Host.Outcome State Fault Refusal :=
  effect (command q 0x0104 [] devResetCmd) s

/-- 0x0105. -/
def mbxStatusCmd (m : Nat) (s : State) : State × Reply :=
  let b := s.mailbox m
  checks [(decide (17 < m), stBadArg)]
    (okWith (leBytes 4 (mbxStatWord b) ++ leBytes 2 b.cmdHead ++ leBytes 2 b.cmdTail ++ leBytes 2 b.rspHead
      ++ leBytes 2 b.rspTail ++ leBytes 8 b.taken.toNat)) s
def execMbxStatus (q : CmdCtx) (m : Nat) (s : State) : Host.Outcome State Fault Refusal :=
  effect (command q 0x0105 (leBytes 1 m) (mbxStatusCmd (u8 m))) s

/-- R690: the millisecond has passed. -/
def restartDelayOver (s : State) : State :=
  match s.sor.restart with
  | none => s
  | some .reset | some .restart => restartDevice s
  | some .lifecycle => beginBlowing s
def execRestartDelayExpiry (s : State) : Host.Outcome State Fault Refusal := effect restartDelayOver s

/-! ### Diagnostics that read no device memory (R623) -/

/-- 0x0E01. -/
def diagEchoCmd (data : List Byte) (s : State) : State × Reply := okWith data s
def execDiagEcho (q : CmdCtx) (data : List Byte) (s : State) : Host.Outcome State Fault Refusal :=
  effect (command q 0x0E01 data (diagEchoCmd data)) s

/-- 0x0E04. -/
def diagRaiseCmd (n : Nat) (s : State) : State × Reply :=
  checks [(decide (383 < n), stBadArg), (lifecycle s.fuse = 2 && decide (n ≤ 335), stRights)]
    (fun s => ok (raiseEvent n s)) s
def execDiagRaise (q : CmdCtx) (n : Nat) (s : State) : Host.Outcome State Fault Refusal :=
  effect (command q 0x0E04 (leBytes 2 n) (diagRaiseCmd (u16 n))) s

/-- 0x0E05. -/
def diagSorrelCmd (s : State) : State × Reply :=
  okWith (leBytes 8 s.sor.uptimeMs.toNat ++ leBytes 4 s.sor.restarts.toNat ++ leBytes 4 s.sor.mismatches.toNat
    ++ leBytes 4 s.sor.sramCe.toNat ++ leBytes 4 s.sor.sramUe.toNat ++ leBytes 8 s.sor.commands.toNat) s
def execDiagSorrel (q : CmdCtx) (s : State) : Host.Outcome State Fault Refusal :=
  effect (command q 0x0E05 [] diagSorrelCmd) s

/-- 0x0E06: up to eight entries from position FIRST; entries past COUNT read zero. -/
def logEntryBytes (e : Nat × Nat) : List Byte := leBytes 8 e.1 ++ leBytes 2 e.2 ++ leBytes 6 0
def diagEventLogCmd (first : Nat) (s : State) : State × Reply :=
  okWith (leBytes 2 s.evt.log.length ++ leBytes 14 0
    ++ (List.range 8).flatMap fun i => logEntryBytes (lget (0, 0) s.evt.log (first + i))) s
def execDiagEventLog (q : CmdCtx) (first : Nat) (s : State) : Host.Outcome State Fault Refusal :=
  effect (command q 0x0E06 (leBytes 2 first) (diagEventLogCmd (u16 first))) s

end Sys2Proof.Machine
end

