-- ==== Sys2Proof/Machine/Boot.lean ====
section
/-! DEFINITION. Configuration loading up to its outcome: where containers come from, the start of a load, its failure, its
start-up steps (chapter 16), and the trial window (chapter 18). -/

namespace Sys2Proof.Machine

/-! ### Sources and phases (R564 to R571) -/

def isFollower (s : State) : Bool := s.dev.cfgMode = 2
def heldMode (s : State) : Bool := s.dev.cfgMode = 3 || s.dev.cfgMode = 4

/-- R590, R583: a load's stream, steps and timers go on: in LOAD, while CLOCK is set. -/
def loading (s : State) : Bool := decide (s.dev.mode = .load) && s.dev.ready.clock && decide (s.boot.kind ≠ .none)
/-- The header of a container is still to be checked. -/
def awaitsHeader (s : State) : Bool :=
  loading s && ((decide (s.boot.kind = .firmware) && decide (s.boot.phase = .firmware) && decide (s.boot.sections = []))
    || decide (s.boot.phase = .header))
/-- Sections are being read. -/
def readsSections (s : State) : Bool :=
  loading s && decide (s.boot.sections ≠ []) &&
    (decide (s.boot.phase = .firmware) || decide (s.boot.phase = .sections) || decide (s.boot.phase = .frames))

/-- The section table entry being read. -/
def currentSection (s : State) : SectionEntry :=
  lget ⟨0, true, 0, 0⟩ s.boot.sections s.boot.secIdx

/-- A load of `kind` begins with its header read: CFG_ERR_N is released (R589). -/
def beginLoad (kind : LoadKind) (dram : Bool) (s : State) : State :=
  { s with
    dev := { s.dev with cfgErrLow := false }
    boot := { s.boot with
      kind, fromDram := dram, phase := if kind = .firmware then .firmware else .header
      sections := [], secIdx := 0, framesWritten := if kind = .firmware then s.boot.framesWritten else 0, nextFrame := 0
      framePos := 0, blockLeft := 0
      step := 0, stepsDone := 0, gotByte := dram, clkPaused := !dram && !isFollower s, wiping := false
      usedTiles := [], usedClusters := [], usedPlls := [], pins := [], settingsApplied := false, forwarding := false } }

/-- R594: the container offset of a failure that the spec does not fix is a free value. -/
def failAt (pos : Option Nat) (s : State) : Nat × State :=
  match pos with
  | some a => (a, s)
  | none => let (v, s) := draw 32 s; (v.toNat, s)

/-- R593, R594: record a failure. -/
def recordFailure (code : Nat) (pos : Option Nat) (s : State) : State :=
  let (a, s) := failAt pos s
  { s with boot := { s.boot with phase := .failed, errCode := code, errSection := s.boot.secIdx, errAddr := a } }

/-! ### The failure of a base load (R589, R572) -/

/-- R589: tile clocks and PLL enables granted to the load return; the clusters it asked for do not wake (log 108). -/
def withdrawLoad (s : State) : State :=
  let s := forEach s.boot.usedTiles (fun t a =>
    let a := match (a.tile t).state with
      | .waitGrant => withdraw kTile t a
      | .off => a
      | _ => giveBackAll kTile t a
    a.modTile t fun x => { x with
      state := .off, credits := 0, owed := 0, inboundCfg := 0, outbound := [], tags := 0, inbound := [] }) s
  let s := forEach (List.range 96) (fun t a => a.modTile t fun x =>
    { x with setReset := true, releasing := false, isolated := false, spanHold := false, writesOn := false }) s
  let s := forEach s.boot.usedPlls pllDisable s
  forEach s.boot.usedClusters clusterDisable s

/-- R584: a user pin as before the OUT step; its scheduler's events are gone and every slot is free again (log 155). -/
def unconfigured (p : Pin) : Pin :=
  { p with sched := false, safeLevel := 2, standard := 0, pull := 0, out := 2, flying := [], stored := [], released := []
           returning := [], credits := 4 }

/-- R589: everything the load wrote is undone. R589 does not name SPN_SLOT_CFG: EVICT_IDLE and IDLE_TIME of every slot return
to 0 with the table, what the host wrote there too (DESIGN CHOICE, log 171). -/
def undoLoad (s : State) : State :=
  let s := withdrawLoad s
  let s := installTable defaultRights s
  { s with
    fab := { s.fab with frames := [], words := [], mems := [], dieLines := [], sync := [], captured := [] }
    spn := { s.spn with slots := [], storeBase := 0, storeSize := 0 }
    eng := { s.eng with pins := tmap {} (fun _ p => unconfigured p) s.eng.pins }
    ddr := if s.boot.settingsApplied then { s.ddr with wins := s.boot.savedWindows } else s.ddr
    boot := { s.boot with stepsDone := 0, step := 0, settingsApplied := false
                          windowsSet := if s.boot.settingsApplied then false else s.boot.windowsSet } }

/-- R589: a base load ends with `code`; a trial's failure is written to the directory (R572). -/
def loadFail (code : Nat) (pos : Option Nat) (s : State) : State :=
  let s := recordFailure code pos s
  let s := { s with dev := { s.dev with cfgErrLow := true }, boot := { s.boot with wiping := true } }
  let s := if s.boot.trial then writeDir (fun d => { d with baseTrial := 0 }) s else s
  settle (undoLoad s)

/-- R596: the status of a failed load. -/
def loadStatus (code : Nat) : Nat :=
  if code = 0x01 ∨ code = 0x0A ∨ code = 0x11 then stTimeout else if code = 0x12 then stBusy else stIntegrity

/-! ### The base load of a start (R566, R571) -/

def slotSize (d : Directory) (b : Bool) : Nat := if b then d.baseBSize else d.baseASize
def fwSlotSize (d : Directory) (b : Bool) : Nat := if b then d.fwBSize else d.fwASize

/-- The base slot that a start has chosen begins to load, or has nothing to load. -/
def loadSlot (s : State) : State :=
  let s := beginLoad .base false s
  if !isFollower s && slotSize s.boot.dir s.boot.slot = 0 then loadFail 0x01 (some 0) s else s

/-- R571: the slot of this start, and the directory write before the load; event 7 tells of a trial that ended
unconfirmed (log 109). -/
def chooseBase (s : State) : State :=
  let d := s.boot.dir
  let set (slot trial fell : Bool) (s : State) : State :=
    { s with boot := { s.boot with slot, trial, fellBack := s.boot.fellBack || fell } }
  if isFollower s then s
  else if d.baseTrial = 0 then set d.baseActive false false s
  else if d.baseTrial = 1 then set (!d.baseActive) true false (writeDir (fun d => { d with baseTrial := 2 }) s)
  else raiseEvent 7 (set d.baseActive false true (writeDir (fun d => { d with baseTrial := 0 }) s))

/-- R566, R591, R652: no base image is loaded: SAFE with CFG_ERR_N high. -/
def staySafe (held : Bool) (s : State) : State :=
  setMode .safe { s with
    dev := { s.dev with cfgErrLow := false }
    boot := { s.boot with kind := .none, phase := .idle, held } }

/-! ### Firmware at a start (R639, R640) -/

/-- R640: every slot has failed: SORREL never sets, CFG_ERR_N is low. A follower still forwards what follows its data,
unless its header failed FORMAT (R568, R641). -/
def firmwareDead (s : State) : State :=
  { s with
    dev := { s.dev with cfgErrLow := true }
    boot := { s.boot with kind := .none, phase := .failed
                          forwarding := isFollower s && decide (s.boot.errCode ≠ 0x02) } }

/-- R647, R651: what a firmware slot is known to hold; one that fails R578 counts as version 0. -/
def noteSlot (b : Bool) (version svn : Nat) (s : State) : State :=
  { s with boot := if b then { s.boot with fwBVersion := version, fwBSvn := svn }
                   else { s.boot with fwAVersion := version, fwASvn := svn } }

/-- Read the firmware slot `b`. -/
def readFirmware (b : Bool) (s : State) : State :=
  let s := beginLoad .firmware false s
  { s with boot := { s.boot with fwSlot := b } }

/-- R640, R641: the firmware being read is refused with `code`. -/
def firmwareFail (code : Nat) (pos : Option Nat) (s : State) : State :=
  let s := recordFailure code pos s
  let d := s.boot.dir
  if isFollower s then firmwareDead s
  else
  let s := if 2 ≤ code ∧ code ≤ 8 then noteSlot s.boot.fwSlot 0 0 s else s
  if s.boot.fwTrialRun then
    let s := writeDir (fun d => { d with fwTrial := 0 }) { s with boot := { s.boot with
      fwTrialRun := false, triedOther := true, fwFellBack := true, fellBackDue := true } }
    if fwSlotSize d d.fwActive = 0 then firmwareDead s else readFirmware d.fwActive s
  else if !s.boot.triedOther ∧ fwSlotSize d (!d.fwActive) ≠ 0 then
    readFirmware (!d.fwActive) { s with boot := { s.boot with triedOther := true } }
  else firmwareDead s

/-- A load ends with `code`. -/
def endLoad (code : Nat) (pos : Option Nat) (s : State) : State :=
  if s.boot.kind = .firmware then firmwareFail code pos s else loadFail code pos s

/-- R639: the slot of this start, and the directory write before the read. -/
def chooseFirmware (s : State) : State :=
  let d := s.boot.dir
  if d.fwTrial = 0 then readFirmware d.fwActive s
  else if d.fwTrial = 1 then
    let s := writeDir (fun d => { d with fwTrial := 2 }) s
    readFirmware (!d.fwActive) { s with boot := { s.boot with fwTrialRun := true } }
  else
    let s := writeDir (fun d => { d with fwTrial := 0 }) s
    readFirmware d.fwActive { s with boot := { s.boot with fwFellBack := true, fellBackDue := true } }

/-- R570, R636: a copy of the directory as its 128 bytes give it; it is valid when MAGIC and CRC match. -/
def directoryOf (second : Bool) (b : List Byte) : Directory :=
  { valid := decide (leAt b 0 4 = 0x47524944)
      && decide (leAt b 0x7C 4 = (~~~ crcBytes (BitVec.allOnes 32) (b.take 0x7C)).toNat)
    second, seq := BitVec.ofNat 32 (leAt b 4 4)
    baseAOff := leAt b 0x08 4, baseASize := leAt b 0x0C 4, baseBOff := leAt b 0x10 4, baseBSize := leAt b 0x14 4
    baseActive := decide (leAt b 0x18 1 = 1), baseTrial := leAt b 0x19 1
    fwAOff := leAt b 0x1C 4, fwASize := leAt b 0x20 4, fwBOff := leAt b 0x24 4, fwBSize := leAt b 0x28 4
    fwActive := decide (leAt b 0x2C 1 = 1), fwTrial := leAt b 0x2D 1, trialWindow := leAt b 0x2E 2
    setAOff := leAt b 0x30 4, setBOff := leAt b 0x34 4, setActive := decide (leAt b 0x38 1 = 1) }

/-- R570: of two copies, the second is the one to use: it alone is valid, or its SEQ is the later modulo 2^32. -/
def secondLater (a b : Directory) : Bool :=
  b.valid && (!a.valid || (decide (b.seq ≠ a.seq) && decide ((b.seq - a.seq).toNat < 2 ^ 31)))

/-- Boot flash as it was programmed from outside. -/
def foundFlash (f : Flash) (s : State) : State :=
  let a := directoryOf false f.dirA
  let b := directoryOf true f.dirB
  { s with boot := { s.boot with
      dir := if secondLater a b then b else a, dirOther := if secondLater a b then a else b
      fwAVersion := f.fwAVersion, fwASvn := f.fwASvn, fwBVersion := f.fwBVersion, fwBSvn := f.fwBSvn
      setAFmt := f.setAFmt, setA := f.setA, setBFmt := f.setBFmt, setB := f.setB } }

/-- R639, R568, R583: CLOCK has set, and the start begins with the firmware container. -/
def firmwareStart (flash : Option Flash) (s : State) : State :=
  let s := match flash with
    | none => s
    | some f => foundFlash f s
  if isFollower s then readFirmware false s
  else if !s.boot.dir.valid then firmwareDead (recordFailure 0x01 (some 0) s)
  else
    let s := chooseFirmware s
    if fwSlotSize s.boot.dir s.boot.fwSlot = 0 then firmwareFail 0x01 (some 0) s else s
def mayStart (s : State) : Bool :=
  decide (s.dev.mode = .load) && s.dev.ready.clock && decide (s.boot.phase = .idle) && decide (s.boot.kind = .none)
    && decide (s.dev.cfgMode < 5) && !s.sor.running
def execFwBootStart (flash : Option Flash) (s : State) : Host.Outcome State Fault Refusal :=
  effect (when (mayStart s) (firmwareStart flash)) s

/-! ### The header, the stream and its timers (R569, R578, R583, R590) -/

/-- R376, R596: bytes of the container that command 0x0402 loads, by the windows of the cycle it was taken in. -/
def containerBytes (s : State) (o n : Nat) : List Byte :=
  peekBytes { s with ddr := { s.ddr with wins := s.boot.loadWindows } } (s.boot.loadAddr + o) n

/-- R583: the bytes a source holds: the length given to 0x0402, or a flash slot's; a chain's end shows otherwise. -/
def sourceLength (s : State) : Option Nat :=
  if s.boot.fromDram then some s.boot.loadLen
  else if isFollower s then none
  else some (if s.boot.kind = .firmware then fwSlotSize s.boot.dir s.boot.fwSlot else slotSize s.boot.dir s.boot.slot)
/-- R583: the source ends before its byte `n`. -/
def sourceEnds (s : State) (n : Nat) : Bool := (sourceLength s).any (· < n)

/-- R578: the header of the container being loaded: of command 0x0402 the bytes in DRAM with what Sorrel computes over
them, else what the stream brings. -/
def loadedHeader (s : State) (h : Header) : Header :=
  if s.boot.fromDram then headerOf (containerBytes s 0 0x600) h.keyHash h.sigOk else h

/-- R578: the header check has ended; `h` is the header read. -/
def headerChecked (h : Header) (s : State) : State :=
  let kind := if s.boot.kind = .firmware then 0 else 1
  let code := headerCode kind s h
  let s := { s with boot := { s.boot with
      gotByte := true, forwarding := decide (kind = 1) && h.chainMore && decide (code ≠ 2) } }
  if sourceEnds s (if h.version = 1 then 0x400 else 0x600) then endLoad 0x0A none s
  else if code ≠ 0 then endLoad code none s
  else
    { s with boot := { s.boot with
      sections := h.sections, secIdx := 0, startOrder := h.startOrder % 256, frameCount := h.frameCount
      totalLen := h.totalLen, chainMore := h.chainMore, imageVersion := h.imageVersion
      stallTimeout := if h.version = 1 ∨ h.stallTimeout = 0 then 100 else h.stallTimeout
      buildId := if kind = 1 then h.buildId else s.boot.buildId
      phase := if kind = 0 then .firmware else if (lget ⟨0, true, 0, 0⟩ h.sections 0).kind = 0x10 then .frames else .sections } }
def execCfgHeaderCheckDone (h : Header) (s : State) : Host.Outcome State Fault Refusal :=
  effect (when (awaitsHeader s) fun s => headerChecked (loadedHeader s h) s) s

/-- R583: the source falls silent, or ends, before TOTAL_LEN. -/
def execCfgStallTimeout (s : State) : Host.Outcome State Fault Refusal :=
  effect (when (awaitsHeader s || readsSections s) (fun s => endLoad 0x0A none s)) s

/-- R583: no byte within 100 ms of the first read. -/
def execCfgNoImageTimeout (s : State) : Host.Outcome State Fault Refusal :=
  effect (when (awaitsHeader s && !s.boot.gotByte) (fun s => endLoad 0x01 (some 0) s)) s

/-- R569. -/
def execChainClkPauseEnd (s : State) : Host.Outcome State Fault Refusal :=
  effect (fun s => { s with boot := { s.boot with clkPaused := false } }) s

/-- R590, R591: ABORT ends a running base load with HOST_ABORT. -/
def baseRuns (s : State) : Bool :=
  decide (s.dev.mode = .load) && decide (s.boot.kind = .base) && !s.boot.wiping
    && [CfgPhase.header, .sections, .frames, .startup].contains s.boot.phase
def abortLoadNow (s : State) : State := if baseRuns s then loadFail 0x12 none s else s
def execCfgAbort (s : State) : Host.Outcome State Fault Refusal := effect abortLoadNow s

/-- R589, R572: the wipe has ended. -/
def wipeEnded (s : State) : State :=
  let s := raiseEvent evLoadFail { s with boot := { s.boot with wiping := false, kind := .none } }
  if s.boot.trial then
    let s := raiseEvent evTrialFail { s with boot := { s.boot with
      trial := false, fellBack := true, slot := s.boot.dir.baseActive, winOn := s.boot.winOn && s.boot.fwTrialRun } }
    loadSlot s
  else
    finish 0x0402 0 (loadStatus s.boot.errCode) (leBytes 1 s.boot.errCode)
      (setMode .safe { s with boot := { s.boot with held := false } })
def execCfgFailWipeDone (s : State) : Host.Outcome State Fault Refusal :=
  effect (when (s.boot.wiping && decide (s.dev.mode = .load)) wipeEnded) s

/-! ### Frames (R581, R582) -/

/-- R581: the frame address due next. -/
def nextFrameAddr (s : State) : Option Nat :=
  (s.boot.usedTiles[s.boot.nextFrame / 19712]?).map fun t => frameKey t (s.boot.nextFrame % 19712)

/-- R582: ABUT_DIR and ABUT_BOTH on the driver enables of edge `e` of tile `t`. -/
def baseAbut (s : State) (t e : Nat) (v : BitVec 640) : Nat :=
  let en := v.truncate 512
  match facing t e with
  | none => if en ≠ 0 then 0x0D else 0
  | some n =>
    match slotOf s n with
    | some x => if en &&& tget 0 x.2.dirs (4 * n + (e + 2) % 4) ≠ 0 then 0x0D else 0
    | none =>
      if s.boot.usedTiles.contains n ∧ n < t ∧ en &&& (readFrame s n ((e + 2) % 4)).truncate 512 ≠ 0 then 0x0E else 0

/-- R582: the first check a base frame fails, 0 for none. -/
def baseFrameCode (s : State) (addr : Nat) (v : BitVec 640) : Nat :=
  let t := addr / 2 ^ 15
  let k := addr % 2 ^ 15
  if !s.boot.usedTiles.contains t ∨ (slotOf s t).isSome ∨ 19712 ≤ k then 0x0B
  else if nextFrameAddr s ≠ some addr then 0x0C
  else if k < 4 then baseAbut s t k v else 0

/-- R146, R581: the frame of a block that comes next: a new block's head is the bytes `head`; of command 0x0402 head and
frame stand in DRAM. A head that breaks R146 gives no next frame (ORDER, log 144). -/
def nextHead (s : State) (head : List Byte) : List Byte :=
  if s.boot.fromDram then containerBytes s ((currentSection s).offset + s.boot.framePos) 16 else head
def openBase (head : List Byte) (s : State) : State :=
  if s.boot.blockLeft ≠ 0 then s
  else if headOk head then
    { s with boot := { s.boot with framePos := s.boot.framePos + 16, blockLeft := leAt head 4 4, blockNext := leAt head 0 4 } }
  else s
def frameBits (s : State) (v : BitVec 640) : BitVec 640 :=
  if s.boot.fromDram then
    BitVec.ofNat 640 (ofLe (containerBytes s ((currentSection s).offset + s.boot.framePos) 80))
  else v
def passBase (s : State) : State :=
  { s with boot := { s.boot with
    framePos := s.boot.framePos + 80, blockLeft := s.boot.blockLeft - 1, blockNext := s.boot.blockNext + 1 } }

/-- R582: a frame of the FRAMES section is checked and written; `mems` is what a logic frame configures (R140). -/
def baseFrame (addr : Nat) (v : BitVec 640) (mems : List MemSetting) (s : State) : State :=
  let addr := addr % 2 ^ 22
  let code := baseFrameCode s addr v
  if code ≠ 0 then loadFail code (some addr) s
  else
    let k := addr % 2 ^ 15
    let s := setMems (addr / 2 ^ 15) (if k < 13568 then mems else []) (writeFrame none (addr / 2 ^ 15) k v s)
    { s with boot := { s.boot with nextFrame := s.boot.nextFrame + 1, framesWritten := s.boot.framesWritten + 1 } }
/-- R581, R582: the next frame of the stream arrives, with the head of its block where one begins. -/
def frameArrives (head : List Byte) (v : BitVec 640) (mems : List MemSetting) (s : State) : State :=
  let head := nextHead s head
  let s := openBase head s
  if s.boot.blockLeft = 0 then loadFail 0x0C (some (leAt head 0 4 % 2 ^ 22)) s
  else baseFrame s.boot.blockNext (frameBits s v) mems (passBase s)
/-- R581: FRAMES holds another frame; of a stream, its sender knows. -/
def moreFrames (s : State) : Bool :=
  !s.boot.fromDram || s.boot.framePos + (if s.boot.blockLeft = 0 then 96 else 80) ≤ (currentSection s).length
def execCfgFrame (head : List Byte) (v : BitVec 640) (mems : List MemSetting) (s : State) : Host.Outcome State Fault Refusal :=
  effect (when (readsSections s && decide (s.boot.phase = .frames) && moreFrames s) (frameArrives head v mems)) s

/-! ### Start-up (R586 to R588) -/

/-- R586: the last frame is in: the requests go to the current governor in one decision. -/
def presentRequests (s : State) : State :=
  let s := forEach s.boot.usedTiles tileEnable s
  let s := forEach s.boot.usedPlls pllEnable s
  let s := forEach s.boot.usedClusters clusterEnable s
  { s with boot := { s.boot with phase := .startup, step := 0 } }

/-- R586: the CLK step may complete. -/
def clkStepDone (s : State) : Bool :=
  s.boot.usedTiles.all (fun t => decide ((s.tile t).state = .on)) && s.boot.usedPlls.all (fun n => (s.pll n).lock)

/-- R586: OUT: the pins take their standards and go to their drivers; a SCHED pin drives its SAFE_LEVEL, and
one marked unused stays high-impedance (R673). -/
def outStep (s : State) : State :=
  s.boot.pins.foldl (fun a x => if x.pin < 960 then a.modPin x.pin fun p =>
    if x.pull = 4 then { p with standard := x.standard, pull := 4, out := 2 }
    else { p with standard := x.standard, pull := x.pull, sched := x.sched, safeLevel := x.safeLevel % 3
                  out := if x.sched then x.safeLevel % 3 else 2 } else a) s

/-- R586, R49, R50, R87: RST: global set-reset is released in every tile of both dies, and the ports open. -/
def rstStep (s : State) : State :=
  forEach (List.range 96) (fun t a =>
    let a := releaseTile t a
    if (a.tile t).state = .on then a.modTile t openPort else a) s

/-- R586, R113: WR: user writes to block memory are enabled, in every tile outside the slots. -/
def wrStep (s : State) : State :=
  forEach (List.range 96) (fun t a => if (slotOf a t).isNone then a.modTile t fun x => { x with writesOn := true } else a) s

/-- R588: the fourth step is complete. -/
def startupDone (s : State) : State :=
  let s := { s with
    dev := { s.dev with cfgDone := true }
    boot := { s.boot with phase := .done, kind := .none, held := false } }
  let s := settle (defineSlots (setMode .run s))
  let s := evaluateAll (raiseEvent evDone s)
  finish 0x0402 0 stOk (leBytes 1 0) s

/-- A step of code `k` is complete. -/
def startupStepDone (k : Nat) (s : State) : State :=
  let s := { s with boot := { s.boot with step := s.boot.step + 1, stepsDone := s.boot.stepsDone ||| BitVec.twoPow 4 k } }
  if 4 ≤ s.boot.step then startupDone s else s

/-- R586, R587: the next step of START_ORDER runs; CLK waits for the tiles and the PLLs, and fails on RANGE_ERR. -/
def startupStep (s : State) : State :=
  match bits s.boot.startOrder (2 * s.boot.step) 2 with
  | 0 =>
    if s.boot.usedPlls.any (fun n => (s.pll n).rangeErr) then loadFail 0x11 none s
    else if clkStepDone s then startupStepDone 0 s else s
  | 1 => startupStepDone 1 (outStep s)
  | 2 => startupStepDone 2 (rstStep s)
  | _ => startupStepDone 3 (wrStep s)
def startingUpNow (s : State) : Bool := loading s && decide (s.boot.phase = .startup) && decide (s.boot.step < 4)
def execStartupStep (s : State) : Host.Outcome State Fault Refusal :=
  effect (when (startingUpNow s) startupStep) s

/-- R587: a PLL is not locked 10 ms after its grant. -/
def execCfgPllLockTimeout (n : Nat) (s : State) : Host.Outcome State Fault Refusal :=
  effect (when (startingUpNow s && bits s.boot.startOrder (2 * s.boot.step) 2 = 0 && s.boot.usedPlls.contains n
    && (s.pll n).granted && !(s.pll n).lock) (fun s => loadFail 0x11 none s)) s

/-! ### The trial window (R642) -/

/-- R636: the window in seconds. -/
def windowSeconds (d : Directory) : Nat := if d.trialWindow = 0 then 120 else d.trialWindow

/-- R642: the window opens: event 324. -/
def openWindow (s : State) : State :=
  if s.boot.fwTrialRun || s.boot.trial then
    raiseEvent 324 { s with boot := { s.boot with
      winOn := true, winStart := s.now, winLen := windowSeconds s.boot.dir, winWarned := false } }
  else s

/-- R650: whole seconds left; the window stands still in HOLD (R642). -/
def windowLeft (s : State) : Nat :=
  if s.boot.winOn then
    let now := if s.dev.mode = .hold then s.dev.holdTick.toNat else s.now
    (s.boot.winLen * 1000 * msTicks - (now - s.boot.winStart)) / (1000 * msTicks)
  else 0

def windowRuns (s : State) : Bool := s.boot.winOn && decide (s.dev.mode ≠ .hold)
/-- R642: `tenths` tenths of the window have passed; its end is held as a tick count. -/
def windowPassed (s : State) (tenths : Nat) : Bool := s.boot.winLen * 100 * msTicks * tenths ≤ s.now - s.boot.winStart
def execTrialWindowWarning (s : State) : Host.Outcome State Fault Refusal :=
  effect (when (windowRuns s && !s.boot.winWarned && windowPassed s 9) fun s =>
    raiseEvent 328 { s with boot := { s.boot with winWarned := true } }) s

/-- R642, R572: the window ends unconfirmed. -/
def execTrialWindowExpiry (s : State) : Host.Outcome State Fault Refusal :=
  effect (when (windowRuns s && windowPassed s 10) fun s =>
    let s := if s.boot.trial then raiseEvent evTrialFail s else s
    restartDevice (trialEnds s)) s

/-! ### Registers (R591 to R595, R648 to R650) -/

def phaseCode : CfgPhase → Nat
  | .idle => 0 | .firmware => 1 | .header => 2 | .sections => 3 | .frames => 4 | .startup => 5 | .done => 6 | .failed => 7
def cfgCtrlWord (b : Boot) : Nat := flag b.holdSafe 2 + flag b.giturV1 1
def cfgStatWord (s : State) : Nat :=
  let b := s.boot
  field (phaseCode b.phase) 29 3 + field s.dev.cfgMode 26 3 + flag b.slot 25 + flag b.trial 24 + flag b.fellBack 23
    + flag s.fuse.keyFused 22 + flag s.dev.pullCfgN 21 + flag s.dev.cfgDone 20 + flag s.dev.cfgErrLow 19 + flag b.held 18
    + field b.stepsDone.toNat 8 4
def cfgErrWord (b : Boot) : Nat := field b.errCode 24 8 + field b.errSection 20 4
def fwStatWord (b : Boot) : Nat :=
  flag b.fwSlot 31 + flag b.fwTrialRun 30 + flag b.fwFellBack 29 + flag b.altBoot 28 + field b.setFmt 8 8 + field b.svn 0 8

/-- R646: a step counts as blown when at least two of its fuses are. -/
def stepBlown (f : BitVec 384) (k : Nat) : Bool :=
  2 ≤ b2n (f.getLsbD (3 * k)) + b2n (f.getLsbD (3 * k + 1)) + b2n (f.getLsbD (3 * k + 2))
def arbCount (s : State) : Nat := ((List.range 128).filter fun k => stepBlown s.fuse.antiRollback k).length
def arbWord (s : State) : Nat := flag s.boot.arbBusy 8 + arbCount s

end Sys2Proof.Machine
end

