-- ==== Sys2Proof/Machine/Grants.lean ====
section
/-! DEFINITION. The decision of the current governor (R544 to R551): what each grant and each stage starts. -/

namespace Sys2Proof.Machine

/-- R551: what a grant starts, by KIND and INDEX. -/
def granted (kind index : Nat) (s : State) : State :=
  match kind with
  | 0 => tileGranted index s
  | 1 => pllGranted index s
  | 2 => slotGranted index s
  | 3 => clusterGranted index s
  | 4 => groupGranted index s
  | 5 => bankGranted index s
  | 6 => chanGranted index s
  | 7 => quadGranted index s
  | 8 => rampGranted s
  | _ => if index = 0 then bramBurst s else if index = 1 then scratchBurst s else chanBurst (index - 2) s

/-- R549 to R551: the slew slot of a VCC_CORE grant, and the stages that follow it. -/
def grantSlot (r : GovReq) : Nat :=
  if r.kind = kSlot then slotTicks 8 1 else if r.kind = kCluster then slotTicks 11 8
  else if r.kind = kGroup then slotTicks 1 1 else slotTicks r.credits 1
def grantStages (r : GovReq) : List GovStage :=
  if r.kind = kCluster then [⟨kCluster, r.index, 7, 11, 8⟩] else if r.kind = kGroup then [⟨kGroup, r.index, 15, 1, 1⟩] else []

/-- R542, R546: the head of a queue fits. -/
def fits (s : State) (sp : Nat) (r : GovReq) : Bool := booked s sp + r.credits ≤ budget sp

/-- R544 step 4 on VCC_CORE: the oldest stage, or else the head. -/
def decideCore (s : State) : State :=
  if s.gov.slewLeft ≠ 0 then s else
  match s.gov.stages with
  | g :: t =>
    let rest := if g.left ≤ 1 then t else { g with left := g.left - 1 } :: t
    let s := { s with gov := { s.gov with stages := rest, slewLeft := slotTicks g.num g.den } }
    if g.kind = kSlot then slotStage g.index s else s
  | [] =>
    match (s.supply 0).queue with
    | [] => s
    | r :: _ =>
      if fits s 0 r then
        let s := s.modSupply 0 (grantHead s.now (if s.gov.standing then standingOf 0 else 0))
        let s := { s with gov := { s.gov with slewLeft := grantSlot r, stages := grantStages r } }
        granted r.kind r.index s
      else s

/-- R544 step 4 on VCC_LANE and VCC_DDR: successive heads, while they fit. -/
def decideOther (sp : Nat) : Nat → State → State
  | 0, s => s
  | fuel + 1, s =>
    match (s.supply sp).queue with
    | [] => s
    | r :: _ =>
      if fits s sp r then decideOther sp fuel (granted r.kind r.index (s.modSupply sp (grantHead s.now 0))) else s

/-- R544, R554: one decision. -/
def decision (s : State) : State :=
  let s := forEach (List.range 3) (fun sp a => a.modSupply sp fun u =>
    enterNew a.now (dropWithdrawn a.now (bookReturns u))) s
  if granting s then
    let s := decideCore s
    let s := decideOther 1 (s.supply 1).queue.length s
    decideOther 2 (s.supply 2).queue.length s
  else s
def execGovDecision (s : State) : Host.Outcome State Fault Refusal := effect decision s

end Sys2Proof.Machine
end

