-- ==== Sys2Proof/Machine/Registers.lean ====
section
/-! DEFINITION. The register map read (chapter 21): every register of BAR0 by its offset, and the latched pairs of R687. -/

namespace Sys2Proof.Machine

/-- The index and the offset of an instance: `o` lies in the block of instances from `base`, `stride` apart. -/
def inst (o base stride : Nat) : Nat × Nat := ((o - base) / stride, (o - base) % stride)

/-- The word `i` of a wide value. -/
def word32 (v i : Nat) : Nat := v / 2 ^ (32 * i) % 2 ^ 32

/-! ### Words that no family has defined -/

/-- R630. -/
def routeRegWord (r : Route) : Nat :=
  flag r.msixEn 31 + flag r.sorrelEn 30 + flag r.lineEn 29 + field r.line 20 4 + field r.vector 8 6
/-- R627. -/
def conflictWord (d : Dev) : Nat := flag d.conflict 31 + field d.conflictOffset 0 26
/-- R536. -/
def dividerWord (x : Divider) : Nat := field x.target 16 10 + field x.ratio 0 10
/-- R291, R289, R293. -/
def qmWaterWord (q : Qm) : Nat := field q.spillHigh 16 14 + field q.spillLow 0 14
def qmCtrlWord (q : Qm) : Nat := flag q.emptyZero 2 + flag q.spillGlobal 1 + flag q.staleEn 0
def qmMapCfgWord (q : Qm) : Nat := field q.mapCh 24 3 + field q.vpages 0 22
/-- R295. -/
def queueGroupWord (x : QGroup) : Nat :=
  (if x.causes = 0 then 0 else 2 ^ 31 + field x.firstCause 27 4 + field x.firstQ 16 11) + x.causes.toNat
/-- R176. -/
def slotCfgWord (x : Slot) : Nat := flag x.evictIdle 16 + field x.idleTime 0 16
/-- R362, R363, R365, R366. -/
def spdCtrlWord (s : Spd) : Nat := flag s.scrubEn 8 + field s.gap 0 8
def spdScrubWord (s : Spd) : Nat := field s.passes 16 16 + flag s.waitGrant 6 + flag s.skipped 5 + field s.group 0 5
def spdLogWord (s : Spd) : Nat :=
  flag s.logValid 31 + flag s.logKind 30 + field s.logSource 28 2 + field s.logBank 20 8 + field s.logUnit 7 13
    + field s.logSymbol 0 6
def spdInjectWord (s : Spd) : Nat := flag s.injArm 31 + field s.injBank 4 8 + s.injFlip.toNat
/-- R367, R368, R370. -/
def bankOwnWord (s : State) (b : Nat) : Nat :=
  let x := s.bank b
  field (bankState x.state) 30 2 + flag x.refused 29 + flag (s.qm.returning.getLsbD b) 28 + flag x.wipe 24
    + field x.kind 16 4 + field x.index 0 7
def scratchGroupWord (x : SGroup) : Nat :=
  (if x.causes = 0 then 0 else 2 ^ 31 + field x.firstCause 28 3 + field x.firstBank 16 3) + x.causes.toNat
def scratchStatWord (s : State) (g : Nat) : Nat := field (heldBy s kGroup g) 8 8 + groupState (s.sgroup g).state
/-- R404 to R409. -/
def chanStatWord (s : State) (c : Nat) : Nat :=
  let x := s.chan c
  field (chanCredits s c) 24 8 + flag (s.sub (2 * c + 1)).frozen 9 + flag (s.sub (2 * c)).frozen 8
    + flag x.disablePending 4 + flag x.pendingEnable 3 + chState x.state
def chanCfgWord (x : Chan) : Nat :=
  flag x.populated 31 + field x.ranks 24 2 + flag x.rdimm 16 + field x.density 8 1 + field (capGiB x) 0 8
def chanScrubWord (x : Chan) : Nat := flag x.autoMark 24 + field x.markThresh 16 8 + flag x.scrubEn 8 + field x.gap 0 8
def chanScrubStatWord (x : Chan) : Nat := field x.passes 16 16 + flag x.waitGrant 2 + flag x.skipped 1
def chanActWord (x : Chan) : Nat := flag x.rfmEn 16 + field x.actThresh 0 16
/-- R410, R414, R415. -/
def freezeCode : FreezeCause → Nat
  | .none => 0 | .data => 1 | .caParity => 2
def subEvtWord (x : SubCh) : Nat := flag x.frozen 31 + field (freezeCode x.cause) 29 2 + x.causes.toNat
def subLogWord (x : SubCh) : Nat :=
  flag x.logValid 31 + flag x.logKind 30 + field x.logSource 28 2 + field x.logRank 27 1 + flag x.logErasure 26
    + x.logChips.toNat
def chipCountWord (x : SubCh) (r i : Nat) : Nat :=
  (List.range 4).foldl (fun a b => if 4 * i + b < 10 then a + field (tget 0 x.chipCnt (10 * r + 4 * i + b)) (8 * b) 8 else a) 0
/-- R120, R126, R591. -/
def bramScrubWord (x : Scrub) : Nat := flag x.en 8 + field x.gap 0 8
def bramInjectWord (x : Scrub) : Nat := flag x.injArm 31 + field x.injTile 16 7 + field x.injMem 8 6 + x.injFlip.toNat
/-- R82. -/
def tileCmdWord (f : Fab) : Nat := field f.lastTile 16 7 + flag f.badTile 1 + flag f.spanOwnedErr 0
/-- R75: output `j` of a PLL. -/
def Pll.output (x : Pll) (j : Nat) : PllOut := lget x.out0 [x.out0, x.out1, x.out2, x.out3] j
def Pll.setOutput (x : Pll) (j : Nat) (o : PllOut) : Pll :=
  if j = 0 then { x with out0 := o } else if j = 1 then { x with out1 := o }
  else if j = 2 then { x with out2 := o } else { x with out3 := o }

/-! ### Latched pairs (R687) -/

/-- The live HI word of the pair whose LO register lies at `off`, and what its latch reads before a read of LO. -/
def pairAt (s : State) (off : Nat) : Option (Nat × Nat) :=
  if off = 0x01009008 then some (countHi s.fab.scrub.ce, 0)
  else if off = 0x00C00008 then some (countHi s.spd.ce, 0)
  else if off = 0x00000024 then some (word32 s.dev.holdTick.toNat 1, 0)
  else if off = 0x00300020 then some (word32 (wrapNat 64 s.tim.rate) 1, 0)
  else if within off 0x00B00000 0x60000 then
    let (n, o) := inst off 0x00B00000 0x1000
    if within o 0x100 0x80 && o % 0x20 = 8 then
      some (word32 (s.ctx (4 * n + (o - 0x100) / 0x20)).deadline.toNat 1, 0xFFFFFFFF) else none
  else if within off 0x00D00000 0x80000 then
    let (c, o) := inst off 0x00D00000 0x10000
    if o = 0x10C ∨ o = 0x20C then some (countHi (s.sub (2 * c + (o / 0x100 - 1))).ce, 0) else none
  else if within off 0x00901000 0x2000 then
    let (g, o) := inst off 0x00901000 0x100
    if within o 0x10 0x38 && o % 8 = 0 then some (countHi (tget 0 (s.qgroup g).counters ((o - 0x10) / 8)), 0) else none
  else if within off 0x00F40000 0x8000 then
    let (p, o) := inst off 0x00F40000 0x1000
    if within o 0x100 0x50 && o % 8 = 0 then some (countHi (tget 0 (s.port p).counters ((o - 0x100) / 8)), 0) else none
  else if within off 0x00420000 0x3C00 && off % 8 = 0 then
    let (i, o) := inst off 0x00420000 0x10
    let x := tget {} s.noc.bw i
    some (statHi s.noc (if o = 0 then x.tx else x.rx), 0)
  else if within off 0x00430000 0x1000 then
    let (m, o) := inst off 0x00430000 0x100
    if within o 0x10 0x80 && o % 8 = 0 then
      some (statHi s.noc (tget 0 (s.monitor m).bins ((o - 0x10) / 8)), 0) else none
  else none

def latchKey (port lo : Nat) : Nat := port * 2 ^ 26 + lo

/-- R687: the HI register of the pair at `lo` as source port `port` reads it. -/
def latched (s : State) (port lo dflt : Nat) : Nat :=
  match tget none s.dev.hiLatch (latchKey port lo) with
  | some v => v
  | none => dflt

/-! ### The map, region by region; `o` is an offset within the region -/

/-- DEV_ and EVT_ (R32 to R34, R624 to R632, R661, R681). -/
def readDevRegs (s : State) (o : Nat) : Nat :=
  if within o 0x4000 0x30 then word32 s.evt.pend.toNat ((o - 0x4000) / 4)
  else if within o 0x5000 0x600 then routeRegWord (s.route ((o - 0x5000) / 4))
  else if within o 0x6100 0x100 then
    let (k, j) := inst o 0x6100 0x10
    if j < 12 then word32 (tget (BitVec.allOnes 96) s.evt.lineEng k).toNat (j / 4) else 0
  else match o with
    | 0x00 => devIdWord
    | 0x04 => devRevWord s
    | 0x08 => devModeWord s.dev
    | 0x0C => conflictWord s.dev
    | 0x10 => (readyWord s.dev.ready).toNat
    | 0x14 => (readyUnitWord s.dev.ready).toNat
    | 0x18 => s.dev.lost.toNat
    | 0x1C => s.dev.heartbeat.toNat
    | 0x20 => holdInfoWord s.dev
    | 0x24 => word32 s.dev.holdTick.toNat 0
    | 0x2C => devTempWord s.dev
    | 0x6000 => word32 s.evt.armed.toNat 0
    | 0x6004 => word32 s.evt.armed.toNat 1
    | _ => 0

/-- CLK_ and CUR_ (R534 to R538, R555 to R562). -/
def readClkRegs (s : State) (o : Nat) : Nat :=
  if within o 0x10 0x10 then dividerWord (s.clk.div ((o - 0x10) / 4))
  else if within o 0x20 0x10 then field (s.clk.div ((o - 0x20) / 4)).trim 0 10
  else if within o 0x1010 0x30 then
    let (sp, j) := inst o 0x1010 0x10
    if j = 0 then curAcctWord s sp else if j = 4 then curBookedWord s sp
    else if j = 8 then curQueueWord s sp else curHeadWord s sp
  else match o with
    | 0x00 => clkCtrlWord s.clk
    | 0x04 => clkStatWord s.clk
    | 0x30 => clkMonWord s.clk
    | 0x1000 => b2n s.gov.grantEn
    | 0x1004 => curEvtWord s.gov
    | 0x1008 => field s.gov.waitWarn 0 16
    | 0x100C => field s.gov.slewLeft 0 12
    | _ => 0

/-- TIM_ (R508 to R512). -/
def readTimRegs (s : State) (o : Nat) : Nat :=
  let t := s.tim
  match o with
  | 0x00 => timCtrlWord t
  | 0x04 => timStatWord t
  | 0x08 => word32 t.snapTick 0
  | 0x0C => word32 t.snapTick 1
  | 0x10 => word32 (ntSeconds t.snapTime) 0
  | 0x14 => word32 (ntSeconds t.snapTime) 1
  | 0x18 => ntNanos t.snapTime
  | 0x1C => ntFraction t.snapTime
  | 0x20 => word32 (wrapNat 64 t.rate) 0
  | 0x28 => t.offsetLo
  | 0x2C => t.offsetHi
  | 0x30 => timServoWord t
  | 0x34 => timLockWord t
  | 0x38 => timHoldWord t
  | 0x3C => timTcWord t
  | _ => 0

/-- NOC_ (R337 to R347); `o` counts from 0x0040_0000. -/
def readNocRegs (s : State) (o : Nat) : Nat :=
  if within o 0x1000 0xF00 then
    let (p, j) := inst o 0x1000 0x20
    let x := s.pier p
    match j with
    | 0x00 => pierStatWord s p
    | 0x04 => count16Word x.ce
    | 0x08 => count16Word x.replay
    | 0x10 => x.inj0.toNat
    | 0x14 => x.ej0.toNat
    | 0x18 => x.inj1.toNat
    | 0x1C => x.ej1.toNat
    | _ => 0
  else if within o 0x2000 0x200 then
    let (g, j) := inst o 0x2000 0x10
    if j = 0 then nocGroupWord (s.nocGroup g) else if j = 4 then (s.nocGroup g).en.toNat else 0
  else if within o 0x10000 0x7800 then
    let (p, j) := inst o 0x10000 0x100
    if j % 0x80 < 0x78 then routeWord s p (decide (0x80 ≤ j)) (j % 0x80 / 4) else 0
  else if within o 0x20000 0x3C00 then
    let (i, j) := inst o 0x20000 0x10
    let x := tget {} s.noc.bw i
    if j = 0 then statLo x.tx else if j = 8 then statLo x.rx else 0
  else if within o 0x30000 0x1000 then
    let (m, j) := inst o 0x30000 0x100
    let x := s.monitor m
    if j = 0 then monitorCfgWord x else if j = 4 then x.max
    else if within j 0x10 0x80 then statLo (tget 0 x.bins ((j - 0x10) / 8)) else 0
  else match o with
    | 0x0 => b2n s.noc.cnt32
    | 0x4 => epochWord s.noc
    | _ => 0

/-- QM_ and QSTAT_ (R289 to R300). -/
def readQueueRegs (s : State) (o : Nat) : Nat :=
  if 0x80000 ≤ o then
    let q := (o - 0x80000) / 8
    if o % 8 = 0 then depthOf (s.queue q) % 2 ^ 25 else queueFlagsWord s q
  else if within o 0x1000 0x2000 then
    let (g, j) := inst o 0x1000 0x100
    let x := s.qgroup g
    if j = 0 then queueGroupWord x else if j = 4 then x.en.toNat
    else if within j 0x10 0x38 then word32 (tget 0 x.counters ((j - 0x10) / 8)) 0 else 0
  else match o with
    | 0x00 => qmCtrlWord s.qm
    | 0x04 => qmPoolWord s
    | 0x08 => qmWaterWord s.qm
    | 0x10 => word32 s.qm.mapBase 0
    | 0x14 => word32 s.qm.mapBase 1
    | 0x18 => word32 s.qm.storeBase 0
    | 0x1C => word32 s.qm.storeBase 1
    | 0x20 => qmMapCfgWord s.qm
    | 0x24 => qmCacheWord s
    | _ => 0

/-- SPN_ (R174 to R179). -/
def readSpanRegs (s : State) (o : Nat) : Nat :=
  if within o 0x1000 0x400 then
    let (i, j) := inst o 0x1000 0x10
    let x := s.slot i
    if j = 0 then slotCfgWord x else if j = 4 then slotStatWord s i
    else if j = 8 then slotErrWord x else slotGeomWord x
  else match o with
    | 0x0 => flag s.spn.trimEvict 1 + flag s.spn.pagerEn 0
    | 0x4 => spnStatWord s
    | _ => 0

/-- ENG_ and CTX_ (R213 to R224). -/
def readEngRegs (s : State) (o : Nat) : Nat :=
  if o < 0x60000 then
    let (n, j) := inst o 0 0x1000
    if within j 0x100 0x80 then
      let c := s.ctx (4 * n + (j - 0x100) / 0x20)
      match j % 0x20 with
      | 0x00 => ctxCfgWord c
      | 0x04 => ctxStatWord c
      | 0x08 => word32 c.deadline.toNat 0
      | 0x10 => c.detail.toNat
      | 0x14 => ctxMissWord c
      | _ => 0
    else match j with
      | 0x0 => engStatWord s n
      | 0x4 => engEccWord (s.engine n)
      | 0x8 => engPend s n
      | _ => 0
  else if within o 0x60000 0xC00 then
    let (c, j) := inst o 0x60000 0x100
    if j = 4 then clusterStatWord s c else 0
  else if within o 0x70000 0xF00 then pinCfgWord (s.pin ((o - 0x70000) / 4))
  else if within o 0x71000 0xF00 then pinStatWord (s.pin ((o - 0x71000) / 4))
  else 0

/-- SPD_ (R362 to R370). -/
def readScratchRegs (s : State) (o : Nat) : Nat :=
  if within o 0x1000 0x400 then bankOwnWord s ((o - 0x1000) / 4)
  else if within o 0x2000 0x200 then
    let (g, j) := inst o 0x2000 0x10
    if j = 0 then scratchGroupWord (s.sgroup g) else if j = 4 then (s.sgroup g).en.toNat
    else if j = 8 then scratchStatWord s g else 0
  else match o with
    | 0x00 => spdCtrlWord s.spd
    | 0x04 => spdScrubWord s.spd
    | 0x08 => word32 s.spd.ce 0
    | 0x10 => countWord16 s.spd.ue
    | 0x14 => spdLogWord s.spd
    | 0x18 => spdInjectWord s.spd
    | _ => 0

/-- A subchannel's registers (R410 to R416). -/
def readSubRegs (x : SubCh) (j : Nat) : Nat :=
  if within j 0x40 0x20 then (if j % 0x10 < 12 then chipCountWord x ((j - 0x40) / 0x10) (j % 0x10 / 4) else 0)
  else if within j 0x80 0x50 then word32 x.capture.toNat ((j - 0x80) / 4)
  else match j with
    | 0x00 => subEvtWord x
    | 0x04 => x.en.toNat
    | 0x08 => markWord x
    | 0x0C => word32 x.ce 0
    | 0x14 => countWord16 x.ue
    | 0x18 => subLogWord x
    | 0x1C => field x.logLine 0 29
    | 0x24 => countWord16 x.actHits
    | _ => 0

/-- DDR_ and TRN_ (R404 to R418). -/
def readDramRegs (s : State) (o : Nat) : Nat :=
  if o < 0x80000 then
    let (c, j) := inst o 0 0x10000
    let x := s.chan c
    if within j 0x100 0x200 then readSubRegs (s.sub (2 * c + (j / 0x100 - 1))) (j % 0x100)
    else if trainingMask j ≠ 0 then tget 0 x.training j
    else match j with
      | 0x00 => chanStatWord s c
      | 0x04 => chanCfgWord x
      | 0x10 => x.tim0
      | 0x14 => x.tim1
      | 0x18 => x.tim2
      | 0x20 => chanScrubWord x
      | 0x24 => chanScrubStatWord x
      | 0x28 => chanActWord x
      | _ => 0
  else if within o 0x80000 0x20 then tget 0 s.ddr.wins ((o - 0x80000) / 4)
  else 0

/-- SCM_, ACC_ and LCS_ (R438 to R442). -/
def readSecRegs (s : State) (o : Nat) : Nat :=
  if within o 0x11000 0x400 then
    let (e, j) := inst o 0x11000 0x10
    let x := tget noRights s.sec.acc.entries e
    if j = 0 then accCtlWord x else if j = 4 then x.base else if j = 8 then x.limit else 0
  else match o with
    | 0x00000 => scmStatWord s.sec.scm
    | 0x00004 => b2n s.sec.scm.bypass
    | 0x10000 => accStatWord s.sec.acc
    | 0x10004 => word32 s.sec.acc.addr 0
    | 0x10008 => word32 s.sec.acc.addr 1
    | 0x20000 => lcsStateWord s
    | 0x20004 => word32 s.fuse.unitId.toNat 0
    | 0x20008 => word32 s.fuse.unitId.toNat 1
    | _ => 0

/-- LANE_, RX_, TX_, DROP_, ETH_ and PCI_ (R472, R477, R479 to R487). -/
def readLaneRegs (s : State) (o : Nat) : Nat :=
  if o < 0x140 then
    let (q, j) := inst o 0 0x10
    if j = 0 then quadCfgWord (s.quad q) else if j = 8 then quadStatWord s q else 0
  else if within o 0x10000 0x1400 then
    let (l, j) := inst o 0x10000 0x40
    let x := s.lane l
    match j with
    | 0x00 => laneCfgWord x
    | 0x04 => laneStatWord x
    | 0x08 => word32 x.rxBase 0
    | 0x0C => word32 x.rxBase 1
    | 0x10 => field x.rxFlush 8 8 + field x.rxSize 0 5
    | 0x14 => x.rxWptr
    | 0x18 => x.rxRptr
    | 0x1C => word32 x.txBase 0
    | 0x20 => word32 x.txBase 1
    | 0x24 => field x.txSize 0 5
    | 0x28 => x.txWptr
    | 0x2C => x.txRptr
    | 0x30 => x.dropBytes
    | 0x34 => x.txIdle
    | _ => 0
  else if within o 0x40000 0x8000 then
    let (p, j) := inst o 0x40000 0x1000
    let x := s.port p
    if within j 0x100 0x50 then word32 (tget 0 x.counters ((j - 0x100) / 8)) 0
    else match j with
      | 0x0 => ethCfgWord x
      | 0x4 => ethStatWord x
      | 0x8 => word32 x.mac.toNat 0
      | 0xC => word32 x.mac.toNat 1
      | _ => 0
  else if within o 0x81000 0x400 then msixWord s ((o - 0x81000) / 4)
  else
    let p := s.lan.pci
    match o with
    | 0x80000 => pciStatWord p
    | 0x80004 => field p.pciLanes 0 2
    | 0x80008 => word32 p.aper.toNat 0
    | 0x8000C => word32 p.aper.toNat 1
    | 0x80010 => pciErrWord p
    | 0x82000 => word32 p.pba.toNat 0
    | 0x82004 => word32 p.pba.toNat 1
    | _ => 0

/-- CFG_ (R73 to R75, R81 to R84, R96, R97, R120 to R127, R591 to R595, R648 to R650). -/
def readCfgRegs (s : State) (o : Nat) : Nat :=
  let b := s.fab.scrub
  if within o 0x8100 0x180 then tileStateWord s ((o - 0x8100) / 4)
  else if within o 0x8400 0x180 then portStatWord (s.tile ((o - 0x8400) / 4))
  else if within o 0x8800 0x300 then
    let (n, j) := inst o 0x8800 0x20
    if j = 0 then pllCfgWord (s.pll n) else if j = 4 then pllStatWord (s.pll n)
    else if j < 0x18 then pllOutWord ((s.pll n).output ((j - 8) / 4)) else 0
  else if within o 0x8010 12 then
    tileBits s ((o - 0x8010) / 4) fun x => decide (x.state = .on) || decide (x.state = .draining)
  else if within o 0x8020 12 then tileBits s ((o - 0x8020) / 4) fun x => x.protoErr
  else match o with
    | 0x00 => cfgCtrlWord s.boot
    | 0x04 => cfgStatWord s
    | 0x08 => cfgErrWord s.boot
    | 0x0C => s.boot.errAddr % 2 ^ 32
    | 0x10 => field s.boot.framesWritten 0 21
    | 0x40 => fwStatWord s.boot
    | 0x44 => arbWord s
    | 0x48 => field (windowLeft s) 0 12
    | 0x8004 => tileCmdWord s.fab
    | 0x9000 => bramScrubWord b
    | 0x9004 => bramScrubStatWord b
    | 0x9008 => word32 b.ce 0
    | 0x9010 => countWord16 b.ue
    | 0x9014 => bramLogWord b
    | 0x9018 => b.logSyn.toNat
    | 0x901C => b2n b.dbeHold
    | 0x9020 => bramInjectWord b
    | 0x9024 => bramPortWord b
    | _ => 0

/-- A mailbox of BAR0 (R602). -/
def readMbxRegs (s : State) (o : Nat) : Nat :=
  if o < 0x10000 then mbxRead s (o / 0x1000) (o % 0x1000) else 0

/-- R685, R686: the register at `off` as its fields stand; an offset that no register occupies reads zero. HI registers of
latched pairs are read by `regRead`. -/
def readReg (s : State) (off : Nat) : Nat :=
  let o := off % 2 ^ 20
  match off / 2 ^ 20 with
  | 0x0 => readDevRegs s o
  | 0x1 => readMbxRegs s o
  | 0x2 => readClkRegs s o
  | 0x3 => readTimRegs s o
  | 0x4 => readNocRegs s o
  | 0x9 => readQueueRegs s o
  | 0xA => readSpanRegs s o
  | 0xB => readEngRegs s o
  | 0xC => readScratchRegs s o
  | 0xD => readDramRegs s o
  | 0xE => readSecRegs s o
  | 0xF => readLaneRegs s o
  | 0x10 => readCfgRegs s o
  | _ => 0

/-- R687: a 32-bit read from source port `port`: a LO register latches its HI for that port, and a HI register returns
what is latched. -/
def regRead (port off : Nat) (s : State) : Nat × State :=
  match pairAt s off with
  | some (hi, _) =>
    (readReg s off, { s with dev := { s.dev with
      hiLatch := tset none s.dev.hiLatch (latchKey port off) (some hi) } })
  | none =>
    match if 4 ≤ off then pairAt s (off - 4) else none with
    | some (_, dflt) => (latched s port (off - 4) dflt, s)
    | none => (readReg s off, s)

/-- R11: a register access of `n` bytes that is aligned. -/
def regAccess (off n : Nat) : Bool := (n = 4 || n = 8) && off % n = 0 && off + n ≤ 2 ^ 26

/-- R11, R687: an aligned read of 4 or 8 bytes, the lower word first. -/
def regReadBytes (port off n : Nat) (s : State) : List Byte × State :=
  let (a, s) := regRead port off s
  if n = 8 then
    let (b, s) := regRead port (off + 4) s
    (leBytes 4 a ++ leBytes 4 b, s)
  else (leBytes 4 a, s)

/-- R687: a read of a LO register is performed and answered. -/
def execLatchedLoRead (src : Initiator) (tag off : Nat) (s : State) : Host.Outcome State Fault Refusal :=
  effect (when ((pairAt s off).isSome) fun s =>
    let (d, s) := regReadBytes (sourcePort src) off 4 s
    answer ⟨src, tag, rOk, 0, d⟩ s) s

end Sys2Proof.Machine
end

