-- ==== Sys2Proof/Machine/RegisterMap.lean ====
section
/-! DEFINITION. The register map written (chapters 1 and 21): every register of BAR0 by its offset and the access types of
its fields (R12). `fw` says that Sorrel writes, so that FW fields take effect. -/

namespace Sys2Proof.Machine

/-! ### FW fields (R12, R599, R600) -/

/-- The FW bits of the DRAM region. -/
def fwDram (o : Nat) : Nat :=
  if o < 0x80000 then
    let j := o % 0x10000
    if j = 0x04 then 0x83010100 else if j = 0x10 then 0xFFFFFFFF else if j = 0x14 then 0x3FFF0FFF
    else if j = 0x18 then 0xFFFFFFFF else trainingMask j
  else if within o 0x80000 0x20 then 0x8307003F else 0

/-- The bits of the register at `off` that are FW. -/
def fwMask (off : Nat) : Nat :=
  let o := off % 2 ^ 20
  match off / 2 ^ 20 with
  | 0x0 => if within o 0x5000 0x600 then 0x40000000 else 0
  | 0x2 => if o = 0 then 0xF7 else if o = 0x1000 then 1 else 0
  | 0x3 => if o = 0 then 3 else if o = 0x28 ∨ o = 0x2C then 0xFFFFFFFF else if o = 0x30 then 0x1F1F0F00
    else if o = 0x34 ∨ o = 0x38 then 0xFFFFFFFF else if o = 0x3C then 0x80FF00FF else 0
  | 0x4 => if o = 4 then 0xC0000000
    else if within o 0x10000 0x7800 && o % 0x80 < 0x78 then 0x3F3F3F3F else 0
  | 0x9 => if o = 0x10 then 0xFF000000 else if o = 0x18 then 0xFFFFF000 else if o = 0x14 ∨ o = 0x1C then 0xFFFFFFFF
    else if o = 0x20 then 0x073FFFFF else 0
  | 0xB => if within o 0x70000 0xF00 then 0x187F0000 else 0
  | 0xC => if within o 0x1000 0x400 then 0x010F007F else 0
  | 0xD => fwDram o
  | 0xE => if o = 4 then 1 else if within o 0x11000 0x400 then
      (if o % 16 = 0 then 0xF77F7F00 else if o % 16 < 12 then 0x1FFFFFFF else 0) else 0
  | 0xF => if o = 0x80004 then 3 else 0
  | _ => 0

/-! ### The map, region by region; `o` is an offset within the region, `v` the 32 bits written -/

/-- R12: the bits of `x` that a W1C write of `v` leaves. -/
def w1c (w v : Nat) (x : BitVec w) : BitVec w := x &&& ~~~ BitVec.ofNat w v

/-- Keep `b` unless bit `i` of a W1C write clears it. -/
def keepUnless (v i : Nat) (b : Bool) : Bool := b && !bit v i

/-- R630, R12. -/
def writeRouteReg (fw : Bool) (n v : Nat) (s : State) : State :=
  s.modRoute n fun r =>
    { msixEn := bit v 31, sorrelEn := if fw then bit v 30 else r.sorrelEn, lineEn := bit v 29, line := bits v 20 4
      vector := bits v 8 6 }

/-- DEV_ and EVT_. -/
def writeDevRegs (fw : Bool) (o v : Nat) (s : State) : State :=
  if within o 0x4000 0x30 then
    { s with evt := { s.evt with pend := w1c 384 (v * 2 ^ (8 * (o - 0x4000))) s.evt.pend } }
  else if within o 0x5000 0x600 then writeRouteReg fw ((o - 0x5000) / 4) v s
  else if within o 0x6100 0x100 then
    let (k, j) := inst o 0x6100 0x10
    if j < 12 then
      let old := tget (BitVec.allOnes 96) s.evt.lineEng k
      let m := BitVec.ofNat 96 (0xFFFFFFFF * 2 ^ (8 * j))
      let new := (old &&& ~~~ m) ||| BitVec.ofNat 96 (v * 2 ^ (8 * j))
      { s with evt := { s.evt with lineEng := tset (BitVec.allOnes 96) s.evt.lineEng k new } }
    else s
  else match o with
    | 0x0C => { s with dev := { s.dev with conflict := keepUnless v 31 s.dev.conflict } }
    | 0x18 => { s with dev := { s.dev with lost := w1c 32 v s.dev.lost } }
    | 0x2C => { s with dev := { s.dev with tempTrip := keepUnless v 31 s.dev.tempTrip } }
    | 0x6008 => ackVector (bits v 0 6) s
    | 0x6400 => userEvent (bits v 0 9) s
    | _ => s

/-- CLK_ and CUR_. -/
def writeClkRegs (fw : Bool) (o v : Nat) (s : State) : State :=
  if within o 0x24 0xC then clkTrimDivWrite ((o - 0x20) / 4) (bits v 0 10) s
  else if within o 0x1010 0x30 then
    let (sp, j) := inst o 0x1010 0x10
    if j = 4 ∧ bit v 31 then s.modSupply sp fun u => { u with peak := booked s sp } else s
  else match o with
    | 0x00 => if fw then
        applyClkCtrl (bits v 4 1) (bits v 0 3) (bits v 5 1) (bits v 6 1) (bits v 7 1) s else s
    | 0x04 => { s with clk := { s.clk with switched := keepUnless v 30 s.clk.switched, trip := keepUnless v 29 s.clk.trip } }
    | 0x1000 => if fw then { s with gov := { s.gov with grantEn := bit v 0 } } else s
    | 0x1004 => { s with gov := { s.gov with
        longWait := w1c 3 (bits v 8 3) s.gov.longWait, reject := keepUnless v 0 s.gov.reject } }
    | 0x1008 => { s with gov := { s.gov with waitWarn := bits v 0 16 } }
    | _ => s

/-- R508: TIM_CTRL: SNAP, and from Sorrel SERVO_EN and FORCE_HOLD. -/
def writeTimCtrl (fw : Bool) (v : Nat) (s : State) : State :=
  let s := if bit v 31 then snap s else s
  if !fw then s else
  let s := if bit v 0 = s.tim.servoEn then s else if bit v 0 then servoEnSet s else servoEnClear s
  if bit v 1 = s.tim.forceHold then s else if bit v 1 then forceHoldSet s else forceHoldClear s

/-- R510: a write of TIM_OFFSET_HI delivers the offset. -/
def writeOffsetHi (v : Nat) (s : State) : State :=
  servoOffset (sgn 64 (s.tim.offsetLo + v * 2 ^ 32)) { s with tim := { s.tim with offsetHi := v } }

/-- TIM_. -/
def writeTimRegs (fw : Bool) (o v : Nat) (s : State) : State :=
  let set (t : Tim) : State := if fw then { s with tim := t } else s
  let t := s.tim
  match o with
  | 0x00 => writeTimCtrl fw v s
  | 0x04 => { s with tim := { t with
      stepped := keepUnless v 27 t.stepped, holdExpired := keepUnless v 26 t.holdExpired
      offsetDrop := keepUnless v 25 t.offsetDrop, tsOvf := keepUnless v 24 t.tsOvf, tsBad := keepUnless v 23 t.tsBad
      tcDrop := keepUnless v 22 t.tcDrop } }
  | 0x28 => set { t with offsetLo := v }
  | 0x2C => if fw then writeOffsetHi v s else s
  | 0x30 => set { t with kpExp := sgn 5 (bits v 24 5), kiExp := sgn 5 (bits v 16 5), lockCount := bits v 8 4 }
  | 0x34 => set { t with stepThresh := bits v 16 16, lockBound := bits v 0 16 }
  | 0x38 => set { t with holdLimit := bits v 16 16, timeout := bits v 0 16 }
  | 0x3C => set { t with tcAll := bit v 31, tcDomain := bits v 16 8, tcPorts := bits v 0 8 }
  | _ => s

/-- R344: four route entries. -/
def writeRouteWord (fw : Bool) (p : Nat) (e : Bool) (i v : Nat) (s : State) : State :=
  forEach (List.range 4) (fun k a => writeRoute fw p e (4 * i + k) (bits v (8 * k) 8) a) s

/-- R338: NOC_EPOCH; RETIRE acts before SWITCH (log 117). -/
def writeEpoch (fw : Bool) (v : Nat) (s : State) : State :=
  let s := { s with noc := { s.noc with tableLive := keepUnless v 3 s.noc.tableLive } }
  let s := if fw ∧ bit v 30 then epochRetire s else s
  if fw ∧ bit v 31 then epochSwitch [] s else s

/-- NOC_; `o` counts from 0x0040_0000. -/
def writeNocRegs (fw : Bool) (o v : Nat) (s : State) : State :=
  if within o 0x1000 0xF00 then
    let (p, j) := inst o 0x1000 0x20
    if j = 0 then s.modPier p fun x =>
      { x with misroute := keepUnless v 24 x.misroute, dropped := keepUnless v 23 x.dropped } else s
  else if within o 0x2000 0x200 then
    let (g, j) := inst o 0x2000 0x10
    if j = 0 then s.modNocGroup g fun x => { x with causes := w1c 8 (bits v 0 8) x.causes }
    else if j = 4 then s.modNocGroup g fun x => { x with en := BitVec.ofNat 8 v } else s
  else if within o 0x10000 0x7800 then
    let (p, j) := inst o 0x10000 0x100
    if j % 0x80 < 0x78 then writeRouteWord fw p (decide (0x80 ≤ j)) (j % 0x80 / 4) v s else s
  else if within o 0x30000 0x1000 then
    let (m, j) := inst o 0x30000 0x100
    if j = 0 then writeMonitor m (bit v 31) (bits v 0 10) s else s
  else match o with
    | 0x0 =>
      let s := { s with noc := { s.noc with cnt32 := bit v 0 } }
      if bit v 1 then clearStats s else s
    | 0x4 => writeEpoch fw v s
    | _ => s

/-- QDB_ (R274): the lower register latches, the upper one starts the operation once a place is free (R277). -/
def writeDoorbellRegs (o v : Nat) (s : State) : State :=
  let q := o / 16
  match o % 16 with
  | 0x0 => { s with qm := { s.qm with pushLo := tset 0 s.qm.pushLo q (bits v 5 27 * 2 ^ 5) } }
  | 0x4 => if mayRing s q then ringBell true q v s else s
  | 0x8 => { s with qm := { s.qm with popLo := tset 0 s.qm.popLo q (bits v 6 26 * 2 ^ 6) } }
  | 0xC => if mayRing s q then ringBell false q v s else s
  | _ => s

/-- QM_ and QSTAT_. -/
def writeQueueRegs (fw : Bool) (o v : Nat) (s : State) : State :=
  let set (x : Qm) : State := if fw then settle { s with qm := x } else s
  let x := s.qm
  if 0x80000 ≤ o then
    if o % 8 = 4 then s.modQueue ((o - 0x80000) / 8) fun y =>
      { y with stale := keepUnless v 28 y.stale, fullSeen := keepUnless v 27 y.fullSeen
               underrun := keepUnless v 26 y.underrun } else s
  else if within o 0x1000 0x2000 then
    let (g, j) := inst o 0x1000 0x100
    match j with
    | 0x0 => s.modQgroup g fun y => { y with causes := w1c 7 (bits v 0 7) y.causes }
    | 0x4 => s.modQgroup g fun y => { y with en := BitVec.ofNat 7 v }
    | 0x8 => if bit v 0 then clearGroupCounts g s else s
    | _ => s
  else match o with
    | 0x00 => pumpQueues (writeStaleEn (bit v 0) { s with qm := { x with emptyZero := bit v 2, spillGlobal := bit v 1 } })
    | 0x08 => pumpQueues { s with qm := { x with spillHigh := bits v 16 14, spillLow := bits v 0 14 } }
    | 0x10 => set { x with mapBase := word32 x.mapBase 1 * 2 ^ 32 + bits v 24 8 * 2 ^ 24 }
    | 0x14 => set { x with mapBase := v * 2 ^ 32 + word32 x.mapBase 0 }
    | 0x18 => set { x with storeBase := word32 x.storeBase 1 * 2 ^ 32 + bits v 12 20 * 2 ^ 12 }
    | 0x1C => set { x with storeBase := v * 2 ^ 32 + word32 x.storeBase 0 }
    | 0x20 => set { x with mapCh := bits v 24 3, vpages := bits v 0 22 }
    | _ => s

/-- SPN_. -/
def writeSpanRegs (o v : Nat) (s : State) : State :=
  if within o 0x1000 0x400 then
    let (i, j) := inst o 0x1000 0x10
    if j = 0 then evaluate i (s.modSlot i fun x => { x with evictIdle := bit v 16, idleTime := bits v 0 16 })
    else if j = 4 then s.modSlot i fun x =>
      { x with evicted := keepUnless v 30 x.evicted, stateLost := keepUnless v 29 x.stateLost
               aborted := keepUnless v 28 x.aborted, busyRefused := keepUnless v 27 x.busyRefused
               loaded := keepUnless v 26 x.loaded }
    else s
  else if o = 0 then evaluateAll { s with spn := { s.spn with trimEvict := bit v 1, pagerEn := bit v 0 } }
  else s

/-- R213, R196: ENG_STAT. -/
def writeEngStat (n v : Nat) (s : State) : State :=
  s.modEngine n fun e =>
    { e with timeInvalid := if s.dev.ready.timeValid then keepUnless v 31 e.timeInvalid else e.timeInvalid
             postedErr := keepUnless v 30 e.postedErr }

/-- R215: ENG_EVT_PEND. -/
def writeEngPend (n v : Nat) (s : State) : State :=
  forEach (List.range 16) (fun i a =>
    if bit v i then { a with eng := { a.eng with evtPend := tmod 0 a.eng.evtPend i (w1c 96 (2 ^ n)) } } else a) s

/-- R216, R197: CTX_CFG; a context that waits on a tick faults when NEED_TIME is set while TIME_INVALID is 1. -/
def writeCtxCfg (n k v : Nat) (s : State) : State :=
  let s := s.modCtx (4 * n + k) fun c => { c with missFault := bit v 31, needTime := bit v 30, dlSlack := bits v 0 16 }
  let c := s.ctx (4 * n + k)
  if c.needTime ∧ c.state = .waitTick ∧ (s.engine n).timeInvalid ∧ s.dev.mode ≠ .hold
  then reapStops (faultCtx n k 0x0B 0 s) else s

/-- An engine's registers. -/
def writeEngineRegs (n j v : Nat) (s : State) : State :=
  if within j 0x100 0x80 then
    let k := (j - 0x100) / 0x20
    match j % 0x20 with
    | 0x00 => writeCtxCfg n k v s
    | 0x04 => s.modCtx (4 * n + k) fun c => { c with dlMiss := keepUnless v 31 c.dlMiss }
    | _ => s
  else match j with
    | 0x0 => writeEngStat n v s
    | 0x4 =>
      let s := if bit v 2 then clearEngCounts n s else s
      s.modEngine n fun e => { e with imemUe := keepUnless v 1 e.imemUe, dmemUe := keepUnless v 0 e.dmemUe }
    | 0x8 => writeEngPend n v s
    | _ => s

/-- ENG_ and CTX_. -/
def writeEngRegs (fw : Bool) (o v : Nat) (s : State) : State :=
  if o < 0x60000 then writeEngineRegs (o / 0x1000) (o % 0x1000) v s
  else if within o 0x60000 0xC00 then
    let (c, j) := inst o 0x60000 0x100
    if j = 0 then (if bit v 0 then clusterEnable c s else clusterDisable c s)
    else if j = 4 then s.modCluster c fun x => { x with busyRefused := keepUnless v 9 x.busyRefused } else s
  else if within o 0x70000 0xF00 then
    if fw then s.modPin ((o - 0x70000) / 4) fun x =>
      { x with ovfFault := bit v 28, lateAtOnce := bit v 27, owner := bits v 16 7 } else s
  else if within o 0x71000 0xF00 then s.modPin ((o - 0x71000) / 4) fun x =>
    { x with late := keepUnless v 31 x.late, ovf := keepUnless v 30 x.ovf }
  else s

/-- R367: SPD_BANK_OWN. -/
def writeBankOwn (fw : Bool) (b v : Nat) (s : State) : State :=
  let s := s.modBank b fun x => { x with refused := keepUnless v 29 x.refused }
  if fw then ownerWrite b (bits v 16 4) (bits v 0 7) (bit v 24) false s else s

/-- SPD_. -/
def writeScratchRegs (fw : Bool) (o v : Nat) (s : State) : State :=
  if within o 0x1000 0x400 then writeBankOwn fw ((o - 0x1000) / 4) v s
  else if within o 0x2000 0x200 then
    let (g, j) := inst o 0x2000 0x10
    if j = 0 then s.modSgroup g fun x => { x with causes := w1c 5 (bits v 0 5) x.causes }
    else if j = 4 then s.modSgroup g fun x => { x with en := BitVec.ofNat 5 v } else s
  else match o with
    | 0x00 =>
      let s := if !bit v 8 && s.spd.waitGrant then withdraw kScrub 1 { s with spd := { s.spd with waitGrant := false } } else s
      let s := settle { s with spd := { s.spd with scrubEn := bit v 8, gap := bits v 0 8 } }
      if bit v 31 then clearSpdCounts s else s
    | 0x04 => { s with spd := { s.spd with skipped := keepUnless v 5 s.spd.skipped } }
    | 0x14 => { s with spd := { s.spd with logValid := keepUnless v 31 s.spd.logValid } }
    | 0x18 => { s with spd := { s.spd with injArm := bit v 31, injBank := bits v 4 8, injFlip := BitVec.ofNat 4 v } }
    | _ => s

/-- A subchannel's registers. -/
def writeSubRegs (u j v : Nat) (s : State) : State :=
  match j with
  | 0x00 => s.modSub u fun x => { x with causes := w1c 5 (bits v 0 5) x.causes }
  | 0x04 => s.modSub u fun x => { x with en := BitVec.ofNat 5 v }
  | 0x08 => writeMark u v s
  | 0x18 => s.modSub u fun x => { x with logValid := keepUnless v 31 x.logValid }
  | _ => s

/-- A channel's registers. -/
def writeChanRegs (fw : Bool) (c j v : Nat) (s : State) : State :=
  let set (g : Chan → Chan) : State := if fw then settle (s.modChan c g) else s
  if within j 0x100 0x200 then writeSubRegs (2 * c + (j / 0x100 - 1)) (j % 0x100) v s
  else if trainingMask j ≠ 0 then set fun x => { x with training := tset 0 x.training j (v &&& trainingMask j) }
  else match j with
    | 0x04 => set fun x =>
      { x with populated := bit v 31, ranks := bits v 24 2, rdimm := bit v 16, density := bits v 8 1 }
    | 0x10 => set fun x => { x with tim0 := v }
    | 0x14 => set fun x => { x with tim1 := v &&& 0x3FFF0FFF }
    | 0x18 => set fun x => { x with tim2 := v }
    | 0x20 =>
      let s := if !bit v 8 && (s.chan c).waitGrant then withdraw kScrub (2 + c) (s.modChan c fun x => { x with waitGrant := false })
        else s
      let s := settle (s.modChan c fun x =>
        { x with autoMark := bit v 24, markThresh := bits v 16 8, scrubEn := bit v 8, gap := bits v 0 8 })
      if bit v 31 then clearChanCounts c s else s
    | 0x24 => s.modChan c fun x => { x with skipped := keepUnless v 1 x.skipped }
    | 0x28 => s.modChan c fun x => { x with rfmEn := bit v 16, actThresh := max 512 (bits v 0 16) }
    | _ => s

/-- DDR_ and TRN_. -/
def writeDramRegs (fw : Bool) (o v : Nat) (s : State) : State :=
  if o < 0x80000 then writeChanRegs fw (o / 0x10000) (o % 0x10000) v s
  else if fw && within o 0x80000 0x20 then
    settle { s with ddr := { s.ddr with wins := tset 0 s.ddr.wins ((o - 0x80000) / 4) (v &&& 0x8307003F) } }
  else s

/-- R424, R426, R441: a register of a rights entry, from Sorrel; a locked entry does not change until a reset. -/
def writeEntry (e j v : Nat) (s : State) : State :=
  let t := s.sec.acc.entries
  let x := tget noRights t e
  if x.lock ∨ 12 ≤ j then s
  else setTable (tset noRights t e (if j = 0 then rightsOf v x.base x.limit
    else if j = 4 then { x with base := bits v 0 29 } else { x with limit := bits v 0 29 })) s

/-- SCM_, ACC_ and LCS_. -/
def writeSecRegs (fw : Bool) (o v : Nat) (s : State) : State :=
  if within o 0x11000 0x400 then (if fw then writeEntry ((o - 0x11000) / 16) (o % 16) v s else s)
  else match o with
    | 0x00004 => if fw then bypassWrite (bit v 0) s else s
    | 0x10000 => { s with sec := { s.sec with acc := { s.sec.acc with viol := keepUnless v 31 s.sec.acc.viol } } }
    | _ => s

/-- R480: LANE_QCMD. -/
def quadCommand (q v : Nat) (s : State) : State :=
  match bits v 0 2 with
  | 0 => quadDisable q s
  | 1 => quadEnable q s
  | 2 => quadSleep q s
  | _ => quadWake q s

/-- R484, R482: a base or size register of a stream; while it runs, the write is discarded with PTR_ERR. -/
def writeRing (l : Nat) (tx : Bool) (g : Lane → Lane) (s : State) : State :=
  if (if tx then (s.lane l).txEn else (s.lane l).rxEn) then pointerError l s else s.modLane l g

/-- A lane's registers. -/
def writeLaneBlock (l j v : Nat) (s : State) : State :=
  match j with
  | 0x00 => writeLaneCfg l v s
  | 0x04 => s.modLane l fun x =>
    { x with streamErr := keepUnless v 31 x.streamErr, overrun := keepUnless v 27 x.overrun
             ptrErr := keepUnless v 26 x.ptrErr, syncLost := keepUnless v 25 x.syncLost }
  | 0x08 => writeRing l false (fun x => { x with rxBase := word32 x.rxBase 1 * 2 ^ 32 + v }) s
  | 0x0C => writeRing l false (fun x => { x with rxBase := v * 2 ^ 32 + word32 x.rxBase 0 }) s
  | 0x10 => writeRing l false (fun x => { x with rxSize := bits v 0 5, rxFlush := bits v 8 8 }) s
  | 0x18 => writeRxRptr l v s
  | 0x1C => writeRing l true (fun x => { x with txBase := word32 x.txBase 1 * 2 ^ 32 + v }) s
  | 0x20 => writeRing l true (fun x => { x with txBase := v * 2 ^ 32 + word32 x.txBase 0 }) s
  | 0x24 => writeRing l true (fun x => { x with txSize := bits v 0 5 }) s
  | 0x28 => writeTxWptr l v s
  | 0x34 => s.modLane l fun x => { x with txIdle := v }
  | _ => s

/-- An Ethernet port's registers. -/
def writePortBlock (p j v : Nat) (s : State) : State :=
  match j with
  | 0x0 => writeEthCfg p v s
  | 0x4 => s.modPort p fun x => { x with linkLost := keepUnless v 27 x.linkLost, cfgErr := keepUnless v 26 x.cfgErr }
  | 0x8 => s.modPort p fun x => { x with mac := BitVec.ofNat 48 (word32 x.mac.toNat 1 * 2 ^ 32 + v) }
  | 0xC => s.modPort p fun x => { x with mac := BitVec.ofNat 48 (v * 2 ^ 32 + word32 x.mac.toNat 0) }
  | _ => s

/-- R479: from Sorrel a quad in PCIE mode may be written too. -/
def writeQuadReg (fw : Bool) (q v : Nat) (s : State) : State :=
  if fw ∧ isPcie s q ∧ (s.quad q).state = .off then
    s.modQuad q fun y => { y with qmode := bits v 25 3, keepInTrim := bit v 24, baud := bits v 0 22 }
  else writeQuadCfg q v s

/-- PCI_. -/
def writePciRegs (fw : Bool) (o v : Nat) (s : State) : State :=
  let p := s.lan.pci
  let set (x : Pci) : State := { s with lan := { s.lan with pci := x } }
  match o with
  | 0x80004 => if fw then set { p with pciLanes := bits v 0 2 } else s
  | 0x80008 => set { p with aper := BitVec.ofNat 64 (word32 p.aper.toNat 1 * 2 ^ 32 + bits v 27 5 * 2 ^ 27) }
  | 0x8000C => set { p with aper := BitVec.ofNat 64 (v * 2 ^ 32 + word32 p.aper.toNat 0) }
  | 0x80010 => set { p with hostWrErr := keepUnless v 31 p.hostWrErr }
  | _ => s

/-- LANE_, RX_, TX_, ETH_ and PCI_. -/
def writeLaneRegs (fw : Bool) (o v : Nat) (s : State) : State :=
  if o < 0x140 then
    let (q, j) := inst o 0 0x10
    match j with
    | 0x0 => writeQuadReg fw q v s
    | 0x4 => quadCommand q v s
    | 0x8 => s.modQuad q fun x => { x with refused := keepUnless v 11 x.refused, busyRefused := keepUnless v 10 x.busyRefused }
    | _ => s
  else if within o 0x10000 0x1400 then writeLaneBlock ((o - 0x10000) / 0x40) (o % 0x40) v s
  else if within o 0x40000 0x8000 then writePortBlock ((o - 0x40000) / 0x1000) (o % 0x1000) v s
  else if within o 0x81000 0x400 then setMsixWord ((o - 0x81000) / 4) v s
  else writePciRegs fw o v s

/-- R73: CFG_FPLL_CFG: the fields, then APPLY, then PLL_EN (log 118). -/
def writePllCfg (n v : Nat) (s : State) : State :=
  let s := s.modPll n fun x => { x with m := bits v 16 9, d := bits v 8 3 }
  let s := if bit v 31 then pllApply n s else s
  if bit v 0 then pllEnable n s else pllDisable n s

/-- A fabric PLL's registers. -/
def writePllRegs (n j v : Nat) (s : State) : State :=
  if j = 0 then writePllCfg n v s
  else if j = 4 then s.modPll n fun x => { x with rangeErr := keepUnless v 2 x.rangeErr, lost := keepUnless v 1 x.lost }
  else if j < 0x18 then s.modPll n fun x =>
    x.setOutput ((j - 8) / 4) { en := bit v 31, phase := bits v 16 11, div := bits v 0 9 }
  else s

/-- R82: CFG_TILE_CMD_STAT. -/
def writeTileCmdStat (v : Nat) (s : State) : State :=
  { s with fab := { s.fab with
      badTile := keepUnless v 1 s.fab.badTile, spanOwnedErr := keepUnless v 0 s.fab.spanOwnedErr } }

/-- R591, R592, R648: CFG_CTRL, CFG_STAT and CFG_FW_STAT. -/
def writeCfgCtrl (v : Nat) (s : State) : State :=
  let s := { s with boot := { s.boot with holdSafe := bit v 2, giturV1 := bit v 1 } }
  if bit v 0 then abortLoadNow s else s
def writeCfgStat (v : Nat) (s : State) : State :=
  { s with boot := { s.boot with fellBack := keepUnless v 23 s.boot.fellBack } }
def writeFwStat (v : Nat) (s : State) : State :=
  { s with boot := { s.boot with
      fwFellBack := keepUnless v 29 s.boot.fwFellBack, altBoot := keepUnless v 28 s.boot.altBoot } }

/-- CFG_. A SCRUB_EN that clears while a burst waits for its credit withdraws the request (R119). -/
def writeCfgRegs (o v : Nat) (s : State) : State :=
  if within o 0x8100 0x180 then s.modTile ((o - 0x8100) / 4) fun x => { x with busyRefused := keepUnless v 8 x.busyRefused }
  else if within o 0x8400 0x180 then s.modTile ((o - 0x8400) / 4) fun x =>
    { x with protoErr := keepUnless v 24 x.protoErr, errKind := if bit v 24 then 0 else x.errKind }
  else if within o 0x8800 0x300 then writePllRegs ((o - 0x8800) / 0x20) (o % 0x20) v s
  else match o with
    | 0x00 => writeCfgCtrl v s
    | 0x04 => writeCfgStat v s
    | 0x40 => writeFwStat v s
    | 0x8000 => tileCommand (bits v 0 7) (if bit v 8 then tileEnable else tileDisable) s
    | 0x8004 => writeTileCmdStat v s
    | 0x9000 =>
      let s := if !bit v 8 && s.fab.scrub.waitGrant then withdraw kScrub 0 (modScrub (fun x => { x with waitGrant := false }) s) else s
      settle (modScrub (fun x => { x with en := bit v 8, gap := bits v 0 8 }) s)
    | 0x9004 => modScrub (fun x => { x with skipped := keepUnless v 8 x.skipped }) s
    | 0x9014 => modScrub (fun x =>
      { x with logValid := keepUnless v 31 x.logValid, logSyn := if bit v 31 then 0 else x.logSyn }) s
    | 0x901C =>
      let s := modScrub (fun x => { x with dbeHold := bit v 0 }) s
      if bit v 1 then clearBramCounts s else s
    | 0x9020 => modScrub (fun x =>
      { x with injArm := bit v 31, injTile := bits v 16 7, injMem := bits v 8 6, injFlip := BitVec.ofNat 8 v }) s
    | 0x9024 => modScrub (fun x =>
      { x with wwCollide := keepUnless v 31 x.wwCollide, pwOverrun := keepUnless v 30 x.pwOverrun }) s
    | _ => s

/-- A mailbox of BAR0. -/
def writeMbxRegs (o v : Nat) (s : State) : State := if o < 0x10000 then mbxWrite (o / 0x1000) (o % 0x1000) v s else s

/-- R12, R685, R686: the 32-bit word `v` is written at `off`; an offset that no register occupies changes nothing. -/
def regPut (fw : Bool) (off v : Nat) (s : State) : State :=
  let o := off % 2 ^ 20
  match off / 2 ^ 20 with
  | 0x0 => writeDevRegs fw o v s
  | 0x1 => writeMbxRegs o v s
  | 0x2 => writeClkRegs fw o v s
  | 0x3 => writeTimRegs fw o v s
  | 0x4 => writeNocRegs fw o v s
  | 0x8 => writeDoorbellRegs o v s
  | 0x9 => writeQueueRegs fw o v s
  | 0xA => writeSpanRegs o v s
  | 0xB => writeEngRegs fw o v s
  | 0xC => writeScratchRegs fw o v s
  | 0xD => writeDramRegs fw o v s
  | 0xE => writeSecRegs fw o v s
  | 0xF => writeLaneRegs fw o v s
  | 0x10 => writeCfgRegs o v s
  | _ => s

/-! ### The rules of a write (R11 to R14, R600) -/

/-- R600: CONFLICT, and the offset of the first write that sets it; event 11. -/
def conflict (off : Nat) (s : State) : State :=
  let d := s.dev
  raiseEvent evConflict { s with dev := { d with
    conflict := true, conflictOffset := if d.conflict then d.conflictOffset else off } }

/-- R600: the bits a host write carries for FW fields differ from the fields. -/
def fwDiffers (s : State) (off v : Nat) : Bool := (v ^^^ readReg s off) &&& fwMask off ≠ 0

/-- R600, R12: a host's 32-bit write. -/
def hostPut (off v : Nat) (s : State) : State :=
  regPut false off v (if fwDiffers s off v then conflict off s else s)

/-- A 32-bit write by `m`. `same` says that Sorrel writes the same register in the same cycle (R14): the host's is
discarded. -/
def putBy (m : Master) (same : Bool) (off v : Nat) (s : State) : State :=
  match m with
  | .sorrel => regPut true off v s
  | .host _ _ => if same then conflict off s else hostPut off v s

/-- R11: an aligned write of 4 or 8 bytes, the lower word first. -/
def regWrite (m : Master) (same : Bool) (off size val : Nat) (s : State) : State :=
  let s := putBy m same off (word32 val 0) s
  if size = 8 then putBy m same (off + 4) (word32 val 1) s else s

/-- R11: a write of another size or alignment changes nothing, and is answered DECODE. Sorrel writes while its firmware
runs. -/
def execRegisterWrite (m : Master) (off size val : Nat) (same : Bool) (s : State) : Host.Outcome State Fault Refusal :=
  effect (when s.dev.powered fun s =>
    match m with
    | .sorrel => when (regAccess off size && s.sor.running) (regWrite m same off size val) s
    | .host src tag =>
      if regAccess off size then answer ⟨src, tag, rOk, 0, []⟩ (regWrite m same off size val s)
      else answer ⟨src, tag, rDecode, 0, []⟩ s) s

end Sys2Proof.Machine
end

