-- ==== Sys2Proof/Machine/Delivery.lean ====
section
/-! DEFINITION. A packet at its destination port (R318, R326, R327): the answer goes to the owner, and the request waits at its
target, is performed by the register bus, or is answered DECODE (R11, R311). -/

namespace Sys2Proof.Machine

/-- R311, R249: the opcodes that the target at a port performs; the register bus also judges the size and place of an
access (R11, log 159). -/
def performs (id : Nat) (x : Packet) : Bool :=
  let reg := id = 860
  let scratch := decide (768 ≤ id) && (id % 8 = 2 || id % 8 = 3) && (decide (id / 8 < 104) || (108 ≤ id / 8 && id / 8 < 116))
  let dram := id / 8 = 104 || id / 8 = 105 || id / 8 = 116 || id / 8 = 117
  if x.opcode = 1 ∨ x.opcode = 2 then
    (reg && regAccess x.addr.toNat (x.size + 1)) || scratch || dram || fabricPort id
  else if x.opcode = 4 ∨ x.opcode = 5 then scratch
  else if x.opcode = 8 ∨ x.opcode = 9 then id = queuePort 0 || id = queuePort 1
  else (x.opcode = 0x10 || x.opcode = 0x11) && reg && regAccess x.addr.toNat (x.size + 1)

/-- R265, R310: the bytes that a response carries. -/
def carriedBytes (s : State) (id : Nat) (x : Packet) : List Byte :=
  let pop := clusterPort id && (tget none (s.engine (tagEngine id x.tag)).reqs (x.tag % 32)).any fun r =>
    match r.kind with | .pop .. => true | _ => false
  if pop then unitBytes x.data 0 32 else unitBytes x.data x.addr.toNat (x.size + 1)

/-- R11, R319: the register bus performs a request at once and answers it. -/
def registerBus (x : Packet) (s : State) : State :=
  let src : Initiator := ⟨x.srcClass, x.srcIndex⟩
  let n := x.size + 1
  if x.opcode = 1 ∨ x.opcode = 0x11 then
    let (d, s) := regReadBytes (portId x.srcPier x.srcPort) x.addr.toNat n s
    answer ⟨src, x.tag, rOk, 0, d⟩ s
  else
    let v := ofLe (unitBytes x.data x.addr.toNat n)
    answer ⟨src, x.tag, rOk, 0, []⟩
      (regWrite (if src.cls = 1 then .sorrel else .host src x.tag) false x.addr.toNat n v s)

/-- What the port does with a packet it takes: its owner has its answer, or the request waits to be answered (R94), and one
that its target does not perform is answered DECODE. -/
def received (id : Nat) (x : Packet) (s : State) : State :=
  if x.vc = 1 then handOver id x.tag x.resp x.qout (carriedBytes s id x) s
  else
    let s := { s with noc := { s.noc with waiting := s.noc.waiting ++ [(x, s.noc.cycle)] } }
    let src : Initiator := ⟨x.srcClass, x.srcIndex⟩
    if !performs id x then answer ⟨src, x.tag, rDecode, 0, []⟩ s
    else if id = 860 then registerBus x s
    else if fabricPort id then
      portChanged (id / 8) (s.modTile (id / 8) fun y =>
        { y with inbound := y.inbound ++ [⟨src, x.tag⟩], inboundFree := y.inboundFree - packetUnits x })
    else s

/-- A packet reaches its destination port. -/
def deliver (id : Nat) (x : Packet) (s : State) : State :=
  let p := id / 8
  if x.vc ≠ 1 ∧ fenceAt s id then pierAnswer p (id % 8) rOff x (nocCause p ncFenceAns s)
  else if x.vc ≠ 1 ∧ shut s id then pierAnswer p (id % 8) rOff x s
  else if x.vc = 1 ∧ ownerOff s id then dropPacket p x (complete id x.tag s)
  else
    let s := countRx id (packetUnits x) (countEj p x.epoch s)
    let s := if x.vc = 1 then complete id x.tag s else s
    received id x { s with noc := { s.noc with delivered := some x } }

/-- R321: a destination's local port is an output like any other. -/
def arrive (id : Nat) (s : State) : State :=
  match arbitrate s (id / 8) (id % 8) ((heads s (id / 8)).filter fun e =>
      e.2.pkt.destPier = id / 8 && e.2.pkt.destPort = id % 8 && accepts s id e.2.pkt) with
  | none => s
  | some (k, f) =>
    deliver id { f.pkt with age := min 255 (effectiveAge s f + 1) } (departs (id % 8) k f s)

def execNocDeliver (port : Nat) (s : State) : Host.Outcome State Fault Refusal :=
  effect (when (nocRuns s && localPort port) (arrive port)) s

end Sys2Proof.Machine
end

