-- ==== Sys2Proof/Machine/Loading.lean ====
section
/-! DEFINITION. The sections of a container as they end, the setting of SORREL (R575, R580, R637), the anti-rollback counter,
and the commands of R596 and R651. -/

namespace Sys2Proof.Machine

/-! ### Settings and windows (R376, R580) -/

/-- R376: first and last channel, and the span of channel addresses in GiB, that a window reaches. -/
def windowFirst (v : Nat) : Nat := bits v 16 3
def windowWays (v : Nat) : Nat := 2 ^ bits v 24 2
def windowBase (v : Nat) : Nat := bits v 0 6
def windowEnd (s : State) (v : Nat) : Nat :=
  min (capGiB (s.chan (windowFirst v))) (windowBase v + 64 / windowWays v)

/-- R376: two windows reach a common channel address. -/
def windowsMeet (s : State) (v w : Nat) : Bool :=
  windowFirst v < windowFirst w + windowWays w && windowFirst w < windowFirst v + windowWays v
    && windowBase v < windowEnd s w && windowBase w < windowEnd s v

/-- R376: a window may be enabled beside those already enabled. -/
def windowOk (s : State) (done : List (Nat × Nat)) (v : Nat) : Bool :=
  windowFirst v % windowWays v = 0
    && (List.range (windowWays v)).all (fun j => capGiB (s.chan (windowFirst v + j)) = capGiB (s.chan (windowFirst v)))
    && done.all (fun e => !bit e.2 31 || !windowsMeet s e.2 v)

/-- R376: the windows of a list as Sorrel writes them, in window order; one that may not be enabled is left disabled. -/
def windowTable (s : State) (given : List (Nat × Nat)) : List (Nat × Nat) :=
  (List.range 8).foldl (fun t w =>
    let v := tget 0 given w
    tset 0 t w (if bit v 31 && !windowOk s t v then v % 2 ^ 31 else v)) []

/-- A window register's number. -/
def windowAt (off : Nat) : Option Nat := if within off 0x00D80000 0x20 && off % 4 = 0 then some ((off - 0x00D80000) / 4) else none

/-- R580, R279, R356, R361: one write of SETTINGS: an FW register other than a window. Of the banks, bank 0 is not named; one
that is to go to the queue manager goes as command 0x0801 sends it (log 119), and the queue manager's own are refused. -/
def settingWrite (off v : Nat) (s : State) : State :=
  if off % 4 ≠ 0 ∨ fwMask off = 0 ∨ (windowAt off).isSome then s
  else if within off 0x00C01000 0x400 then
    let b := (off - 0x00C01000) / 4
    let kind := bits v 16 4
    if b = 0 ∨ (kind = 3 ∧ (s.bank b).kind = 3) then s
    else if kind = 3 then ownerWrite b 3 0 true true s
    else ownerWrite b kind (bits v 0 7) (bit v 24) false s
  else regPut true off (u32 v) s

/-- R580, R376: a SETTINGS section is applied; it replaces the windows. -/
def applySettings (writes : List (Nat × Nat)) (s : State) : State :=
  let given := writes.foldl (fun t e =>
    match windowAt e.1 with
    | some w => tset 0 t w (e.2 &&& 0x8307003F)
    | none => t) []
  let s := { s with boot := { s.boot with
    savedWindows := s.ddr.wins, settingsApplied := true, windowsSet := true, windowsGiven := given } }
  let s := writes.foldl (fun a e => settingWrite e.1 e.2 a) s
  settle { s with ddr := { s.ddr with wins := windowTable s given } }

/-! ### Other sections (R575, R576, R580) -/

/-- R376, R393, R398: the populated channels that are OFF are enabled. -/
def enableChannels (s : State) : State :=
  forEach (List.range 8) (fun c a => if (a.chan c).populated ∧ (a.chan c).state = .off then chanEnable c a else a) s

/-- R576, R447: a BOARD section is in force: OFF channels and lane taps take its values. -/
def applyBoard (channels : List BoardChannel) (taps : List (Nat × Nat)) (s : State) : State :=
  let s := { s with boot := { s.boot with board := channels, taps } }
  let s := taps.foldl (fun a e => if e.1 < 80 then a.modLane e.1 fun x => { x with txTaps := e.2 } else a) s
  let s := forEach (List.range 8) (fun c a => if (a.chan c).state = .off then boardToChannel c a else a) s
  let s := if s.boot.windowsSet then { s with ddr := { s.ddr with wins := windowTable s s.boot.windowsGiven } } else s
  if s.dev.ready.sorrel then enableChannels s else settle s

/-- R73, R75: a fabric PLL takes its settings. -/
def setPll (x : PllSetting) (s : State) : State :=
  s.modPll x.pll fun p => (List.range 4).foldl (fun p j =>
    let o := lget (false, 0, 12) x.outs j
    p.setOutput j { en := o.1, phase := bits o.2.1 0 11, div := bits o.2.2 0 9 }) { p with m := bits x.m 0 9, d := bits x.d 0 3 }

/-- R575: a SETUP section. -/
def applySetup (tiles clusters : List Nat) (plls : List PllSetting) (dieLines inbound : List (Nat × Nat)) (s : State) :
    State :=
  let s := plls.foldl (fun a x => if x.pll < 24 then setPll x a else a) s
  let s := inbound.foldl (fun a e => if e.1 < 96 then a.modTile e.1 fun x => { x with inboundCfg := e.2 } else a) s
  { s with
    fab := { s.fab with dieLines := dieLines.foldl (fun t e => if e.1 < 12 then tset 0 t e.1 e.2 else t) [] }
    boot := { s.boot with
      usedTiles := (List.range 96).filter tiles.contains
      usedClusters := (List.range 12).filter clusters.contains
      usedPlls := (List.range 24).filter fun n => plls.any fun x => x.pll = n
      setupBad := inbound.any fun e => e.2 < 1 || 64 < e.2 } }

/-- R580: what SETUP (0x10) refuses. -/
def setupRefuses (s : State) : Bool :=
  let b := s.boot
  b.setupBad || b.usedPlls.any (fun n => pllRefuses s (s.pll n))
    || b.usedTiles.any (fun t => (s.tile t).inboundCfg = 0 || (slotOf s t).isSome)
    || b.frameCount ≠ 19712 * b.usedTiles.length

/-! ### The end of firmware: SORREL sets (R36, R637 to R646) -/

/-- R646: Sorrel goes on to blow steps up to the SVN of the FW_ACTIVE firmware; a follower has none (log 114). -/
def advanceCounter (s : State) : State :=
  let target := if s.boot.dir.fwActive then s.boot.fwBSvn else s.boot.fwASvn
  if isFollower s ∨ target ≤ arbCount s then s
  else { s with boot := { s.boot with arbBusy := true, arbTarget := target } }

/-- R644: the trial firmware's first start: the record of SET_ACTIVE in its own format goes to the other area. -/
def convertRecord (s : State) : State :=
  let b := s.boot
  if !b.fwTrialRun then s
  else if b.dir.setActive then
    { s with boot := { b with setA := Config.convertSettings b.setBFmt b.setFmt b.setB, setAFmt := b.setFmt } }
  else { s with boot := { b with setB := Config.convertSettings b.setAFmt b.setFmt b.setA, setBFmt := b.setFmt } }

/-- R637, R651: what the slot that runs is known to hold. -/
def noteVersion (s : State) : State :=
  let b := s.boot
  if isFollower s then s
  else noteSlot b.fwSlot b.imageVersion b.svn s

/-- R426, R625, R640: the firmware runs. -/
def sorrelRuns (s : State) : State :=
  let s := installTable defaultRights s
  { s with
    sor := { s.sor with running := true, firmwareLoaded := true
                        fwMajor := BitVec.ofNat 8 (bits s.boot.imageVersion 56 8)
                        fwMinor := BitVec.ofNat 8 (bits s.boot.imageVersion 48 8) }
    boot := { s.boot with kind := .none, phase := .idle, fwImage := s.boot.imageVersion
                          altBoot := s.boot.altBoot || (!isFollower s && !s.boot.fwTrialRun
                            && decide (s.boot.fwSlot ≠ s.boot.dir.fwActive)) } }

/-- R640: event 326 once SORREL sets. -/
def tellFallBack (s : State) : State :=
  if s.boot.fellBackDue then raiseEvent 326 { s with boot := { s.boot with fellBackDue := false } } else s

/-- R566, R591, R652: this start loads no base image. -/
def staysHeld (s : State) : Bool := heldMode s || (s.boot.holdSafe && s.boot.heldStart)
def noBase (s : State) : Bool := staysHeld s || lifecycle s.fuse = 3

/-- SORREL sets: settings, the trial window, DRAM, PCIe, the counter, then the base image. -/
def firmwareUp (s : State) : State :=
  let s := tellFallBack (settle (convertRecord (noteVersion (sorrelRuns s))))
  let s := advanceCounter (startPcie (enableChannels s))
  if noBase s then staySafe (staysHeld s) (openWindow s)
  else loadSlot (openWindow (chooseBase s))

/-! ### The end of a section (R575, R580, R582, R637) -/

/-- KIND of a section's content. -/
def sectionKind : Section → Nat
  | .settings _ => 0x02
  | .board _ _ => 0x03
  | .rights _ => 0x13
  | .pins _ => 0x14
  | .setup .. => 0x15
  | .slotTable _ => 0x12
  | .frames => 0x10
  | .span => 0x20
  | .code => 0x01
  | .fwInfo .. => 0x04

/-- The section after the present one, if there is one. -/
def hasNext (s : State) : Bool := s.boot.secIdx + 1 < s.boot.sections.length
def nextKind (s : State) : Nat := (lget ⟨0, true, 0, 0⟩ s.boot.sections (s.boot.secIdx + 1)).kind

/-- The stream goes on to the next section. -/
def nextSection (s : State) : State :=
  { s with boot := { s.boot with
    secIdx := s.boot.secIdx + 1
    phase := if s.boot.kind = .firmware then .firmware else if nextKind s = 0x10 then .frames else .sections } }

/-- R580: SETUP is checked once the slot table, where there is one, has been (log 120). -/
def checkSetup (s : State) : State :=
  if nextKind s = 0x12 then nextSection s
  else if setupRefuses s then loadFail 0x10 none s
  else nextSection (forEach s.boot.usedPlls pllApply s)

/-- R637, R638: FWINFO, the last section of a firmware container. -/
def applyInfo (svn setFmt : Nat) (s : State) : State :=
  if svn < arbCount s ∨ 128 < svn then firmwareFail 0x13 none s
  else firmwareUp { s with boot := { s.boot with svn, setFmt } }

/-- R581: the FRAMES section has ended; a frame still due was not given (log 121). -/
def framesEnd (s : State) : State :=
  match nextFrameAddr s with
  | some a => loadFail 0x0C (some a) s
  | none => if s.boot.blockLeft ≠ 0 then loadFail 0x0C (some s.boot.blockNext) s else presentRequests s

/-- The bytes of the section being read: of command 0x0402 those in DRAM, else what the stream brings. -/
def sectionBytes (s : State) (data : List Byte) : List Byte :=
  if s.boot.fromDram then containerBytes s (currentSection s).offset (currentSection s).length else data

/-- R575, R580: a section whose digest matches is applied. -/
def applySection (c : Section) (s : State) : State :=
  match c with
  | .settings writes => nextSection (applySettings writes s)
  | .board channels taps => nextSection (applyBoard channels taps s)
  | .rights entries => nextSection (installTable entries s)
  | .pins pins => nextSection { s with boot := { s.boot with pins } }
  | .setup tiles clusters plls dieLines inbound => checkSetup (applySetup tiles clusters plls dieLines inbound s)
  | .slotTable data =>
    match slotTableOf (sectionBytes s data) with
    | none => loadFail 0x0F none s
    | some (base, size, records) =>
      let s := slotTable base size records s
      if slotTableOk base size records s then checkSetup s else loadFail 0x0F none s
  | .frames => framesEnd s
  | .span => nextSection s
  | .code => nextSection s
  | .fwInfo svn setFmt _ => applyInfo (u8 svn) (u8 setFmt) s

/-- R580, R583: the last byte of a section has arrived, if the source does not end before it. -/
def sectionEnded (c : Section) (digestOk : Bool) (s : State) : State :=
  let e := currentSection s
  if sourceEnds s (e.offset + e.length) then endLoad 0x0A none s
  else if digestOk then applySection c s else endLoad 0x09 none s

/-- The container's next section is of this kind; CURRENT has set before a firmware container ends (log 122). -/
def mayEnd (c : Section) (s : State) : Bool :=
  readsSections s && s.boot.secIdx < s.boot.sections.length && sectionKind c = (currentSection s).kind
    && (decide (s.boot.kind ≠ .firmware) || s.dev.ready.current)
def execCfgSectionEnd (c : Section) (digestOk : Bool) (s : State) : Host.Outcome State Fault Refusal :=
  effect (when (mayEnd c s) (sectionEnded c digestOk)) s

/-! ### The anti-rollback counter (R646) -/

/-- R646: the step being blown is the first that is not blown. -/
def nextStep (s : State) : Option Nat := (List.range 128).find? fun k => !stepBlown s.fuse.antiRollback k

/-- R646: a step finishes blowing; event 327 when COUNT has reached its target. -/
def stepDoneBlowing (s : State) : State :=
  match nextStep s with
  | none => { s with boot := { s.boot with arbBusy := false } }
  | some k =>
    let s := { s with fuse := { s.fuse with antiRollback := s.fuse.antiRollback ||| (7#384 <<< (3 * k)) } }
    if s.boot.arbTarget ≤ arbCount s then raiseEvent 327 { s with boot := { s.boot with arbBusy := false } } else s
def execArbStepBlown (s : State) : Host.Outcome State Fault Refusal :=
  effectFuse (when s.boot.arbBusy stepDoneBlowing) s

/-! ### Configuration commands (R596) -/

/-- 0x0401. -/
def cfgStatusCmd (s : State) : State × Reply :=
  okWith (leBytes 4 (cfgStatWord s) ++ leBytes 4 (cfgErrWord s.boot) ++ leBytes 4 s.boot.errAddr
    ++ leBytes 4 (field s.boot.framesWritten 0 21) ++ leBytes 4 s.boot.dir.seq.toNat ++ leBytes 1 (b2n s.boot.dir.baseActive)
    ++ leBytes 1 s.boot.dir.baseTrial) s
def execCfgStatus (q : CmdCtx) (s : State) : Host.Outcome State Fault Refusal :=
  effect (command q 0x0401 [] cfgStatusCmd) s

/-- R596, R651: the DDR_CH bits of the channels that hold a container are set. -/
def heldReady (s : State) (addr len : Nat) : Bool :=
  (channelsOf s addr len).all fun c => s.dev.ready.ddrCh.getLsbD c

/-- 0x0402. -/
def cfgLoadHostCmd (mbx addr len : Nat) (s : State) : State × Reply :=
  checks [(!heldReady s addr len, stNotReady), (decide (s.dev.mode ≠ .safe) || decide (lifecycle s.fuse = 3), stWrong)]
    (fun s =>
      let (code, s) := rangeAccess (mbxClass mbx) true false addr len s
      if code ≠ rOk then fail (statusOf code) s
      else
        let s := beginLoad .base true (setMode .load s)
        ({ s with boot := { s.boot with loadAddr := addr, loadLen := len, loadWindows := s.ddr.wins } }, .wait [] 0 0)) s
def execCfgLoadHost (q : CmdCtx) (addr len : Nat) (s : State) : Host.Outcome State Fault Refusal :=
  effect (command q 0x0402 (payloadAt 12 [(0, 8, addr), (8, 4, len)]) (cfgLoadHostCmd q.mbx (u64 addr) (u32 len))) s

/-- 0x0403. -/
def cfgReloadCmd (hold : Nat) (s : State) : State × Reply :=
  checks [(decide (1 < hold), stBadArg), (decide (s.dev.mode = .hold), stWrong)]
    (fun s => (armRestart .restart { s with boot := { s.boot with holdSafe := decide (hold = 1) } }, .wait [] 0 0)) s
def execCfgReload (q : CmdCtx) (hold : Nat) (s : State) : Host.Outcome State Fault Refusal :=
  effect (command q 0x0403 (leBytes 1 hold) (cfgReloadCmd (u8 hold))) s

/-- R580, R135, R137: the code of a staged container's slot table, judged as a load of it would. -/
def stagedSlotCode (s : State) (addr : Nat) (h : Header) : Nat :=
  match stagedSection s addr h 0x12 (2 ^ 20) with
  | none => 0
  | some b =>
    match slotTableOf b with
    | none => 0x0F
    | some (base, size, rs) => if slotTableOk base size rs (slotTable base size rs { s with spn := {} }) then 0 else 0x0F

/-- R596: the code of the first check a base container staged in DRAM fails; EARLY_END where LEN does not hold it. -/
def baseStageCode (addr len : Nat) (st : Staged) (s : State) : Nat :=
  let h := stagedHeader s addr st
  let code := headerCode 1 s h
  if code ≠ 0 then code else if len < h.totalLen then 0x0A
  else if !st.digestsOk then 0x09
  else if stagedSlotCode s addr h ≠ 0 then stagedSlotCode s addr h else st.laterCode

/-- 0x0404: a second container while flash is being written is BUSY (log 123). -/
def cfgBaseStageCmd (mbx addr len : Nat) (st : Staged) (s : State) : State × Reply :=
  checks [(decide (slotSize s.boot.dir (!s.boot.dir.baseActive) < len), stBadArg), (!heldReady s addr len, stNotReady),
      (decide (s.boot.dir.baseTrial ≠ 0) || s.boot.flashBase.isSome, stBusy)]
    (fun s =>
      let (code, s) := rangeAccess (mbxClass mbx) true false addr len s
      if code ≠ rOk then fail (statusOf code) s
      else
        let why := baseStageCode addr len st s
        if why ≠ 0 then (s, .pend (loadStatus why) (leBytes 1 why))
        else ({ s with boot := { s.boot with flashBase := some true } }, .wait [] 0 0)) s
def execCfgBaseStage (q : CmdCtx) (addr len : Nat) (st : Staged) (s : State) : Host.Outcome State Fault Refusal :=
  effect (command q 0x0404 (payloadAt 12 [(0, 8, addr), (8, 4, len)]) (cfgBaseStageCmd q.mbx (u64 addr) (u32 len) st)) s

/-- 0x0405. -/
def cfgBaseTrialCmd (s : State) : State × Reply :=
  checks [(decide (s.dev.mode = .hold) || !s.boot.baseStaged, stWrong)]
    (fun s => (armRestart .restart (writeDir (fun d => { d with baseTrial := 1 }) s), .wait [] 0 0)) s
def execCfgBaseTrial (q : CmdCtx) (s : State) : Host.Outcome State Fault Refusal :=
  effect (command q 0x0405 [] cfgBaseTrialCmd) s

/-- 0x0406: `hash` is what the 48 bytes at ADDR hold; a second while one is being fused is BUSY (log 123). -/
def cfgOwnerKeyCmd (mbx addr : Nat) (s : State) : State × Reply :=
  checks [(decide (lifecycle s.fuse ≠ 0) || s.fuse.keyFused, stWrong), (s.boot.keyFusing, stBusy)]
    (fun s =>
      let ((code, data), s) := deviceRead (mbxClass mbx) 2 addr 48 s
      if code ≠ rOk then fail (statusOf code) s
      else ({ s with boot := { s.boot with keyHash := BitVec.ofNat 384 (ofLe data), keyFusing := true } }, .wait [] 0 0)) s
def execCfgOwnerKey (q : CmdCtx) (addr : Nat) (s : State) : Host.Outcome State Fault Refusal :=
  effect (command q 0x0406 (leBytes 8 addr) (cfgOwnerKeyCmd q.mbx (u64 addr))) s

/-- R596, R579: the hash is fused, once. -/
def keyBlown (s : State) : State :=
  finish 0x0406 0 stOk [] { s with
    fuse := { s.fuse with ownerKey := s.boot.keyHash, keyFused := true }
    boot := { s.boot with keyFusing := false } }
def execOwnerKeyFused (s : State) : Host.Outcome State Fault Refusal := effectFuse (when (s.boot.keyFusing && !s.fuse.keyFused) keyBlown) s

/-! ### Firmware commands (R643, R647, R651) -/

/-- R637: the FWINFO section of a staged container: SVN, SET_FMT, SET_FMT_MIN. -/
def stagedInfo (s : State) (addr : Nat) (h : Header) : List Byte := (stagedSection s addr h 4 64).getD []

/-- R578, R579, R638: the code of the first check a firmware container staged in DRAM fails. -/
def fwStageCode (addr len : Nat) (st : Staged) (s : State) : Nat :=
  let h := stagedHeader s addr st
  let code := headerCode 0 s h
  let info := stagedInfo s addr h
  if code ≠ 0 then code else if len < h.totalLen then 0x0A
  else if !st.digestsOk then 0x09
  else if leAt info 0 1 < arbCount s ∨ 128 < leAt info 0 1 then 0x13
  else if s.boot.setFmt < leAt info 2 1 then 0x14 else st.laterCode

/-- 0x0C01. -/
def fwStageCmd (mbx addr len : Nat) (st : Staged) (s : State) : State × Reply :=
  let slot := !s.boot.dir.fwActive
  checks [(decide (fwSlotSize s.boot.dir slot < len), stBadArg), (!heldReady s addr len, stNotReady),
      (decide (s.boot.dir.fwTrial ≠ 0) || s.boot.flashBase.isSome, stBusy)]
    (fun s =>
      let (code, s) := rangeAccess (mbxClass mbx) true false addr len s
      if code ≠ rOk then fail (statusOf code) s
      else
        let why := fwStageCode addr len st s
        if why ≠ 0 then (s, .pend stIntegrity (leBytes 1 why))
        else
          let h := stagedHeader s addr st
          let s := noteSlot slot 0 0 s
          ({ s with boot := { s.boot with
            flashBase := some false, stageVersion := h.imageVersion, stageSvn := leAt (stagedInfo s addr h) 0 1 } }, .wait [] 0 0)) s
def execFwStage (q : CmdCtx) (addr len : Nat) (st : Staged) (s : State) : Host.Outcome State Fault Refusal :=
  effect (command q 0x0C01 (payloadAt 12 [(0, 8, addr), (8, 4, len)]) (fwStageCmd q.mbx (u64 addr) (u32 len) st)) s

/-- R596, R651: a staged container stands in flash; `ok` says that it reads back as it was written (else DIGEST). -/
def flashWritten (good : Bool) (s : State) : State :=
  let code := if good then 0 else 0x09
  let status := if good then stOk else stIntegrity
  match s.boot.flashBase with
  | none => s
  | some true =>
    finish 0x0404 0 status (leBytes 1 code) { s with boot := { s.boot with flashBase := none, baseStaged := good || s.boot.baseStaged } }
  | some false =>
    let s := if good then noteSlot (!s.boot.dir.fwActive) s.boot.stageVersion s.boot.stageSvn s else s
    finish 0x0C01 0 status (leBytes 1 code) { s with boot := { s.boot with flashBase := none, fwStaged := good || s.boot.fwStaged } }
def execFlashWriteDone (good : Bool) (s : State) : Host.Outcome State Fault Refusal := effect (flashWritten good) s

/-- 0x0C02. -/
def fwTrialCmd (window withBase : Nat) (s : State) : State × Reply :=
  checks [((decide (window ≠ 0) && (decide (window < 10) || decide (3600 < window))) || decide (1 < withBase), stBadArg),
      (decide (s.dev.mode = .hold) || !s.boot.fwStaged || (decide (withBase = 1) && !s.boot.baseStaged), stWrong),
      (decide (s.boot.dir.fwTrial ≠ 0) || decide (s.boot.dir.baseTrial ≠ 0), stBusy)]
    (fun s =>
      let s := writeDir (fun d => { d with
        trialWindow := if window = 0 then d.trialWindow else window, fwTrial := 1
        baseTrial := if withBase = 1 then 1 else d.baseTrial }) s
      (armRestart .restart s, .wait [] 0 0)) s
def execFwTrial (q : CmdCtx) (window withBase : Nat) (s : State) : Host.Outcome State Fault Refusal :=
  effect (command q 0x0C02 (payloadAt 3 [(0, 2, window), (2, 1, withBase)]) (fwTrialCmd (u16 window) (u8 withBase))) s

/-- R643: every trial that runs is confirmed in one directory write; event 325; the counter advances. -/
def confirmTrials (s : State) : State :=
  let b := s.boot
  let s := writeDir (fun d =>
    let d := if b.fwTrialRun then { d with fwActive := b.fwSlot, setActive := !d.setActive, fwTrial := 0 } else d
    if b.trial then { d with baseActive := b.slot, baseTrial := 0 } else d) s
  advanceCounter (raiseEvent 325 { s with boot := { s.boot with fwTrialRun := false, trial := false, winOn := false } })

/-- 0x0C03. -/
def healthConfirmCmd (s : State) : State × Reply :=
  let b := s.boot
  if !b.fwTrialRun && !b.trial then okWith (leBytes 1 0) s
  else if b.trial && !s.dev.cfgDone then fail stWrong s
  else okWith (leBytes 1 (b2n b.fwTrialRun + 2 * b2n b.trial)) (confirmTrials s)
def execHealthConfirm (q : CmdCtx) (s : State) : Host.Outcome State Fault Refusal :=
  effect (command q 0x0C03 [] healthConfirmCmd) s

/-- 0x0C04. -/
def fwStatusCmd (s : State) : State × Reply :=
  let b := s.boot
  okWith (payloadAt 32 [(0, 4, fwStatWord b), (4, 1, b2n b.dir.fwActive), (5, 1, b.dir.fwTrial), (6, 1, arbCount s),
    (8, 8, b.fwAVersion), (16, 8, b.fwBVersion), (24, 1, b.fwASvn), (25, 1, b.fwBSvn), (28, 4, windowLeft s)]) s
def execFwStatus (q : CmdCtx) (s : State) : Host.Outcome State Fault Refusal :=
  effect (command q 0x0C04 [] fwStatusCmd) s

end Sys2Proof.Machine
end

