-- ==== Sys2Proof/Machine/TakeCommand.lean ====
section
/-! DEFINITION. The two diagnostics commands that reach device memory (R621, R623), and Sorrel taking the command at a
mailbox head (R603 to R607): its header and payload read from the ring, and the handler of its opcode. -/

namespace Sys2Proof.Machine

/-! ### Device memory for the host (R11, R621, R623) -/

/-- The register map is the lowest 64 MiB of the device address space (R306). -/
def registerSpace : Nat := 2 ^ 26

/-- A read of `n` bytes for class `cls`: registers by R11, memory by its target. -/
def diagFetch (cls addr n : Nat) (s : State) : (Nat × List Byte) × State :=
  if addr < registerSpace then
    let (fine, s) := rightsJudge cls 0 true false addr (n - 1) s
    if !fine then ((rRights, []), recordViolation cls 0 false addr s)
    else if !regAccess addr n then ((rDecode, []), s)
    else
      let (d, s) := regReadBytes (sourcePort ⟨1, 0⟩) addr n s
      ((rOk, d), s)
  else deviceRead cls 2 addr n s
/-- A write for class `cls`; a register judges its FW fields as for a host write (log 124). -/
def diagStore (cls addr : Nat) (data : List Byte) (s : State) : Nat × State :=
  if addr < registerSpace then
    let (fine, s) := rightsJudge cls 0 false true addr (data.length - 1) s
    if !fine then (rRights, recordViolation cls 0 true addr s)
    else if !regAccess addr data.length then (rDecode, s)
    else (rOk, regWrite (.host ⟨cls, 0⟩ 0) false addr data.length (ofLe data) s)
  else deviceWrite cls 2 addr data s

/-- R623: SIZE is 4, 8 or 32 and divides the address. -/
def diagSizeOk (addr size : Nat) : Bool := (size = 4 || size = 8 || size = 32) && addr % size = 0

/-- 0x0E02. -/
def diagReadCmd (mbx addr size : Nat) (s : State) : State × Reply :=
  checks [(!diagSizeOk addr size, stBadArg)] (fun s =>
    match diagFetch (mbxClass mbx) addr size s with
    | ((code, d), s) => if code = rOk then okWith d s else fail (statusOf code) s) s
def execDiagRead (q : CmdCtx) (addr size : Nat) (s : State) : Host.Outcome State Fault Refusal :=
  effect (command q 0x0E02 (payloadAt 9 [(0, 8, addr), (8, 1, size)]) (diagReadCmd q.mbx (u64 addr) (u8 size))) s

/-- 0x0E03: SIZE bytes of `data` (missing ones read zero, log 116). -/
def diagWriteCmd (mbx addr size : Nat) (data : List Byte) (s : State) : State × Reply :=
  checks [(!diagSizeOk addr size, stBadArg)] (fun s =>
    match diagStore (mbxClass mbx) addr (leBytes size (ofLe data)) s with
    | (code, s) => if code = rOk then ok s else fail (statusOf code) s) s
def execDiagWrite (q : CmdCtx) (addr size : Nat) (data : List Byte) (s : State) : Host.Outcome State Fault Refusal :=
  effect (command q 0x0E03 (payloadAt 16 [(0, 8, addr), (8, 1, size)] ++ data)
    (diagWriteCmd q.mbx (u64 addr) (u8 size) data)) s

/-! ### The handler of each opcode, one function per opcode page -/

/-- R622: page 0x01, the device. -/
def devHandler (p : List Byte) : Nat → Option (State → State × Reply)
  | 1 => some devIdentifyCmd
  | 2 => some (devModeSetCmd (leAt p 0 1))
  | 3 => some devHoldCmd
  | 4 => some devResetCmd
  | 5 => some (mbxStatusCmd (leAt p 0 1))
  | _ => none

/-- Page 0x02, clocks. -/
def clkHandler (p : List Byte) : Nat → Option (State → State × Reply)
  | 1 => some clkStatusCmd
  | 2 => some (clkSourceSetCmd (leAt p 0 1) (leAt p 1 1) (leAt p 2 1) (leAt p 3 1) (leAt p 4 1))
  | 3 => some (clkTrimSetCmd (leAt p 0 2) (leAt p 2 2) (leAt p 4 2))
  | 4 => some (clkTestCmd (leAt p 0 1) (leAt p 1 1))
  | 5 => some clkReturnCmd
  | _ => none

/-- Page 0x03, the current governor. -/
def curHandler (p : List Byte) : Nat → Option (State → State × Reply)
  | 1 => some curStatusCmd
  | 2 => some (curQueueReadCmd (leAt p 0 1) (leAt p 2 2))
  | 3 => some (curHoldingsCmd (leAt p 0 1))
  | _ => none

/-- Page 0x04, configuration. -/
def cfgHandler (m : Nat) (st : Staged) (p : List Byte) : Nat → Option (State → State × Reply)
  | 1 => some cfgStatusCmd
  | 2 => some (cfgLoadHostCmd m (leAt p 0 8) (leAt p 8 4))
  | 3 => some (cfgReloadCmd (leAt p 0 1))
  | 4 => some (cfgBaseStageCmd m (leAt p 0 8) (leAt p 8 4) st)
  | 5 => some cfgBaseTrialCmd
  | 6 => some (cfgOwnerKeyCmd m (leAt p 0 8))
  | _ => none

/-- Page 0x05, spans. -/
def spanHandler (m : Nat) (st : Staged) (p : List Byte) : Nat → Option (State → State × Reply)
  | 1 => some (spanPersInstallCmd m (leAt p 0 2) (leAt p 2 2) (leAt p 4 2) (leAt p 8 8) (leAt p 16 4) (leAt p 24 8) (leAt p 32 8) st)
  | 2 => some (spanPersGetCmd (leAt p 0 2))
  | 3 => some (spanBindCmd (leAt p 0 2) (leAt p 2 2))
  | 4 => some (spanSlotEnableCmd (leAt p 0 1) (leAt p 1 1))
  | 5 => some (spanLoadCmd (leAt p 0 2) (leAt p 2 1))
  | 6 => some (spanEvictCmd (leAt p 0 1))
  | 7 => some (spanUnpinCmd (leAt p 0 2))
  | 8 => some (spanPersResetCmd (leAt p 0 2) (leAt p 2 1))
  | 9 => some (spanSlotStatusCmd (leAt p 0 1))
  | 10 => some (spanPersRemoveCmd (leAt p 0 2))
  | _ => none

/-- Page 0x06, queues. -/
def queueHandler (m : Nat) (p : List Byte) : Nat → Option (State → State × Reply)
  | 1 => some (queueCreateCmd (leAt p 0 2) (leAt p 2 1) (leAt p 3 1) (leAt p 4 4) (leAt p 8 4) (leAt p 12 4) (leAt p 16 4) (leAt p 20 1))
  | 2 => some (queueDestroyCmd (leAt p 0 2))
  | 3 => some (queueGetCmd (leAt p 0 2) (leAt p 2 1))
  | 4 => some (queueSetCmd (leAt p 0 2) (leAt p 2 1) (leAt p 3 1) (leAt p 4 4) (leAt p 8 1))
  | 5 => some (queueResetCmd (leAt p 0 2))
  | 6 => some (queuePushCmd (leAt p 0 2) (BitVec.ofNat 256 (leAt p 8 32)))
  | 7 => some (queuePopCmd m (leAt p 0 2))
  | 8 => some (queueGroupStatsCmd (leAt p 0 1))
  | 9 => some queuePoolStatusCmd
  | _ => none

/-- Page 0x07, engines. -/
def engHandler (m : Nat) (p : List Byte) : Nat → Option (State → State × Reply)
  | 1 => some (engLoadCmd m (leAt p 0 1) (leAt p 1 1) (leAt p 2 2) (leAt p 4 4) (leAt p 8 8))
  | 2 => some (engCtxStartCmd (leAt p 0 1) (leAt p 1 1) (leAt p 2 2) (BitVec.ofNat 64 (leAt p 8 8)) (BitVec.ofNat 64 (leAt p 16 8)))
  | 3 => some (engCtxStopCmd (leAt p 0 1) (leAt p 1 1) (leAt p 2 1))
  | 4 => some (engCtxReadCmd (leAt p 0 1) (leAt p 1 1) (leAt p 2 1))
  | 5 => some (engClusterEnableCmd (leAt p 0 1) (leAt p 1 1))
  | 6 => some (engPinAssignCmd (leAt p 0 2) (leAt p 2 1) (leAt p 3 1) (leAt p 4 1))
  | 7 => some (engMemReadCmd (leAt p 0 1) (leAt p 1 1) (leAt p 2 2))
  | 8 => some (engStatusCmd (leAt p 0 1))
  | _ => none

/-- Page 0x08, scratch memory. -/
def scrHandler (p : List Byte) : Nat → Option (State → State × Reply)
  | 1 => some (scrGrantQmCmd (leAt p 0 1))
  | 2 => some (scrReturnQmCmd (leAt p 0 1) (leAt p 1 1) (leAt p 2 1))
  | 3 => some (scrSetOwnerCmd (leAt p 0 1) (leAt p 1 1) (leAt p 2 1) (leAt p 3 1))
  | 4 => some (scrGroupStatusCmd (leAt p 0 1))
  | 5 => some (scrReadUnitCmd (leAt p 0 1) (leAt p 2 2))
  | _ => none

/-- Page 0x09, device DRAM. -/
def ddrHandler (p : List Byte) : Nat → Option (State → State × Reply)
  | 1 => some (ddrChEnableCmd (leAt p 0 1) (leAt p 1 1))
  | 2 => some (ddrChStatusCmd (leAt p 0 1))
  | 3 => some (ddrUnfreezeCmd (leAt p 0 1) (leAt p 1 1))
  | 4 => some (ddrSweepCmd (leAt p 0 1) (leAt p 1 1))
  | 5 => some (ddrMarkChipCmd (leAt p 0 1) (leAt p 1 1) (leAt p 2 1))
  | _ => none

/-- Page 0x0A, lanes and Ethernet. -/
def laneHandler (p : List Byte) : Nat → Option (State → State × Reply)
  | 1 => some (laneQuadSetCmd (leAt p 0 1) (leAt p 1 1) (leAt p 4 4) (leAt p 8 1))
  | 2 => some (laneQuadPowerCmd (leAt p 0 1) (leAt p 1 1))
  | 3 => some (laneStreamSetCmd (leAt p 0 1) (leAt p 1 1) (leAt p 8 8) (leAt p 16 1) (leAt p 17 1) (leAt p 18 1))
  | 4 => some (laneStreamRestartCmd (leAt p 0 1) (leAt p 1 1))
  | 5 => some (ethPortSetCmd (leAt p 0 1) (leAt p 1 1) (leAt p 2 1) (BitVec.ofNat 48 (leAt p 8 6)) (leAt p 14 1))
  | 6 => some (ethPortStatusCmd (leAt p 0 1))
  | 7 => some (laneStatusCmd (leAt p 0 1))
  | _ => none

/-- Page 0x0B, time. -/
def timeHandler (p : List Byte) : Nat → Option (State → State × Reply)
  | 1 => some timeGetCmd
  | 2 => some (timeServoSetCmd (leAt p 0 1) (leAt p 1 1) (leAt p 2 1) (leAt p 4 2) (leAt p 6 2) (leAt p 8 2) (leAt p 10 2))
  | 3 => some (timeSetCmd (leAt p 0 1) (leAt p 8 8) (leAt p 16 6) (leAt p 22 4) (leAt p 26 2))
  | 4 => some (timeTcSetCmd (leAt p 0 1) (leAt p 1 1) (leAt p 2 1))
  | 5 => some (timeTsReadCmd (leAt p 0 1))
  | 6 => some (timePtpConfigCmd (leAt p 0 1) (leAt p 1 1) (leAt p 2 1) (leAt p 3 1) (leAt p 4 1))
  | 7 => some timePtpStatusCmd
  | 8 => some (timeHoldoverCmd (leAt p 0 1))
  | _ => none

/-- Page 0x0C, firmware. -/
def fwHandler (m : Nat) (st : Staged) (p : List Byte) : Nat → Option (State → State × Reply)
  | 1 => some (fwStageCmd m (leAt p 0 8) (leAt p 8 4) st)
  | 2 => some (fwTrialCmd (leAt p 0 2) (leAt p 2 1))
  | 3 => some healthConfirmCmd
  | 4 => some fwStatusCmd
  | _ => none

/-- Page 0x0D, security. -/
def secHandler (p : List Byte) : Nat → Option (State → State × Reply)
  | 1 => some (accSetEntryCmd (leAt p 0 1) (leAt p 4 4) (leAt p 8 4) (leAt p 12 4))
  | 2 => some (accGetEntryCmd (leAt p 0 1))
  | 3 => some accViolLogCmd
  | 4 => some (lcsArmCmd (leAt p 0 1))
  | 5 => some (lcsCommitCmd (leAt p 0 1) (leAt p 2 2))
  | 6 => some scmStatusCmd
  | _ => none

/-- Page 0x0E, diagnostics. -/
def diagHandler (m : Nat) (p : List Byte) : Nat → Option (State → State × Reply)
  | 1 => some (diagEchoCmd p)
  | 2 => some (diagReadCmd m (leAt p 0 8) (leAt p 8 1))
  | 3 => some (diagWriteCmd m (leAt p 0 8) (leAt p 8 1) (p.drop 16))
  | 4 => some (diagRaiseCmd (leAt p 0 2))
  | 5 => some diagSorrelCmd
  | 6 => some (diagEventLogCmd (leAt p 0 2))
  | _ => none

/-- R607 check 3: the handler of an opcode with its payload's fields, where the opcode is defined. -/
def handlerOf (m : Nat) (st : Staged) (opcode : Nat) (p : List Byte) : Option (State → State × Reply) :=
  let x := opcode % 256
  match opcode / 256 with
  | 1 => devHandler p x
  | 2 => clkHandler p x
  | 3 => curHandler p x
  | 4 => cfgHandler m st p x
  | 5 => spanHandler m st p x
  | 6 => queueHandler m p x
  | 7 => engHandler m p x
  | 8 => scrHandler p x
  | 9 => ddrHandler p x
  | 10 => laneHandler p x
  | 11 => timeHandler p x
  | 12 => fwHandler m st p x
  | 13 => secHandler p x
  | 14 => diagHandler m p x
  | _ => none

/-! ### Taking a command (R603 to R607, R613) -/

/-- What the hardware does next to the first step of some commands: the queues move, stops that are over are answered,
HOLD is entered once the answer is written (R622). -/
def afterTake (opcode : Nat) (s : State) : State :=
  let s := if opcode / 256 = 6 then pumpQueues s else s
  let s := if opcode = 0x0703 then reapStops s else s
  afterCommand s

/-- R606: the command at the head of mailbox `m` is taken. -/
def takeHeadCommand (m : Nat) (st : Staged) (s : State) : State :=
  let b := s.mailbox m
  let (q, opcode, len, zeroOk) := headOf m s
  let p := ringLoad b.cmdRing (64 * (b.cmdHead % 16) + (if b.encV1 then 8 else 16)) len
  afterTake opcode (takeCommand q opcode len zeroOk (handlerOf m st opcode p) s)
def execMbxTakeCommand (m : Nat) (staged : Staged) (s : State) : Host.Outcome State Fault Refusal :=
  effect (when (canTake m s && wholeMessage m s && ownTurn m s) (takeHeadCommand m staged)) s

end Sys2Proof.Machine
end

