-- ==== Sys2Proof/Machine/Dispatch.lean ====
section
/-! DEFINITION. One arm per command: a direct call of its meaning. -/

namespace Sys2Proof.Machine

/-- The effect of a command on everything but the queue. -/
def exec (i : Instr) (s : State) : Host.Outcome State Fault Refusal :=
  match i with
  | .porNRelease compat cfgMode pull => Sys2Proof.Machine.execPorNRelease compat cfgMode pull s
  | .porNAssert => Sys2Proof.Machine.execPorNAssert s
  | .supplyMonitorTrip => Sys2Proof.Machine.execSupplyMonitorTrip s
  | .resetReleaseTimer compat cfgMode pull => Sys2Proof.Machine.execResetReleaseTimer compat cfgMode pull s
  | .cfgRestart cfgMode pull => Sys2Proof.Machine.execCfgRestart cfgMode pull s
  | .holdNLow ns => Sys2Proof.Machine.execHoldNLow ns s
  | .holdTileIdle t => Sys2Proof.Machine.execHoldTileIdle t s
  | .holdTileTimeout => Sys2Proof.Machine.execHoldTileTimeout s
  | .registerWrite m off size val same => Sys2Proof.Machine.execRegisterWrite m off size val same s
  | .latchedLoRead src tag off => Sys2Proof.Machine.execLatchedLoRead src tag off s
  | .dividerRampStep d => Sys2Proof.Machine.execDividerRampStep d s
  | .xoEdgeTimeout => Sys2Proof.Machine.execXoEdgeTimeout s
  | .sourceTestDone t ppm missed => Sys2Proof.Machine.execSourceTestDone t ppm missed s
  | .rootPllLock => Sys2Proof.Machine.execRootPllLock s
  | .clockMonitorTrip cause => Sys2Proof.Machine.execClockMonitorTrip cause s
  | .vcoGlideDone => Sys2Proof.Machine.execVcoGlideDone s
  | .clkTrimDivWrite d v => Sys2Proof.Machine.execClkTrimDivWrite d v s
  | .clkStatus q => Sys2Proof.Machine.execClkStatus q s
  | .clkSourceSet q primary recovPort xoWarm autoReturn policy => Sys2Proof.Machine.execClkSourceSet q primary recovPort xoWarm autoReturn policy s
  | .clkTrimSet q r1 r2 r3 => Sys2Proof.Machine.execClkTrimSet q r1 r2 r3 s
  | .clkTest q a b => Sys2Proof.Machine.execClkTest q a b s
  | .clkReturn q => Sys2Proof.Machine.execClkReturn q s
  | .govDecision => Sys2Proof.Machine.execGovDecision s
  | .govLongWait sp => Sys2Proof.Machine.execGovLongWait sp s
  | .currentReady => Sys2Proof.Machine.execCurrentReady s
  | .curClrPeak sp => Sys2Proof.Machine.execCurClrPeak sp s
  | .curStatus q => Sys2Proof.Machine.execCurStatus q s
  | .curQueueRead q sp first => Sys2Proof.Machine.execCurQueueRead q sp first s
  | .curHoldings q sp => Sys2Proof.Machine.execCurHoldings q sp s
  | .keyAttemptDone pass => Sys2Proof.Machine.execKeyAttemptDone pass s
  | .scmBypassWrite v => Sys2Proof.Machine.execScmBypassWrite v s
  | .accTablePropagated => Sys2Proof.Machine.execAccTablePropagated s
  | .accSetEntry q entry ctl base limit => Sys2Proof.Machine.execAccSetEntry q entry ctl base limit s
  | .accGetEntry q entry => Sys2Proof.Machine.execAccGetEntry q entry s
  | .accViolLog q => Sys2Proof.Machine.execAccViolLog q s
  | .lcsArm q target => Sys2Proof.Machine.execLcsArm q target s
  | .lcsCommit q target nonce => Sys2Proof.Machine.execLcsCommit q target nonce s
  | .lcsArmTimeout => Sys2Proof.Machine.execLcsArmTimeout s
  | .lcsFuseBlown => Sys2Proof.Machine.execLcsFuseBlown s
  | .scmStatus q => Sys2Proof.Machine.execScmStatus q s
  | .fwBootStart flash => Sys2Proof.Machine.execFwBootStart flash s
  | .cfgHeaderCheckDone h => Sys2Proof.Machine.execCfgHeaderCheckDone h s
  | .cfgSectionEnd c digestOk => Sys2Proof.Machine.execCfgSectionEnd c digestOk s
  | .cfgFrame head v mems => Sys2Proof.Machine.execCfgFrame head v mems s
  | .cfgStallTimeout => Sys2Proof.Machine.execCfgStallTimeout s
  | .cfgNoImageTimeout => Sys2Proof.Machine.execCfgNoImageTimeout s
  | .chainClkPauseEnd => Sys2Proof.Machine.execChainClkPauseEnd s
  | .startupStep => Sys2Proof.Machine.execStartupStep s
  | .cfgPllLockTimeout n => Sys2Proof.Machine.execCfgPllLockTimeout n s
  | .cfgFailWipeDone => Sys2Proof.Machine.execCfgFailWipeDone s
  | .cfgAbort => Sys2Proof.Machine.execCfgAbort s
  | .cfgStatus q => Sys2Proof.Machine.execCfgStatus q s
  | .cfgLoadHost q addr len => Sys2Proof.Machine.execCfgLoadHost q addr len s
  | .cfgReload q hold => Sys2Proof.Machine.execCfgReload q hold s
  | .cfgBaseStage q addr len st => Sys2Proof.Machine.execCfgBaseStage q addr len st s
  | .cfgBaseTrial q => Sys2Proof.Machine.execCfgBaseTrial q s
  | .cfgOwnerKey q addr => Sys2Proof.Machine.execCfgOwnerKey q addr s
  | .trialWindowWarning => Sys2Proof.Machine.execTrialWindowWarning s
  | .trialWindowExpiry => Sys2Proof.Machine.execTrialWindowExpiry s
  | .arbStepBlown => Sys2Proof.Machine.execArbStepBlown s
  | .fwStage q addr len st => Sys2Proof.Machine.execFwStage q addr len st s
  | .fwTrial q window withBase => Sys2Proof.Machine.execFwTrial q window withBase s
  | .healthConfirm q => Sys2Proof.Machine.execHealthConfirm q s
  | .fwStatus q => Sys2Proof.Machine.execFwStatus q s
  | .fpllApply n => Sys2Proof.Machine.execFpllApply n s
  | .fpllEnable n => Sys2Proof.Machine.execFpllEnable n s
  | .fpllLock n => Sys2Proof.Machine.execFpllLock n s
  | .fpllLockLoss n => Sys2Proof.Machine.execFpllLockLoss n s
  | .tileEnable t => Sys2Proof.Machine.execTileEnable t s
  | .tileDisable t => Sys2Proof.Machine.execTileDisable t s
  | .tileDrainIdle t => Sys2Proof.Machine.execTileDrainIdle t s
  | .tileDrainTimeout t => Sys2Proof.Machine.execTileDrainTimeout t s
  | .fabricPortRequest t hd data check => Sys2Proof.Machine.execFabricPortRequest t hd data check s
  | .fabricPortResponse t src tag code data => Sys2Proof.Machine.execFabricPortResponse t src tag code data s
  | .fabricPortCreditReturn t n => Sys2Proof.Machine.execFabricPortCreditReturn t n s
  | .fabricInboundTimeout t src tag => Sys2Proof.Machine.execFabricInboundTimeout t src tag s
  | .bramRead t m portB addr c e upset => Sys2Proof.Machine.execBramRead t m portB addr c e upset s
  | .bramWrite t m portB addr en data clear e upset => Sys2Proof.Machine.execBramWrite t m portB addr en data clear e upset s
  | .bramScrubSlot upset => Sys2Proof.Machine.execBramScrubSlot upset s
  | .bramScrubGapEnd => Sys2Proof.Machine.execBramScrubGapEnd s
  | .bramClrCounts => Sys2Proof.Machine.execBramClrCounts s
  | .spanPersInstall q pers maxRes depth stageAddr stageLen imageAddr stateAddr st => Sys2Proof.Machine.execSpanPersInstall q pers maxRes depth stageAddr stageLen imageAddr stateAddr st s
  | .spanPersGet q pers => Sys2Proof.Machine.execSpanPersGet q pers s
  | .spanBind q queue pers => Sys2Proof.Machine.execSpanBind q queue pers s
  | .spanSlotEnable q slot en => Sys2Proof.Machine.execSpanSlotEnable q slot en s
  | .spanLoad q pers pin => Sys2Proof.Machine.execSpanLoad q pers pin s
  | .spanEvict q slot => Sys2Proof.Machine.execSpanEvict q slot s
  | .spanUnpin q pers => Sys2Proof.Machine.execSpanUnpin q pers s
  | .spanPersReset q pers discard => Sys2Proof.Machine.execSpanPersReset q pers discard s
  | .spanSlotStatus q slot => Sys2Proof.Machine.execSpanSlotStatus q slot s
  | .spanPersRemove q pers => Sys2Proof.Machine.execSpanPersRemove q pers s
  | .spanIdleTimer slot => Sys2Proof.Machine.execSpanIdleTimer slot s
  | .spanMaxResExpiry slot => Sys2Proof.Machine.execSpanMaxResExpiry slot s
  | .spanHeaderChecked slot upset acts => Sys2Proof.Machine.execSpanHeaderChecked slot upset acts s
  | .spanFrame slot upset acts crcUpset crcActs mems => Sys2Proof.Machine.execSpanFrame slot upset acts crcUpset crcActs mems s
  | .spanStartStep slot => Sys2Proof.Machine.execSpanStartStep slot s
  | .spanDrainIdle slot => Sys2Proof.Machine.execSpanDrainIdle slot s
  | .spanDrainTimeout slot => Sys2Proof.Machine.execSpanDrainTimeout slot s
  | .spanSaveDone slot upset => Sys2Proof.Machine.execSpanSaveDone slot upset s
  | .spanSaveFail x => Sys2Proof.Machine.execSpanSaveFail x s
  | .spanWipeDone slot => Sys2Proof.Machine.execSpanWipeDone slot s
  | .alu n k => Sys2Proof.Machine.execAlu n k s
  | .addi n k => Sys2Proof.Machine.execAddi n k s
  | .andi n k => Sys2Proof.Machine.execAndi n k s
  | .ori n k => Sys2Proof.Machine.execOri n k s
  | .xori n k => Sys2Proof.Machine.execXori n k s
  | .shi n k => Sys2Proof.Machine.execShi n k s
  | .movw n k => Sys2Proof.Machine.execMovw n k s
  | .ext n k => Sys2Proof.Machine.execExt n k s
  | .ins n k => Sys2Proof.Machine.execIns n k s
  | .get n k => Sys2Proof.Machine.execGet n k s
  | .ld n k => Sys2Proof.Machine.execLd n k s
  | .st n k => Sys2Proof.Machine.execSt n k s
  | .tld n k => Sys2Proof.Machine.execTld n k s
  | .beq n k => Sys2Proof.Machine.execBeq n k s
  | .bne n k => Sys2Proof.Machine.execBne n k s
  | .blt n k => Sys2Proof.Machine.execBlt n k s
  | .bge n k => Sys2Proof.Machine.execBge n k s
  | .bltu n k => Sys2Proof.Machine.execBltu n k s
  | .bgeu n k => Sys2Proof.Machine.execBgeu n k s
  | .bz n k => Sys2Proof.Machine.execBz n k s
  | .bnz n k => Sys2Proof.Machine.execBnz n k s
  | .j n k => Sys2Proof.Machine.execJ n k s
  | .jal n k => Sys2Proof.Machine.execJal n k s
  | .jr n k => Sys2Proof.Machine.execJr n k s
  | .wait n k => Sys2Proof.Machine.execWait n k s
  | .waite n k => Sys2Proof.Machine.execWaite n k s
  | .evclr n k => Sys2Proof.Machine.execEvclr n k s
  | .dln n k => Sys2Proof.Machine.execDln n k s
  | .fence n k => Sys2Proof.Machine.execFence n k s
  | .halt n k => Sys2Proof.Machine.execHalt n k s
  | .pop n k => Sys2Proof.Machine.execPop n k s
  | .popr n k => Sys2Proof.Machine.execPopr n k s
  | .push n k => Sys2Proof.Machine.execPush n k s
  | .pushr n k => Sys2Proof.Machine.execPushr n k s
  | .ldn n k => Sys2Proof.Machine.execLdn n k s
  | .stn n k => Sys2Proof.Machine.execStn n k s
  | .ldn4 n k => Sys2Proof.Machine.execLdn4 n k s
  | .stn4 n k => Sys2Proof.Machine.execStn4 n k s
  | .aadd n k => Sys2Proof.Machine.execAadd n k s
  | .aswp n k => Sys2Proof.Machine.execAswp n k s
  | .edge n k => Sys2Proof.Machine.execEdge n k s
  | .edgel n k => Sys2Proof.Machine.execEdgel n k s
  | .edger n k => Sys2Proof.Machine.execEdger n k s
  | .illegalInstruction n k => Sys2Proof.Machine.execIllegalInstruction n k s
  | .engineNocResponse n tag code qout data => Sys2Proof.Machine.execEngineNocResponse n tag code qout data s
  | .waitTickExpiry n k => Sys2Proof.Machine.execWaitTickExpiry n k s
  | .deadlineMiss n k => Sys2Proof.Machine.execDeadlineMiss n k s
  | .edgeEventArrive p => Sys2Proof.Machine.execEdgeEventArrive p s
  | .edgeRelease p => Sys2Proof.Machine.execEdgeRelease p s
  | .edgeFire p => Sys2Proof.Machine.execEdgeFire p s
  | .edgeCreditReturn p => Sys2Proof.Machine.execEdgeCreditReturn p s
  | .engMemWalk n d upset => Sys2Proof.Machine.execEngMemWalk n d upset s
  | .engMemWriteback n d => Sys2Proof.Machine.execEngMemWriteback n d s
  | .engClrCounts n => Sys2Proof.Machine.execEngClrCounts n s
  | .clusterEnable c => Sys2Proof.Machine.execClusterEnable c s
  | .clusterDisable c => Sys2Proof.Machine.execClusterDisable c s
  | .clusterWipeDone c => Sys2Proof.Machine.execClusterWipeDone c s
  | .clusterParked c => Sys2Proof.Machine.execClusterParked c s
  | .clusterParkTimeout c => Sys2Proof.Machine.execClusterParkTimeout c s
  | .clusterDrainIdle c => Sys2Proof.Machine.execClusterDrainIdle c s
  | .clusterDrainTimeout c => Sys2Proof.Machine.execClusterDrainTimeout c s
  | .engLoad q n mem offset len src => Sys2Proof.Machine.execEngLoad q n mem offset len src s
  | .engCtxStart q n k pc deadline v0 => Sys2Proof.Machine.execEngCtxStart q n k pc deadline v0 s
  | .engCtxStop q n k mode => Sys2Proof.Machine.execEngCtxStop q n k mode s
  | .engCtxRead q n k first => Sys2Proof.Machine.execEngCtxRead q n k first s
  | .engClusterEnable q c en => Sys2Proof.Machine.execEngClusterEnable q c en s
  | .engPinAssign q p owner ovf late => Sys2Proof.Machine.execEngPinAssign q p owner ovf late s
  | .engMemRead q n mem offset => Sys2Proof.Machine.execEngMemRead q n mem offset s
  | .engStatus q c => Sys2Proof.Machine.execEngStatus q c s
  | .queuePush r half => Sys2Proof.Machine.execQueuePush r half s
  | .queuePop r half => Sys2Proof.Machine.execQueuePop r half s
  | .queueStaleTimer q => Sys2Proof.Machine.execQueueStaleTimer q s
  | .doorbellPush q hi => Sys2Proof.Machine.execDoorbellPush q hi s
  | .doorbellReadResponse q resp item => Sys2Proof.Machine.execDoorbellReadResponse q resp item s
  | .doorbellPop q hi => Sys2Proof.Machine.execDoorbellPop q hi s
  | .doorbellRecordWritten q resp => Sys2Proof.Machine.execDoorbellRecordWritten q resp s
  | .queueSpillDone v resp => Sys2Proof.Machine.execQueueSpillDone v resp s
  | .queuePrefetchDone v resp => Sys2Proof.Machine.execQueuePrefetchDone v resp s
  | .qmPageCopyDone v => Sys2Proof.Machine.execQmPageCopyDone v s
  | .qmAutoGrantBank0 => Sys2Proof.Machine.execQmAutoGrantBank0 s
  | .qmStaleEnWrite en => Sys2Proof.Machine.execQmStaleEnWrite en s
  | .qmGrpClrCounts g => Sys2Proof.Machine.execQmGrpClrCounts g s
  | .queueCreate q queue access prefetch capacity base count stale flags => Sys2Proof.Machine.execQueueCreate q queue access prefetch capacity base count stale flags s
  | .queueDestroy q queue => Sys2Proof.Machine.execQueueDestroy q queue s
  | .queueGet q queue select => Sys2Proof.Machine.execQueueGet q queue select s
  | .queueSet q queue access prefetch stale flags => Sys2Proof.Machine.execQueueSet q queue access prefetch stale flags s
  | .queueReset q queue => Sys2Proof.Machine.execQueueReset q queue s
  | .queuePushCmd q queue item => Sys2Proof.Machine.execQueuePushCmd q queue item s
  | .queuePopCmd q queue => Sys2Proof.Machine.execQueuePopCmd q queue s
  | .queueGroupStats q g => Sys2Proof.Machine.execQueueGroupStats q g s
  | .queuePoolStatus q => Sys2Proof.Machine.execQueuePoolStatus q s
  | .nocInject x => Sys2Proof.Machine.execNocInject x s
  | .nocHop p j flips => Sys2Proof.Machine.execNocHop p j flips s
  | .nocDeliver port => Sys2Proof.Machine.execNocDeliver port s
  | .nocLinkReplay port unit => Sys2Proof.Machine.execNocLinkReplay port unit s
  | .nocEpochSwitch busy => Sys2Proof.Machine.execNocEpochSwitch busy s
  | .nocEpochRetire => Sys2Proof.Machine.execNocEpochRetire s
  | .nocClrStats => Sys2Proof.Machine.execNocClrStats s
  | .nocHmCfgWrite m en port => Sys2Proof.Machine.execNocHmCfgWrite m en port s
  | .scratchRead r upset => Sys2Proof.Machine.execScratchRead r upset s
  | .scratchWrite r upset => Sys2Proof.Machine.execScratchWrite r upset s
  | .scratchAtomicAdd r upset => Sys2Proof.Machine.execScratchAtomicAdd r upset s
  | .scratchAtomicSwap r upset => Sys2Proof.Machine.execScratchAtomicSwap r upset s
  | .scratchWriteback b => Sys2Proof.Machine.execScratchWriteback b s
  | .scratchOwnerWrite b kind index wipe => Sys2Proof.Machine.execScratchOwnerWrite b kind index wipe s
  | .scratchDrainDone b => Sys2Proof.Machine.execScratchDrainDone b s
  | .scratchWipeDone b => Sys2Proof.Machine.execScratchWipeDone b s
  | .scratchGroupClearDone g => Sys2Proof.Machine.execScratchGroupClearDone g s
  | .scratchScrubRead upset => Sys2Proof.Machine.execScratchScrubRead upset s
  | .scratchScrubGapEnd => Sys2Proof.Machine.execScratchScrubGapEnd s
  | .spdClrCounts => Sys2Proof.Machine.execSpdClrCounts s
  | .scrGrantQm q b => Sys2Proof.Machine.execScrGrantQm q b s
  | .scrReturnQm q b kind index => Sys2Proof.Machine.execScrReturnQm q b kind index s
  | .scrSetOwner q b kind index wipe => Sys2Proof.Machine.execScrSetOwner q b kind index wipe s
  | .scrGroupStatus q g => Sys2Proof.Machine.execScrGroupStatus q g s
  | .scrReadUnit q b u => Sys2Proof.Machine.execScrReadUnit q b u s
  | .dramRead r upset acts => Sys2Proof.Machine.execDramRead r upset acts s
  | .dramWrite r upset acts => Sys2Proof.Machine.execDramWrite r upset acts s
  | .dramCaParityAlert c => Sys2Proof.Machine.execDramCaParityAlert c s
  | .dramRefresh c hot postpone => Sys2Proof.Machine.execDramRefresh c hot postpone s
  | .dramActWindowClear => Sys2Proof.Machine.execDramActWindowClear s
  | .ddrInitDone c => Sys2Proof.Machine.execDdrInitDone c s
  | .ddrSweepDone c failed found width nibble => Sys2Proof.Machine.execDdrSweepDone c failed found width nibble s
  | .ddrFillDone c => Sys2Proof.Machine.execDdrFillDone c s
  | .ddrDrainDone c => Sys2Proof.Machine.execDdrDrainDone c s
  | .ddrSelfRefreshEntered c => Sys2Proof.Machine.execDdrSelfRefreshEntered c s
  | .ddrUnfreezeDone u => Sys2Proof.Machine.execDdrUnfreezeDone u s
  | .ddrScrubRead c upset acts => Sys2Proof.Machine.execDdrScrubRead c upset acts s
  | .ddrScrubGapEnd c => Sys2Proof.Machine.execDdrScrubGapEnd c s
  | .ddrClrCounts c => Sys2Proof.Machine.execDdrClrCounts c s
  | .ddrMarkWrite u v => Sys2Proof.Machine.execDdrMarkWrite u v s
  | .ddrChEnable q c en => Sys2Proof.Machine.execDdrChEnable q c en s
  | .ddrChStatus q c => Sys2Proof.Machine.execDdrChStatus q c s
  | .ddrUnfreeze q u mode => Sys2Proof.Machine.execDdrUnfreeze q u mode s
  | .ddrSweep q c keep => Sys2Proof.Machine.execDdrSweep q c keep s
  | .ddrMarkChip q u rank chip => Sys2Proof.Machine.execDdrMarkChip q u rank chip s
  | .laneQcmdDisable q => Sys2Proof.Machine.execLaneQcmdDisable q s
  | .laneQcmdEnable q => Sys2Proof.Machine.execLaneQcmdEnable q s
  | .laneQcmdSleep q => Sys2Proof.Machine.execLaneQcmdSleep q s
  | .laneQcmdWake q => Sys2Proof.Machine.execLaneQcmdWake q s
  | .quadWakeDone q => Sys2Proof.Machine.execQuadWakeDone q s
  | .quadDrainIdle q => Sys2Proof.Machine.execQuadDrainIdle q s
  | .quadDrainTimeout q => Sys2Proof.Machine.execQuadDrainTimeout q s
  | .quadRefLost q => Sys2Proof.Machine.execQuadRefLost q s
  | .quadRefReturn q => Sys2Proof.Machine.execQuadRefReturn q s
  | .laneLos l => Sys2Proof.Machine.execLaneLos l s
  | .laneRxLock l => Sys2Proof.Machine.execLaneRxLock l s
  | .laneRxCharacter l v => Sys2Proof.Machine.execLaneRxCharacter l v s
  | .laneRxFlushTimer l => Sys2Proof.Machine.execLaneRxFlushTimer l s
  | .laneStreamResponse l tx unit code data => Sys2Proof.Machine.execLaneStreamResponse l tx unit code data s
  | .laneRxRptrWrite l v => Sys2Proof.Machine.execLaneRxRptrWrite l v s
  | .laneTxWptrWrite l v => Sys2Proof.Machine.execLaneTxWptrWrite l v s
  | .laneCfgWrite l v => Sys2Proof.Machine.execLaneCfgWrite l v s
  | .laneQcfgWrite q v => Sys2Proof.Machine.execLaneQcfgWrite q v s
  | .ethCfgWrite p v => Sys2Proof.Machine.execEthCfgWrite p v s
  | .ethRxFrame p sub whole => Sys2Proof.Machine.execEthRxFrame p sub whole s
  | .ethTxRecord p sub code rec_ => Sys2Proof.Machine.execEthTxRecord p sub code rec_ s
  | .ethLinkUp p => Sys2Proof.Machine.execEthLinkUp p s
  | .ethLinkLoss p loc rem => Sys2Proof.Machine.execEthLinkLoss p loc rem s
  | .tcCopySend p sub => Sys2Proof.Machine.execTcCopySend p sub s
  | .pcieHostRequest f len write data => Sys2Proof.Machine.execPcieHostRequest f len write data s
  | .pcieLinkUp width rate => Sys2Proof.Machine.execPcieLinkUp width rate s
  | .pcieLinkDown => Sys2Proof.Machine.execPcieLinkDown s
  | .pciePerst => Sys2Proof.Machine.execPciePerst s
  | .pcieHotReset => Sys2Proof.Machine.execPcieHotReset s
  | .pcieFlr => Sys2Proof.Machine.execPcieFlr s
  | .laneQuadSet q quad m baud keep => Sys2Proof.Machine.execLaneQuadSet q quad m baud keep s
  | .laneQuadPower q quad a => Sys2Proof.Machine.execLaneQuadPower q quad a s
  | .laneStreamSet q l dir base size flush free => Sys2Proof.Machine.execLaneStreamSet q l dir base size flush free s
  | .laneStreamRestart q l dir => Sys2Proof.Machine.execLaneStreamRestart q l dir s
  | .ethPortSet q p speed fec mac flags => Sys2Proof.Machine.execEthPortSet q p speed fec mac flags s
  | .ethPortStatus q p => Sys2Proof.Machine.execEthPortStatus q p s
  | .laneStatus q l => Sys2Proof.Machine.execLaneStatus q l s
  | .timSnap => Sys2Proof.Machine.execTimSnap s
  | .timOffset e => Sys2Proof.Machine.execTimOffset e s
  | .servoEnSet => Sys2Proof.Machine.execServoEnSet s
  | .servoEnClear => Sys2Proof.Machine.execServoEnClear s
  | .forceHoldSet => Sys2Proof.Machine.execForceHoldSet s
  | .forceHoldClear => Sys2Proof.Machine.execForceHoldClear s
  | .servoTimeout => Sys2Proof.Machine.execServoTimeout s
  | .holdLimitExpiry => Sys2Proof.Machine.execHoldLimitExpiry s
  | .timeGet q => Sys2Proof.Machine.execTimeGet q s
  | .timeServoSet q kp ki count bound step timeout limit => Sys2Proof.Machine.execTimeServoSet q kp ki count bound step timeout limit s
  | .timeSet q mode tick sec ns frac => Sys2Proof.Machine.execTimeSet q mode tick sec ns frac s
  | .timeTcSet q ports domain all => Sys2Proof.Machine.execTimeTcSet q ports domain all s
  | .timeTsRead q p => Sys2Proof.Machine.execTimeTsRead q p s
  | .timePtpConfig q p domain transport logSync role => Sys2Proof.Machine.execTimePtpConfig q p domain transport logSync role s
  | .timePtpStatus q => Sys2Proof.Machine.execTimePtpStatus q s
  | .timeHoldover q enter => Sys2Proof.Machine.execTimeHoldover q enter s
  | .mbxDoorbell m tail => Sys2Proof.Machine.execMbxDoorbell m tail s
  | .mbxRspHeadWrite m head => Sys2Proof.Machine.execMbxRspHeadWrite m head s
  | .mbxTakeCommand m staged => Sys2Proof.Machine.execMbxTakeCommand m staged s
  | .mbxDeadline m seq => Sys2Proof.Machine.execMbxDeadline m seq s
  | .mbxResync m => Sys2Proof.Machine.execMbxResync m s
  | .mbxEncV1Write m v => Sys2Proof.Machine.execMbxEncV1Write m v s
  | .spiFrame op o n data => Sys2Proof.Machine.execSpiFrame op o n data s
  | .i2cFrame addr write o n data => Sys2Proof.Machine.execI2cFrame addr write o n data s
  | .jtagMbxacc dr => Sys2Proof.Machine.execJtagMbxacc dr s
  | .sorrelLockstepMismatch sramUe => Sys2Proof.Machine.execSorrelLockstepMismatch sramUe s
  | .sorrelRestartDone => Sys2Proof.Machine.execSorrelRestartDone s
  | .devHeartbeat sramCe => Sys2Proof.Machine.execDevHeartbeat sramCe s
  | .evtRaise n => Sys2Proof.Machine.execEvtRaise n s
  | .evtVecAck v => Sys2Proof.Machine.execEvtVecAck v s
  | .msixSend v => Sys2Proof.Machine.execMsixSend v s
  | .tempSensorRead east hub west => Sys2Proof.Machine.execTempSensorRead east hub west s
  | .devIdentify q => Sys2Proof.Machine.execDevIdentify q s
  | .devModeSet q target => Sys2Proof.Machine.execDevModeSet q target s
  | .devHold q => Sys2Proof.Machine.execDevHold q s
  | .devReset q => Sys2Proof.Machine.execDevReset q s
  | .mbxStatus q m => Sys2Proof.Machine.execMbxStatus q m s
  | .restartDelayExpiry => Sys2Proof.Machine.execRestartDelayExpiry s
  | .diagEcho q data => Sys2Proof.Machine.execDiagEcho q data s
  | .diagRead q addr size => Sys2Proof.Machine.execDiagRead q addr size s
  | .diagWrite q addr size data => Sys2Proof.Machine.execDiagWrite q addr size data s
  | .diagRaise q n => Sys2Proof.Machine.execDiagRaise q n s
  | .diagSorrel q => Sys2Proof.Machine.execDiagSorrel q s
  | .diagEventLog q first => Sys2Proof.Machine.execDiagEventLog q first s
  | .sourceShowsEdges src => Sys2Proof.Machine.execSourceShowsEdges src s
  | .clkReturnTimeout => Sys2Proof.Machine.execClkReturnTimeout s
  | .clkTestEdgeTimeout => Sys2Proof.Machine.execClkTestEdgeTimeout s
  | .laneRxLockLost l => Sys2Proof.Machine.execLaneRxLockLost l s
  | .laneSignalReturn l => Sys2Proof.Machine.execLaneSignalReturn l s
  | .laneTxCharacter l => Sys2Proof.Machine.execLaneTxCharacter l s
  | .ptpFrameSend p sub f twoStep => Sys2Proof.Machine.execPtpFrameSend p sub f twoStep s
  | .flashWriteDone good => Sys2Proof.Machine.execFlashWriteDone good s
  | .ownerKeyFused => Sys2Proof.Machine.execOwnerKeyFused s
  | .prechargePowerDown c => Sys2Proof.Machine.execPrechargePowerDown c s

end Sys2Proof.Machine
end

