-- ==== Sys2Proof/Machine/Step.lean ====
section
/-! DEFINITION. One step of the block: the command at the front of the queue, or, with no command waiting, one cycle of the
timebase and of the fabric's clock lines. -/

namespace Sys2Proof.Machine

/-- The queue gives its front command to `exec`, which runs it on the state with the queue's rest; an empty queue lets the
timebase count one cycle and the user logic see it (R490, R48; logs 16, 48). -/
def step (s : State) : Host.Outcome State Fault Refusal :=
  match s.pending with
  | [] => .next (fabricCycle (timebaseCycle s))
  | c :: rest => exec c { s with pending := rest }

/-- The state with the command that a table word spells at the front of its queue; no word spells one (log 4). -/
def State.withFetchWord (s : State) (nbits w : Nat) : State :=
  match Sys2Proof.decodeTableWord nbits w with
  | some c => { s with pending := c :: s.pending }
  | none => s

end Sys2Proof.Machine
end

