-- ==== Sys2Proof/WellFormed.lean ====
section
/-! DEFINITION. Which commands are well formed: every operand lies in the range that the rules give its object or field.
The meanings hold for every operand; an object outside its range names nothing, and a field's value counts modulo its width
(R605). -/

namespace Sys2Proof

/-- Every value of a list is below a bound. -/
def allBelow (b : Nat) (l : List Nat) : Bool := l.all (· < b)

/-- R605, R601: the header of a command: one of 18 mailboxes, SEQ of 16 bits, TAG and DEADLINE_MS of 32. -/
def CmdCtx.wf (q : CmdCtx) : Bool := q.mbx < 18 && q.seq < 2 ^ 16 && q.tag < 2 ^ 32 && q.deadline < 2 ^ 32

/-- R310, R421: a source class of three bits and an index of seven. -/
def Initiator.wf (i : Initiator) : Bool := i.cls < 8 && i.index < 128

/-- R310: a request carries at most 256 bytes, one enable bit for each byte of its data. -/
def Req.wf (r : Req) : Bool :=
  r.src.wf && r.size ≤ 256 && r.data.length ≤ r.size && r.enables < 2 ^ 256 && r.addr < 2 ^ 64

/-- R310 to R313: a packet as a local port is given it. -/
def Inject.wf (x : Inject) : Bool :=
  x.src.wf && x.port < 1024 && x.dest < 1024 && x.opcode < 256 && x.addr < 2 ^ 64 && x.data.length ≤ 8

/-- R605: command fields of one, two, four and eight bytes. -/
def fields (b w d q : List Nat) : Bool :=
  allBelow (2 ^ 8) b && allBelow (2 ^ 16) w && allBelow (2 ^ 32) d && allBelow (2 ^ 64) q

/-- A command is well formed. -/
def Instr.wf : Instr → Bool
  -- Reset, registers
  | .porNAssert | .supplyMonitorTrip | .holdTileTimeout => true
  | .porNRelease _ m _ | .resetReleaseTimer _ m _ | .cfgRestart m _ => m < 8
  | .holdNLow _ => true
  | .holdTileIdle t => t < 96
  | .registerWrite _ off size val _ => off < 2 ^ 26 && val < 256 ^ size
  | .latchedLoRead src _ off => src.wf && off < 2 ^ 26
  -- Clocks
  | .dividerRampStep d => d < 4
  | .xoEdgeTimeout | .rootPllLock | .vcoGlideDone | .sourceShowsEdges _ | .clkReturnTimeout | .clkTestEdgeTimeout => true
  | .sourceTestDone t _ _ => t < 2
  | .clockMonitorTrip cause => cause < 4
  | .clkTrimDivWrite d v => d < 4 && v < 2 ^ 16
  | .clkStatus q | .clkReturn q => q.wf
  | .clkSourceSet q a b c d e => q.wf && fields [a, b, c, d, e] [] [] []
  | .clkTrimSet q a b c => q.wf && fields [] [a, b, c] [] []
  | .clkTest q a b => q.wf && fields [a, b] [] [] []
  -- The current governor
  | .govDecision | .currentReady => true
  | .govLongWait sp | .curClrPeak sp => sp < 3
  | .curStatus q => q.wf
  | .curQueueRead q sp first => q.wf && fields [sp] [first] [] []
  | .curHoldings q sp => q.wf && fields [sp] [] [] []
  -- Rights, key, lifecycle
  | .keyAttemptDone _ | .scmBypassWrite _ | .accTablePropagated | .lcsArmTimeout | .lcsFuseBlown => true
  | .accSetEntry q e c b l => q.wf && fields [e] [] [c, b, l] []
  | .accGetEntry q e => q.wf && fields [e] [] [] []
  | .accViolLog q | .scmStatus q => q.wf
  | .lcsArm q t => q.wf && fields [t] [] [] []
  | .lcsCommit q t n => q.wf && fields [t] [n] [] []
  -- Loading and firmware
  | .fwBootStart flash => flash.all fun f => f.dirA.length = 128 && f.dirB.length = 128
  | .cfgHeaderCheckDone _ | .cfgSectionEnd _ _ | .cfgStallTimeout | .cfgNoImageTimeout
  | .chainClkPauseEnd | .startupStep | .cfgFailWipeDone | .cfgAbort | .trialWindowWarning | .trialWindowExpiry
  | .arbStepBlown | .flashWriteDone _ | .ownerKeyFused => true
  | .cfgFrame head _ _ => head.length ≤ 16
  | .cfgPllLockTimeout n => n < 24
  | .cfgStatus q | .cfgBaseTrial q | .healthConfirm q | .fwStatus q => q.wf
  | .cfgLoadHost q addr len | .cfgBaseStage q addr len _ | .fwStage q addr len _ => q.wf && fields [] [] [len] [addr]
  | .cfgReload q hold => q.wf && fields [hold] [] [] []
  | .cfgOwnerKey q addr => q.wf && fields [] [] [] [addr]
  | .fwTrial q window withBase => q.wf && fields [withBase] [window] [] []
  -- The fabric
  | .fpllApply n | .fpllEnable n | .fpllLock n | .fpllLockLoss n => n < 24
  | .tileEnable t | .tileDisable t | .tileDrainIdle t | .tileDrainTimeout t => t < 96
  | .fabricPortRequest t _ data check => t < 96 && data.length ≤ 8 && check.length ≤ 9
  | .fabricPortResponse t src _ code _ => t < 96 && src.wf && code < 6
  | .fabricPortCreditReturn t n => t < 96 && n ≤ 16
  | .fabricInboundTimeout t src _ => t < 96 && src.wf
  | .bramRead t m _ addr _ _ _ => t < 96 && m < 48 && addr < 2 ^ 16
  | .bramWrite t m _ addr en data _ _ _ => t < 96 && m < 48 && addr < 2 ^ 16 && en < 2 ^ 9 && data < 2 ^ 72
  | .bramScrubSlot _ | .bramScrubGapEnd | .bramClrCounts => true
  -- Spans
  | .spanPersInstall q pers maxRes depth stageAddr stageLen imageAddr stateAddr _ =>
    q.wf && fields [] [pers, maxRes, depth] [stageLen] [stageAddr, imageAddr, stateAddr]
  | .spanPersGet q pers | .spanUnpin q pers | .spanPersRemove q pers => q.wf && fields [] [pers] [] []
  | .spanBind q queue pers => q.wf && fields [] [queue, pers] [] []
  | .spanSlotEnable q i en => q.wf && fields [i, en] [] [] []
  | .spanLoad q pers x | .spanPersReset q pers x => q.wf && fields [x] [pers] [] []
  | .spanEvict q i | .spanSlotStatus q i => q.wf && fields [i] [] [] []
  | .spanIdleTimer i | .spanMaxResExpiry i | .spanStartStep i | .spanDrainIdle i | .spanDrainTimeout i
  | .spanSaveDone i _ | .spanSaveFail ⟨i, _⟩ | .spanWipeDone i | .spanHeaderChecked i _ _ | .spanFrame i _ _ _ _ _ => i < 64
  -- Engine instructions: engine 0 to 95, context 0 to 3
  | .alu n k | .addi n k | .andi n k | .ori n k | .xori n k | .shi n k | .movw n k | .ext n k | .ins n k | .get n k
  | .ld n k | .st n k | .tld n k | .beq n k | .bne n k | .blt n k | .bge n k | .bltu n k | .bgeu n k | .bz n k | .bnz n k
  | .j n k | .jal n k | .jr n k | .wait n k | .waite n k | .evclr n k | .dln n k | .fence n k | .halt n k | .pop n k
  | .popr n k | .push n k | .pushr n k | .ldn n k | .stn n k | .ldn4 n k | .stn4 n k | .aadd n k | .aswp n k | .edge n k
  | .edgel n k | .edger n k | .illegalInstruction n k | .waitTickExpiry n k | .deadlineMiss n k => n < 96 && k < 4
  -- Engines, pins, clusters
  | .engineNocResponse n _ code _ data => n < 96 && code < 8 && data.length ≤ 32
  | .edgeEventArrive p | .edgeRelease p | .edgeFire p | .edgeCreditReturn p => p < 960
  | .engMemWalk n _ _ | .engMemWriteback n _ | .engClrCounts n => n < 96
  | .clusterEnable c | .clusterDisable c | .clusterWipeDone c | .clusterParked c | .clusterParkTimeout c
  | .clusterDrainIdle c | .clusterDrainTimeout c => c < 12
  | .engLoad q n mem offset len src => q.wf && fields [n, mem] [offset] [len] [src]
  | .engCtxStart q n k pc _ _ => q.wf && fields [n, k] [pc] [] []
  | .engCtxStop q n k x | .engCtxRead q n k x => q.wf && fields [n, k, x] [] [] []
  | .engClusterEnable q c en => q.wf && fields [c, en] [] [] []
  | .engPinAssign q p owner ovf late => q.wf && fields [owner, ovf, late] [p] [] []
  | .engMemRead q n mem offset => q.wf && fields [n, mem] [offset] [] []
  | .engStatus q c => q.wf && fields [c] [] [] []
  -- Queues
  | .queuePush r half | .queuePop r half => r.wf && half < 2
  | .queueStaleTimer q => q < 2 ^ 16
  | .doorbellPush q hi | .doorbellPop q hi => q < 2 ^ 16 && hi < 2 ^ 32
  | .doorbellReadResponse q resp _ | .doorbellRecordWritten q resp => q < 2 ^ 16 && resp < 8
  | .queueSpillDone v resp | .queuePrefetchDone v resp => v < 2 ^ 21 && resp < 8
  | .qmPageCopyDone v => v < 2 ^ 21
  | .qmAutoGrantBank0 | .qmStaleEnWrite _ => true
  | .qmGrpClrCounts g => g < 32
  | .queueCreate q queue access prefetch capacity base count stale flags =>
    q.wf && fields [access, prefetch, flags] [queue] [capacity, base, count, stale] []
  | .queueDestroy q queue | .queueReset q queue | .queuePushCmd q queue _ | .queuePopCmd q queue =>
    q.wf && fields [] [queue] [] []
  | .queueGet q queue select => q.wf && fields [select] [queue] [] []
  | .queueSet q queue access prefetch stale flags => q.wf && fields [access, prefetch, flags] [queue] [stale] []
  | .queueGroupStats q g => q.wf && fields [g] [] [] []
  | .queuePoolStatus q => q.wf
  -- The network
  | .nocInject x => x.wf
  | .nocHop p l flips => p < 120 && l < 8 && flips.length ≤ 9
  | .nocLinkReplay port u => port < 960 && port % 8 < 7 && u < 9
  | .nocDeliver port => port < 1024
  | .nocEpochSwitch busy => allBelow 120 busy
  | .nocEpochRetire | .nocClrStats => true
  | .nocHmCfgWrite m _ port => m < 16 && port < 1024
  -- Scratch and DRAM
  | .scratchRead r _ | .scratchWrite r _ | .scratchAtomicAdd r _ | .scratchAtomicSwap r _ => r.wf
  | .scratchWriteback b | .scratchDrainDone b | .scratchWipeDone b => b < 256
  | .scratchOwnerWrite b kind index _ => b < 256 && kind < 16 && index < 128
  | .scratchGroupClearDone g => g < 32
  | .scratchScrubRead _ | .scratchScrubGapEnd | .spdClrCounts => true
  | .scrGrantQm q b => q.wf && fields [b] [] [] []
  | .scrReturnQm q b kind index => q.wf && fields [b, kind, index] [] [] []
  | .scrSetOwner q b kind index wipe => q.wf && fields [b, kind, index, wipe] [] [] []
  | .scrGroupStatus q g => q.wf && fields [g] [] [] []
  | .scrReadUnit q b u => q.wf && fields [b] [u] [] []
  | .dramRead r _ _ | .dramWrite r _ _ => r.wf
  | .dramActWindowClear => true
  | .dramCaParityAlert c | .dramRefresh c _ _ | .ddrInitDone c | .ddrSweepDone c _ _ _ _ | .ddrFillDone c
  | .ddrDrainDone c | .ddrSelfRefreshEntered c | .ddrScrubRead c _ _ | .ddrScrubGapEnd c | .ddrClrCounts c
  | .prechargePowerDown c => c < 8
  | .ddrUnfreezeDone u => u < 16
  | .ddrMarkWrite u v => u < 16 && v < 2 ^ 32
  | .ddrChEnable q x y | .ddrUnfreeze q x y | .ddrSweep q x y => q.wf && fields [x, y] [] [] []
  | .ddrChStatus q c => q.wf && fields [c] [] [] []
  | .ddrMarkChip q u rank chip => q.wf && fields [u, rank, chip] [] [] []
  -- Lanes, Ethernet, PCIe
  | .laneQcmdDisable q | .laneQcmdEnable q | .laneQcmdSleep q | .laneQcmdWake q | .quadWakeDone q | .quadDrainIdle q
  | .quadDrainTimeout q | .quadRefLost q | .quadRefReturn q => q < 20
  | .laneLos l | .laneRxLock l | .laneRxLockLost l | .laneSignalReturn l | .laneTxCharacter l
  | .laneRxFlushTimer l => l < 80
  | .laneRxCharacter l v => l < 80 && v < 2 ^ 10
  | .laneStreamResponse l _ _ code _ => l < 80 && code < 8
  | .laneRxRptrWrite l v | .laneTxWptrWrite l v | .laneCfgWrite l v => l < 80 && v < 2 ^ 32
  | .laneQcfgWrite q v => q < 20 && v < 2 ^ 32
  | .ethCfgWrite p v => p < 8 && v < 2 ^ 32
  | .ethRxFrame p sub _ | .tcCopySend p sub | .ptpFrameSend p sub _ _ => p < 8 && sub < 16
  | .ethTxRecord p sub code _ => p < 8 && sub < 16 && code < 8
  | .ethLinkUp p | .ethLinkLoss p _ _ => p < 8
  | .pcieHostRequest f len _ _ => f < 2 ^ 28 && len ≤ 4096
  | .pcieLinkUp width rate => width ≤ 16 && rate < 8
  | .pcieLinkDown | .pciePerst | .pcieHotReset | .pcieFlr => true
  | .laneQuadSet q quad m baud keep => q.wf && fields [quad, m, keep] [] [baud] []
  | .laneQuadPower q x y | .laneStreamRestart q x y => q.wf && fields [x, y] [] [] []
  | .laneStreamSet q l dir base size flush free => q.wf && fields [l, dir, size, flush, free] [] [] [base]
  | .ethPortSet q p speed fec _ flags => q.wf && fields [p, speed, fec, flags] [] [] []
  | .ethPortStatus q p => q.wf && fields [p] [] [] []
  | .laneStatus q l => q.wf && fields [l] [] [] []
  -- Time
  | .timSnap | .timOffset _ | .servoEnSet | .servoEnClear | .forceHoldSet | .forceHoldClear | .servoTimeout
  | .holdLimitExpiry => true
  | .timeGet q | .timePtpStatus q => q.wf
  | .timeServoSet q a b c d e f g => q.wf && fields [a, b, c] [d, e, f, g] [] []
  | .timeSet q mode tick sec ns frac => q.wf && fields [mode] [frac] [ns] [tick] && sec < 2 ^ 48
  | .timeTcSet q a b c => q.wf && fields [a, b, c] [] [] []
  | .timeTsRead q p | .timeHoldover q p => q.wf && fields [p] [] [] []
  | .timePtpConfig q a b c d e => q.wf && fields [a, b, c, d, e] [] [] []
  -- Management
  | .mbxDoorbell m x | .mbxRspHeadWrite m x | .mbxDeadline m x => m < 18 && x < 2 ^ 16
  | .mbxTakeCommand m _ | .mbxResync m | .mbxEncV1Write m _ => m < 18
  | .spiFrame op o _ _ => op < 256 && o < 2 ^ 24
  | .i2cFrame addr _ o _ _ => addr < 128 && o < 2 ^ 24
  | .jtagMbxacc _ | .sorrelLockstepMismatch _ | .sorrelRestartDone | .devHeartbeat _ | .tempSensorRead _ _ _
  | .restartDelayExpiry => true
  | .evtRaise n => n < 384
  | .evtVecAck v | .msixSend v => v < 64
  | .devIdentify q | .devHold q | .devReset q | .diagSorrel q => q.wf
  | .devModeSet q x | .mbxStatus q x => q.wf && fields [x] [] [] []
  | .diagEcho q data => q.wf && data.length ≤ 240
  | .diagRead q addr size => q.wf && fields [size] [] [] [addr]
  | .diagWrite q addr size data => q.wf && fields [size] [] [] [addr] && data.length ≤ 224
  | .diagRaise q n | .diagEventLog q n => q.wf && fields [] [n] [] []

end Sys2Proof
end

