-- ==== Sys2Proof/Safety.lean ====
section
/-! DEFINITION. What a safe run is: a command completes, it is answered once, and what it does not change stays. The terms
the statements use. -/

namespace Sys2Proof.Machine

/-- Command `c` completes in `s` with a next state of which `P` holds. -/
def Answers (c : Instr) (s : State) (P : State → Prop) : Prop := ∃ t, exec c s = .next t ∧ P t

/-! ### Commands of a mailbox -/

/-- R605 to R607, R611 to R613: the ring of mailbox `q.mbx` is empty, Sorrel may take a command there and it is its turn, and one of opcode `op`
with `len` payload bytes passes checks 1 to 4 of R607. -/
abbrev MayIssue (q : CmdCtx) (op len : Nat) (s : State) : Prop :=
  canTake q.mbx s = true ∧ ownTurn q.mbx s = true ∧ (s.mailbox q.mbx).cmdHead = (s.mailbox q.mbx).cmdTail
    ∧ q.seq = (s.mailbox q.mbx).expectSeq ∧ len ≤ (if (s.mailbox q.mbx).encV1 then 56 else 240)
    ∧ classRefuses q.mbx op s = false ∧ ((s.mailbox q.mbx).encV1 && longReply op) = false

/-- A command as Sorrel records it when it takes it. -/
def takenTask (q : CmdCtx) (op : Nat) (s : State) : Task :=
  let b := s.mailbox q.mbx
  { opcode := op, seq := q.seq, tag := q.tag, ordered := q.ordered || b.encV1
    deadline := if b.encV1 then 0 else q.deadline, taken := s.now, slots := reserveOf b, obj := 0, arg := 0 }

/-- R603 to R607: between `s` and `t` mailbox `q.mbx` took one message and was given one response: status `st`, RFLAGS FINAL
as `final` says, payload `data`, in the ring where the response tail stood; the tail moved past it, EXPECT_SEQ by one, and no
other mailbox changed. -/
def Replied (q : CmdCtx) (op st : Nat) (final : Bool) (data : List Byte) (s t : State) : Prop :=
  let b := s.mailbox q.mbx
  let u := t.mailbox q.mbx
  ringLoad u.rspRing (64 * (b.rspTail % 16)) ((if b.encV1 then 8 else 16) + data.length)
      = responseBytes b.encV1 s (takenTask q op s) st final false false data
    ∧ u.rspTail = (b.rspTail + slotsOf b.encV1 data.length) % 2 ^ 16
    ∧ u.cmdHead = u.cmdTail
    ∧ u.expectSeq = (b.expectSeq + 1) % (if b.encV1 then 2 ^ 8 else 2 ^ 16)
    ∧ ∀ m, m ≠ q.mbx → t.mailbox m = s.mailbox m

/-- R609: between `s` and `t` mailbox `q.mbx` took one message and was given two responses, in the slot where the response
tail stood PENDING and after it the final one, of status `st` with payload `data` (log 150). -/
def RepliedBoth (q : CmdCtx) (op st : Nat) (data : List Byte) (s t : State) : Prop :=
  let b := s.mailbox q.mbx
  let u := t.mailbox q.mbx
  ringLoad u.rspRing (64 * (b.rspTail % 16)) (if b.encV1 then 8 else 16)
      = responseBytes b.encV1 s (takenTask q op s) stPending false false false []
    ∧ ringLoad u.rspRing (64 * ((b.rspTail + 1) % 16)) ((if b.encV1 then 8 else 16) + data.length)
      = responseBytes b.encV1 s (takenTask q op s) st true false false data
    ∧ u.rspTail = (b.rspTail + 1 + slotsOf b.encV1 data.length) % 2 ^ 16
    ∧ u.cmdHead = u.cmdTail
    ∧ u.expectSeq = (b.expectSeq + 1) % (if b.encV1 then 2 ^ 8 else 2 ^ 16)
    ∧ ∀ m, m ≠ q.mbx → t.mailbox m = s.mailbox m

/-- The command waits for its final response: it is among its mailbox's outstanding commands, waiting for object `obj` with
argument `arg`, and one reserved slot fewer is kept for it (R606, R609). -/
def Waits (q : CmdCtx) (op obj arg : Nat) (s t : State) : Prop :=
  (t.mailbox q.mbx).tasks = (s.mailbox q.mbx).tasks
    ++ [{ takenTask q op s with obj, arg, slots := reserveOf (s.mailbox q.mbx) - 1 }]

/-- Beside the mailboxes, `t` is `u` but for what taking a command of opcode `op` from mailbox `m` changes: COMMANDS, the
round-robin pointer (R611, R622) and an armed lifecycle change, which any command but 0x0D05 discards (R436). -/
def TakenFrom (m op : Nat) (u t : State) : Prop :=
  t = { u with
    mbx := t.mbx
    sor := { u.sor with commands := u.sor.commands + 1, pointer := (m + 1) % 18 }
    sec := if op = 0x0D05 then u.sec else { u.sec with lcs := { u.sec.lcs with arm := none, expired := false } } }

/-- The `len` bytes at `addr` read as `data` for a mailbox's class, and reading them changes nothing, whatever the mailboxes,
Sorrel's counts and an armed change are. -/
def ReadsPlain (cls fuel addr len : Nat) (data : List Byte) (s : State) : Prop :=
  ∀ (m : List (Nat × Mailbox)) (u : Sorrel) (a : Lcs),
    deviceRead cls fuel addr len { s with mbx := m, sor := u, sec := { s.sec with lcs := a } }
      = ((rOk, data), { s with mbx := m, sor := u, sec := { s.sec with lcs := a } })

/-- A mailbox's class may read the range, or write it, and asking changes nothing, with the same reserve (R421, R621). -/
def RangePlain (cls : Nat) (rd wr : Bool) (addr len : Nat) (s : State) : Prop :=
  ∀ (m : List (Nat × Mailbox)) (u : Sorrel) (a : Lcs),
    rangeAccess cls rd wr addr len { s with mbx := m, sor := u, sec := { s.sec with lcs := a } }
      = (rOk, { s with mbx := m, sor := u, sec := { s.sec with lcs := a } })

/-! ### Paths of the network -/

/-- R316: the pier that a packet for pier `b` stands at `n` links after pier `a`, by the default routes. -/
def follow (b : Nat) : Nat → Nat → Nat
  | 0, a => a
  | n + 1, a => if a = b then a else match linkTo a (firstPort a b) with
    | none => a
    | some q => follow b n q

/-! ### Frames of the engines -/

/-- Context `k` of engine `n` alone may have changed among the contexts, but that another RUNNING context of the engine is
READY again (R189), and engine `n` alone among the engines; its memories' words, the pins, clusters and event bits are as they
were, and beside the engines at most the mailboxes changed (answers to stops that are over, R194). -/
def OnlyContext (n k : Nat) (s t : State) : Prop :=
  t = { s with eng := { s.eng with ctxs := t.eng.ctxs, engines := t.eng.engines }, mbx := t.mbx }
    ∧ (∀ j, j / 4 ≠ n → t.ctx j = s.ctx j)
    ∧ (∀ j, j < 4 → j ≠ k → t.ctx (4 * n + j) =
        if (s.ctx (4 * n + j)).state = .running then { s.ctx (4 * n + j) with state := .ready } else s.ctx (4 * n + j))
    ∧ (∀ m, m ≠ n → t.engine m = s.engine m)

/-- Context `k` of engine `n` wrote `v` to register `d`, nothing to another register, and went to the next instruction. -/
def Wrote (n k d : Nat) (v : BitVec 64) (s t : State) : Prop :=
  (t.ctx (4 * n + k)).reg d = v ∧ (∀ r, r ≠ d → (t.ctx (4 * n + k)).reg r = (s.ctx (4 * n + k)).reg r)
    ∧ (t.ctx (4 * n + k)).pc = (s.ctx (4 * n + k)).pc + 1 ∧ (t.ctx (4 * n + k)).state = .running

/-- R190, R227, R231: context `k` of engine `n` issues, and the word at its PC is instruction `i`. -/
abbrev Issues (n k : Nat) (i : EngInstr) (s : State) : Prop :=
  mayIssue s n k = true ∧ (fetchWord s n (s.ctx (4 * n + k)).pc).bind engDecode = some i

/-! ### The fuses -/

/-- Every bit blown in `f` is blown in `g`. -/
def fusesKept (f g : Fuses) : Prop :=
  f.lifecycle &&& g.lifecycle = f.lifecycle ∧ f.antiRollback &&& g.antiRollback = f.antiRollback
    ∧ (f.keyFused = true → g.keyFused = true ∧ g.ownerKey = f.ownerKey)

end Sys2Proof.Machine
end

