-- ==== Sys2Proof/Certificates/Slice0/Obligations.lean ====
section
/-! DEFINITION. The statements about the block, one per name, from the numbered rules. A command completes where `Answers`
says so; a response is `Replied`; what stays is said by `TakenFrom`, `OnlyContext` and equations between the units. -/

open Sys2Proof Sys2Proof.Machine

/-! ### The queue, the fuses, reset -/

/-- The block gives the command at the front of its queue to `exec`, on the state with the queue's rest. R489, R490, R491,
R549: with no command waiting, one step is one timebase cycle and the instants of the fabric's clocks in it (the model's
choice, logs 16 and 48). The cycle moves the count by two ticks (four while the VCO is low) times 1 + RATE * 2^-48, and
with it only the slew slot, the network's cycle count and the event pulses; the instants change the fabric's registers and
clock phases alone, and nothing where no configured tile's clocks run. -/
def Obligations.StepRunsFront : Prop :=
  (∀ (c : Instr) (rest : List Instr) (s : State),
    step { s with pending := c :: rest } = exec c { s with pending := rest })
  ∧ (∀ s : State, s.pending = [] → step s = .next (fabricCycle (timebaseCycle s)))
  ∧ (∀ s : State, fabricCycle s = { s with fab := (fabricCycle s).fab, free := (fabricCycle s).free }
    ∧ (clockedTiles s = [] → fabricCycle s = s))
  ∧ (∀ s : State, s.tim.running = false → timebaseCycle s = s)
  ∧ (∀ s : State, s.tim.running = true → ∃ t, t = timebaseCycle s
    ∧ t = { s with
      tim := { s.tim with tick := t.tim.tick }, gov := { s.gov with slewLeft := t.gov.slewLeft },
      noc := { s.noc with pending := [], cycle := t.noc.cycle, cycleFrac := t.noc.cycleFrac },
      evt := { s.evt with fabEvt := 0 } }
    ∧ t.tim.tick = (((s.tim.tick : Int) + (if s.clk.vcoLow then 4 else 2) * (2 ^ 48 + s.tim.rate)).toNat) % 2 ^ 112
    ∧ t.gov.slewLeft = s.gov.slewLeft - (if s.clk.vcoLow then 4 else 2))
  ∧ (∀ s : State, s.pending = [] → s.tim.running = true → s.clk.vcoLow = false → -(2 ^ 38) ≤ s.tim.rate →
    s.tim.rate ≤ 2 ^ 38 → s.tim.tick + 3 * 2 ^ 48 < 2 ^ 112 → ∃ t, step s = .next t ∧ s.now + 1 ≤ t.now ∧ t.now ≤ s.now + 3)

/-- Every command is answered with a next state, which keeps the queue; only the three fuse events (R436, R596, R646) change
a fuse.
It rests on choices of the model: log 7. -/
def Obligations.EveryCommandIsAnswered : Prop :=
  ∀ (c : Instr) (s : State), ∃ t, exec c s = .next t ∧ t.pending = s.pending
    ∧ (c ≠ .lcsFuseBlown → c ≠ .arbStepBlown → c ≠ .ownerKeyFused → t.fuse = s.fuse)

/-- R435: "Fuses are only ever blown, so the state never moves backwards." R646: COUNT "never falls". Every step keeps every
blown fuse, the owner key once it is fused, the unit ID and the grade; so the lifecycle state and COUNT never fall. -/
def Obligations.FusesOnlyBlown : Prop :=
  ∀ s t : State, step s = .next t →
    fusesKept s.fuse t.fuse ∧ t.fuse.unitId = s.fuse.unitId ∧ t.fuse.grade = s.fuse.grade ∧ t.fuse.range = s.fuse.range
    ∧ lifecycle s.fuse ≤ lifecycle t.fuse ∧ arbCount s ≤ arbCount t ∧ arbCount t ≤ 128

/-- R435: a group counts as blown when at least two of its three fuses are; the state is the latest group that counts as
blown, or BLANK (0) when none does, whichever of the others are blown. R425, R431, R433, R436: the events of this family:
a table change has spread; the key is made or fails, three failures raising event 322, and the enables held for the key
start or are discarded; BYPASS is written in BLANK and DEVELOP with every channel OFF and discarded otherwise; an arm
expires after 1 s; the fuses of the target group are blown in order, and after the third the device starts again, wiped.
The key is a free value (log 6).
It rests on choices of the model: log 7, 22 and 26. -/
def Obligations.SecurityEvents : Prop :=
  (∀ (f : Fuses) (g : Nat), groupBlown f.lifecycle g = true ↔
    (f.lifecycle.getLsbD (3 * g) = true ∧ f.lifecycle.getLsbD (3 * g + 1) = true)
    ∨ (f.lifecycle.getLsbD (3 * g) = true ∧ f.lifecycle.getLsbD (3 * g + 2) = true)
    ∨ (f.lifecycle.getLsbD (3 * g + 1) = true ∧ f.lifecycle.getLsbD (3 * g + 2) = true))
  ∧ (∀ (f : Fuses) (k : Nat), lifecycle f = k ↔
    (k = 3 ∧ groupBlown f.lifecycle 2 = true)
    ∨ (k = 2 ∧ groupBlown f.lifecycle 2 = false ∧ groupBlown f.lifecycle 1 = true)
    ∨ (k = 1 ∧ groupBlown f.lifecycle 2 = false ∧ groupBlown f.lifecycle 1 = false ∧ groupBlown f.lifecycle 0 = true)
    ∨ (k = 0 ∧ groupBlown f.lifecycle 2 = false ∧ groupBlown f.lifecycle 1 = false ∧ groupBlown f.lifecycle 0 = false))
  ∧ (∀ s : State, exec .accTablePropagated s = .next { s with sec := { s.sec with acc := { s.sec.acc with old := [] } } })
  ∧ (∀ s : State, s.dev.clockSeen = true → s.sec.scm.keyReady = false → s.sec.scm.keyFail = false →
    (∀ c, c < 8 → (s.chan c).pendingEnable = false) →
    exec (.keyAttemptDone true) s = .next { s with free := s.free + 1, sec := { s.sec with scm := { s.sec.scm with
      key := Config.freeValue 128 s.free, keyReady := true, keySerial := s.sec.scm.keySerial + 1 } } })
  ∧ (∀ s : State, s.dev.clockSeen = true → s.sec.scm.keyReady = false → s.sec.scm.keyFail = false →
    s.sec.scm.attempts < 2 →
    exec (.keyAttemptDone false) s = .next { s with sec := { s.sec with scm := { s.sec.scm with
      attempts := s.sec.scm.attempts + 1 } } })
  ∧ (∀ s : State, s.dev.clockSeen = true → s.sec.scm.keyReady = false → s.sec.scm.keyFail = false →
    s.sec.scm.attempts = 2 → (∀ c, c < 8 → (s.chan c).pendingEnable = false) →
    Answers (.keyAttemptDone false) s fun t => t = { s with
        sec := { s.sec with scm := { s.sec.scm with attempts := 3, keyFail := true } }, evt := t.evt, eng := t.eng }
      ∧ t.evt.pend = s.evt.pend ||| BitVec.twoPow 384 322)
  ∧ (∀ (v : Bool) (s : State), lifecycle s.fuse ≤ 1 → (∀ c, c < 8 → (s.chan c).state = .off) →
    exec (.scmBypassWrite v) s = .next { s with sec := { s.sec with scm := { s.sec.scm with bypass := v } } })
  ∧ (∀ (v : Bool) (s : State), 2 ≤ lifecycle s.fuse ∨ (∃ c, c < 8 ∧ (s.chan c).state ≠ .off) →
    exec (.scmBypassWrite v) s = .next s)
  ∧ (∀ (c : Nat) (s : State), s.dev.clockSeen = true → s.sec.scm.keyReady = false → s.sec.scm.keyFail = false →
    c < 8 → (s.chan c).state = .off → (s.chan c).pendingEnable = true →
    (Answers (.keyAttemptDone true) s fun t => (t.chan c).state = .waitGrant ∧ (t.chan c).pendingEnable = false)
    ∧ (2 ≤ s.sec.scm.attempts →
      Answers (.keyAttemptDone false) s fun t => (t.chan c).state = .off ∧ (t.chan c).pendingEnable = false))
  ∧ (∀ (a : Arm) (s : State), s.sec.lcs.arm = some a →
    (1500000000 ≤ s.now - a.since → exec .lcsArmTimeout s = .next { s with
      sec := { s.sec with lcs := { s.sec.lcs with arm := none, expired := true } } })
    ∧ (s.now - a.since < 1500000000 → exec .lcsArmTimeout s = .next s))
  ∧ (∀ (g k : Nat) (s : State), 1 ≤ g → g ≤ 3 → k < 2 → s.sec.lcs.blowing = some (g, k) → s.sor.restart = none →
    s.clk.phase = .off →
    exec .lcsFuseBlown s = .next { s with
      fuse := { s.fuse with lifecycle := s.fuse.lifecycle ||| BitVec.twoPow 9 (3 * (g - 1) + k) },
      sec := { s.sec with lcs := { s.sec.lcs with blowing := some (g, k + 1) } } })
  ∧ (∀ (g : Nat) (s : State), 1 ≤ g → g ≤ 3 → s.sec.lcs.blowing = some (g, 2) → s.sor.restart = none →
    s.clk.phase = .off → Answers .lcsFuseBlown s fun t =>
      t.fuse = { s.fuse with lifecycle := s.fuse.lifecycle ||| BitVec.twoPow 9 (3 * (g - 1) + 2) }
      ∧ t.dev.mode = .load ∧ t.sec = { scm := { keySerial := s.sec.scm.keySerial } } ∧ t.ddr = {}
      ∧ (t.fab, t.spd, t.eng.imem, t.eng.dmem) = (({} : Fab), ({} : Spd), [], [])
      ∧ t.pending = s.pending ∧ t.free = s.free)

/-- R652, R32, R426, R534, R536, R555, R557, R511, R512: what reset leaves where the spec gives the value: OFF, nothing
ready, an empty rights table, the dividers at their largest ratios, GRANT_EN and the servo's defaults. R31, R32, R33, R36:
after `settle` the readiness words are what the conditions of their bits give; a change raises event 1 and records the
lost bits, and no change changes nothing at all.
It rests on choices of the model: log 13 and 14. -/
def Obligations.ResetAndReadiness : Prop :=
  (State.reset.dev.mode = .off ∧ readyWord State.reset.dev.ready = 0 ∧ readyUnitWord State.reset.dev.ready = 0
  ∧ (∀ e, tget noRights State.reset.sec.acc.entries e = noRights)
  ∧ clkCtrlWord State.reset.clk = 0x60
  ∧ (∀ d, (State.reset.clk.div d).ratio = largestRatio (min d 3)) ∧ State.reset.gov.grantEn = true
  ∧ State.reset.gov.waitWarn = 1465 ∧ State.reset.tim.servo = .free ∧ State.reset.tim.tick = 0
  ∧ State.reset.tim.kpExp = 4 ∧ State.reset.tim.kiExp = 0 ∧ State.reset.tim.lockCount = 8
  ∧ (∀ m, State.reset.mailbox m = {}) ∧ State.reset.pending = [])
  ∧ (∀ s : State, (settle s).dev.ready = derive s)
  ∧ (∀ s : State, derive s = s.dev.ready → settle s = s)
  ∧ (∀ s : State, derive s ≠ s.dev.ready → (settle s).evt.pend.getLsbD 1 = true
    ∧ (settle s).dev.lost = s.dev.lost ||| (readyWord s.dev.ready &&& ~~~ readyWord (derive s)))
  ∧ (∀ s : State, s.clk.coast = true ∨ s.clk.lock = false →
    (derive s).clock = false ∧ (derive s).current = false ∧ (derive s).timebase = false ∧ (derive s).timeValid = false
    ∧ (derive s).scratch = false ∧ (derive s).queues = false ∧ (derive s).spanPager = false ∧ (derive s).scrubber = false
    ∧ (derive s).fabric = false ∧ (derive s).ddrCh = 0 ∧ (derive s).engCluster = 0)
  ∧ (∀ s : State, ((settle s).clk, (settle s).lan, (settle s).boot, (settle s).spd, (settle s).sec)
      = (s.clk, s.lan, s.boot, s.spd, s.sec)
    ∧ ((settle s).fuse, (settle s).free, (settle s).pending, (settle s).eng.imem, (settle s).eng.dmem)
      = (s.fuse, s.free, s.pending, s.eng.imem, s.eng.dmem)
    ∧ ((settle s).dev.mode, (settle s).eng.clusters, (settle s).eng.pins, (settle s).ddr.subs, (settle s).ddr.wins)
      = (s.dev.mode, s.eng.clusters, s.eng.pins, s.ddr.subs, s.ddr.wins))

/-! ### Encodings and the arithmetic of the fabric -/

/-- R230, R231, R232: the encoder and the decoder of engine instructions agree on every instruction whose fields R230 and
R231 allow. R231: a word decodes only when every field that must be zero is zero: encoding what was decoded gives the word
back, and the instruction's fields are within their ranges. R230, R232: words written out from the encoding tables: ADD
v1, v2, v3; ADDI v4, v5, -1; MOVW v0, lane 1, KEEP, 0xBEEF; LD v1, 8 bytes, offset 16 from v2; BNE v1, v2, 7; WAIT v3;
HALT; POP into v4 to v7 from queue 513, its status in v9; EDGE of pin 33 at v2. The wiped word 0 is undefined. -/
def Obligations.EngineDecodeOfEncode : Prop :=
  (∀ i : EngInstr, i.wf = true → i.encode < 2 ^ 32 ∧ engDecode i.encode = some i)
  ∧ (∀ (w : Nat) (i : EngInstr), w < 2 ^ 32 → engDecode w = some i → i.encode = w ∧ i.wf = true)
  ∧ (engDecode 0x0448C000 = some (.alu 0 1 2 3) ∧ engDecode 0x0917FFFF = some (.addi 4 5 0x3FFFF)
  ∧ engDecode 0x1C18BEEF = some (.movw 0 1 true 0xBEEF) ∧ engDecode 0x404B0010 = some (.ld 1 2 3 false 16)
  ∧ engDecode 0x64480007 = some (.branch 1 1 2 7) ∧ engDecode 0x900C0000 = some (.wait 3)
  ∧ engDecode 0xA4000000 = some .halt ∧ engDecode 0xC1900201 = some (.pop 1 9 513)
  ∧ engDecode 0xF0910021 = some (.edge 2 1 1 33) ∧ engDecode 0 = none)

/-- R43, R44: for cells set up as R43 gives for an addition, a chain of `n` cells from carry-in `c` adds: its 2n sum bits
and its carry out spell a + b + c. R131: "Results wrap modulo 2^64, or modulo 2^32 per half under TWIN_SUM. WRAP is set in
the cycle of a wrap." The eight operations of SUM_OP, as integers; WRAP is read as leaving the signed range of the
accumulator (log 126). R47: a flip-flop's next value, in falling order of precedence; R130: the pre-adder clips to -2^23
to 2^23 - 1 and says so; R54, R154: the all-zero code of a multiplexer selects constant 0, code k + 1 its input k, and a
code that names no input gives 0. R44, R47, R48, R49, R52, R53, R54, R57, R58, R65: the user logic as the configuration
joins it. Each direction of a switch box starts 33 segments: 16, 12, 4 and 1 of lengths 1, 4, 12 and 36; a segment keeps
its die, crosses tile edges and stops before the die's edge; one that crosses a slot's edge is 0, as is a multiplexer with
the all-zero code; an abutment wire from an isolated tile brings the isolation value; a carry comes from the group south,
a pin or a constant; lines 0 to 9 come from the routing clock and the column's two PLLs; set-reset makes a flip-flop INIT
and a wire register 0, and a stopped clock keeps a flip-flop. An instant leaves configuration, contents, block memories
and the frames of a tile whose clocks stand as they were.
It rests on choices of the model: log 48, 126, 140 and 173. -/
def Obligations.FabricCells : Prop :=
  (∀ (n a b : Nat) (c : Bool), a < 4 ^ n → b < 4 ^ n →
    (carryChain n a b c).1.length = 2 * n
    ∧ (carryChain n a b c).1.foldr (fun x v => b2n x + 2 * v) 0 + 4 ^ n * b2n (carryChain n a b c).2 = a + b + b2n c)
  ∧ (∀ (op : Nat) (q sum addend sumcIn ksum : BitVec 64), op = 1 ∨ op = 2 ∨ op = 3 ∨ op = 4 ∨ op = 5 ∨ op = 6 →
    ∃ exact : Int, exact = (if op = 1 then q.toInt else if op = 2 then sum.toInt + q.toInt
        else if op = 3 then sum.toInt - q.toInt else if op = 4 then addend.toInt + q.toInt
        else if op = 5 then sumcIn.toInt + q.toInt else ksum.toInt + q.toInt)
      ∧ ((accumulate false op q sum addend sumcIn ksum).1.toInt - exact) % 2 ^ 64 = 0
      ∧ ((accumulate false op q sum addend sumcIn ksum).2 = true ↔ exact < -(2 ^ 63) ∨ 2 ^ 63 ≤ exact))
  ∧ (∀ (twin : Bool) (q sum addend sumcIn ksum : BitVec 64),
    accumulate twin 0 q sum addend sumcIn ksum = (0, false) ∧ accumulate twin 7 q sum addend sumcIn ksum = (sum, false))
  ∧ (∀ (q sum addend sumcIn ksum : BitVec 64), (accumulate true 2 q sum addend sumcIn ksum).1
    = (sum.extractLsb' 32 32 + q.extractLsb' 32 32) ++ (sum.extractLsb' 0 32 + q.extractLsb' 0 32))
  ∧ (∀ q init d async reset enable edge : Bool, flipFlop q init d true async reset enable edge = init)
  ∧ (∀ q init d enable edge : Bool, flipFlop q init d false true true enable edge = init)
  ∧ (∀ q init d async reset enable : Bool, flipFlop q init d false async (reset && !async) enable false = q)
  ∧ (∀ q init d enable : Bool, flipFlop q init d false false true enable true = init)
  ∧ (∀ q init d async : Bool, flipFlop q init d false async false true true = d
    ∧ flipFlop q init d false async false false true = q)
  ∧ (∀ (pre fx : BitVec 24) (neg : Bool), ∃ v : Int,
    v = (if neg then pre.toInt - fx.toInt else pre.toInt + fx.toInt)
    ∧ (preAdd pre fx neg).1.toInt = max (-(2 ^ 23)) (min (2 ^ 23 - 1) v)
    ∧ ((preAdd pre fx neg).2 = true ↔ v < -(2 ^ 23) ∨ 2 ^ 23 - 1 < v))
  ∧ (∀ (inputs : List Bool) (k : Nat), routeMux inputs 0 = false ∧ routeMux inputs (k + 1) = (inputs[k]?).getD false)
  ∧ ((List.range 4).map segmentLength = [1, 4, 12, 36] ∧ (List.range 4).map segmentCount = [16, 12, 4, 1]
    ∧ segmentsOf.length = 33)
  ∧ (∀ (p : Place) (dir len : Nat) (q : Place), p.tile < 96 → p.gx < 40 → p.gy < 64 → dir < 4 → len < 4 →
    q = segmentEnd p dir len →
    q.tile < 96 ∧ q.gx < 40 ∧ q.gy < 64 ∧ dieOf q.tile = dieOf p.tile
    ∧ dieX q = (if dir = 1 then min (dieX p + segmentLength len) 239 else if dir = 3 then dieX p - segmentLength len else dieX p)
    ∧ dieY q = (if dir = 0 then min (dieY p + segmentLength len) 511 else if dir = 2 then dieY p - segmentLength len
        else dieY p))
  ∧ (∀ (s : State) (n f t gx gy dir len i : Nat), crossesSlot s ⟨t, gx, gy⟩ (segmentEnd ⟨t, gx, gy⟩ dir len) = true →
    signal s n (f + 1) t (.segment gx gy dir len i) = false)
  ∧ (∀ (s : State) (n f t gx gy dir len i : Nat), crossesSlot s ⟨t, gx, gy⟩ (segmentEnd ⟨t, gx, gy⟩ dir len) = false →
    signal s n (f + 1) t (.segment gx gy dir len i) =
      if configOn s t (.wireUsed gx gy dir len i) then
        !wireHeld s ⟨t, gx, gy⟩ dir len i && storedBit s t (wireIndex gx gy dir len i)
      else signal s n f t (.mux (.segment gx gy dir len i)))
  ∧ (∀ (s : State) (n f t : Nat) (x : Sink), configNat s t (.select x) (Config.selectWidth x % 16) = 0 →
    signal s n (f + 1) t (.mux x) = false)
  ∧ (∀ (s : State) (n f t q e i : Nat), facing t e = some q → (readFrame s q ((e + 2) % 4)).getLsbD i = true →
    signal s n (f + 1) t (.abutment e i) = if (s.tile q).isolated then configOn s t (.isolation e i)
      else signal s n f q (.mux (.abutment ((e + 2) % 4) i)))
  ∧ (∀ (s : State) (n f t gx gy : Nat), configOn s t (.carryLink gx gy) = false →
    signal s n (f + 1) t (.carryTo gx gy 0) = if configOn s t (.carryPin gx gy) then signal s n f t (.mux (.carryIn gx gy))
      else configOn s t (.carryOne gx gy))
  ∧ (∀ (s : State) (n f t gx gy : Nat), configOn s t (.carryLink gx gy) = true → 0 < gy → gy < 64 → gx < 40 → t < 96 →
    signal s n (f + 1) t (.carryTo gx gy 0) = signal s n f t (.carryFrom gx (gy - 1) 15))
  ∧ (∀ (s : State) (t l : Nat), lineSource s t l =
    if l = 0 then .routing else if l = 1 then .half else if l < 6 then .pll (2 * (t % 12)) (l - 2)
    else if l < 10 then .pll (2 * (t % 12) + 1) (l - 6) else lineSource s (6 * dieOf t) l)
  ∧ (∀ (s : State) (n : Nat) (e : Edges) (t gx gy c ab : Nat), heldReset s t gx gy (flipFlopSet s t gx gy c ab) = true →
    flipFlopAfter s n e t gx gy c ab = configOn s t (.init gx gy c ab)
    ∧ flipFlopValue s t gx gy c ab = configOn s t (.init gx gy c ab))
  ∧ (∀ (s : State) (n : Nat) (e : Edges) (t gx gy c ab : Nat), heldReset s t gx gy (flipFlopSet s t gx gy c ab) = false →
    clockRuns s t (.clock gx gy (flipFlopSet s t gx gy c ab)) = false →
    flipFlopAfter s n e t gx gy c ab = storedBit s t (flipFlopIndex gx gy c ab))
  ∧ (∀ (s : State) (t gx gy cs : Nat), (s.tile t).setReset = true → heldReset s t gx gy cs = true)
  ∧ (∀ (s : State) (e : Edges) (t l : Nat), tileClocks s t = false → lineRises s e t l = false ∧ lineRuns s t l = false)
  ∧ (∀ s : State, (instant s).fab.words = s.fab.words ∧ (instant s).fab.mems = s.fab.mems
    ∧ (instant s).fab.tiles = s.fab.tiles
    ∧ instant s = { s with fab := (instant s).fab, free := (instant s).free }
    ∧ (∀ (t i : Nat), i < 19712 ∨ tileClocks s t = false → i < 2 ^ 15 → readFrame (instant s) t i = readFrame s t i))

/-! ### Commands that only read -/

/-- R539, R563, R513, R443, R440 to R442: the commands 0x0201, 0x0301, 0x0302, 0x0303, 0x0B01, 0x0B07, 0x0D02, 0x0D03 and
0x0D06 answer OK at once with the fields their tables give, and change nothing but what taking a command changes (which
discards an armed change, so 0x0D06 shows none). The port state, grandmaster and delay of 0x0B07 are free values (log 20).
R419, R367, R181, R180, R289: the commands 0x0902, 0x0804, 0x0805, 0x0502, 0x0509, 0x0603 (both selections), 0x0608 and
0x0609 answer OK at once with the fields their tables give, and change nothing but what taking a command changes.
It rests on choices of the model: log 18. -/
def Obligations.StatusOfClocksAndMemories : Prop :=
  (∀ (q : CmdCtx) (s : State), MayIssue q 0x0201 0 s → Answers (.clkStatus q) s fun t =>
    Replied q 0x0201 stOk true
      (leBytes 4 (clkStatWord s.clk) ++ leBytes 4 (clkCtrlWord s.clk)
        ++ (leBytes 2 s.clk.div0.ratio ++ leBytes 2 s.clk.div1.ratio ++ leBytes 2 s.clk.div2.ratio
          ++ leBytes 2 s.clk.div3.ratio) ++ leBytes 2 s.clk.lastPpm.toNat) s t
      ∧ TakenFrom q.mbx 0x0201 s t)
  ∧ (∀ (q : CmdCtx) (s : State), MayIssue q 0x0301 0 s → Answers (.curStatus q) s fun t =>
    Replied q 0x0301 stOk true
      ((List.range 3).flatMap (fun sp =>
          leBytes 2 (budget sp) ++ leBytes 2 (standingNow s sp) ++ leBytes 2 (booked s sp) ++ leBytes 2 (s.supply sp).peak
            ++ leBytes 2 (s.supply sp).queue.length ++ leBytes 2 (headWaited s sp) ++ leBytes 4 0)
        ++ leBytes 4 (curEvtWord s.gov)) s t
      ∧ TakenFrom q.mbx 0x0301 s t)
  ∧ (∀ (q : CmdCtx) (sp first : Nat) (s : State), sp < 3 → first < 2 ^ 16 → MayIssue q 0x0302 4 s →
    Answers (.curQueueRead q sp first) s fun t =>
      Replied q 0x0302 stOk true
        (leBytes 8 (s.supply sp).queue.length ++ (List.range 6).flatMap (fun i => queueEntryBytes s sp (first + i))) s t
        ∧ TakenFrom q.mbx 0x0302 s t)
  ∧ (∀ (q : CmdCtx) (sp : Nat) (s : State), sp < 3 → MayIssue q 0x0303 1 s → Answers (.curHoldings q sp) s fun t =>
    Replied q 0x0303 stOk true
      ((List.range 10).flatMap (fun k => leBytes 2 (kindHeld (s.supply sp) k)) ++ leBytes 2 (standingNow s sp)) s t
      ∧ TakenFrom q.mbx 0x0303 s t)
  ∧ (∀ (q : CmdCtx) (s : State), MayIssue q 0x0B01 0 s → Answers (.timeGet q) s fun t =>
    Replied q 0x0B01 stOk true
      (leBytes 8 s.now ++ leBytes 6 (ntSeconds (netTime s.tim)) ++ leBytes 4 (ntNanos (netTime s.tim))
        ++ leBytes 2 (ntFraction (netTime s.tim)) ++ leBytes 4 0 ++ leBytes 8 (wrapNat 64 s.tim.rate)
        ++ leBytes 1 (servoCode s.tim.servo) ++ leBytes 1 (b2n s.tim.timeValid) ++ leBytes 6 0
        ++ leBytes 8 (wrapNat 64 s.tim.lastOffset)) s t
      ∧ TakenFrom q.mbx 0x0B01 s t)
  ∧ (∀ (q : CmdCtx) (s : State), MayIssue q 0x0B07 0 s → Answers (.timePtpStatus q) s fun t =>
    (∃ (state : BitVec 8) (master delay : BitVec 64), Replied q 0x0B07 stOk true
      (leBytes 1 state.toNat ++ leBytes 7 0 ++ leBytes 8 master.toNat ++ leBytes 8 delay.toNat
        ++ leBytes 8 (wrapNat 64 s.tim.lastOffset) ++ leBytes 4 s.tim.syncRx.toNat) s t)
      ∧ TakenFrom q.mbx 0x0B07 { s with free := s.free + 3 } t)
  ∧ (∀ (q : CmdCtx) (entry : Nat) (s : State), entry < 64 → MayIssue q 0x0D02 1 s → Answers (.accGetEntry q entry) s fun t =>
    Replied q 0x0D02 stOk true
      (leBytes 4 (accCtlWord (tget noRights s.sec.acc.entries entry)) ++ leBytes 4 (tget noRights s.sec.acc.entries entry).base
        ++ leBytes 4 (tget noRights s.sec.acc.entries entry).limit) s t
      ∧ TakenFrom q.mbx 0x0D02 s t)
  ∧ (∀ (q : CmdCtx) (s : State), MayIssue q 0x0D03 0 s → Answers (.accViolLog q) s fun t =>
    Replied q 0x0D03 stOk true (leBytes 8 (accStatWord s.sec.acc) ++ leBytes 8 s.sec.acc.addr) s t
      ∧ TakenFrom q.mbx 0x0D03 s t)
  ∧ (∀ (q : CmdCtx) (s : State), MayIssue q 0x0D06 0 s → Answers (.scmStatus q) s fun t =>
    Replied q 0x0D06 stOk true (leBytes 4 (scmStatWord s.sec.scm)
      ++ leBytes 4 (lcsStateWord { s with sec := { s.sec with lcs := { s.sec.lcs with arm := none } } })) s t
      ∧ TakenFrom q.mbx 0x0D06 s t)
  ∧ (∀ (q : CmdCtx) (c : Nat) (s : State), c < 8 → MayIssue q 0x0902 1 s → Answers (.ddrChStatus q c) s fun t =>
    Replied q 0x0902 stOk true
      (payloadAt 28 [(0, 1, chState (s.chan c).state), (1, 1, b2n (s.sub (2 * c)).frozen + 2 * b2n (s.sub (2 * c + 1)).frozen),
        (2, 1, chanCredits s c), (8, 6, (s.sub (2 * c)).ce), (14, 6, (s.sub (2 * c + 1)).ce), (20, 2, (s.sub (2 * c)).ue),
        (22, 2, (s.sub (2 * c + 1)).ue), (24, 2, markWord (s.sub (2 * c))), (26, 2, markWord (s.sub (2 * c + 1)))]) s t
      ∧ TakenFrom q.mbx 0x0902 s t)
  ∧ (∀ (q : CmdCtx) (g : Nat) (s : State), g < 32 → MayIssue q 0x0804 1 s → Answers (.scrGroupStatus q g) s fun t =>
    Replied q 0x0804 stOk true
      (leBytes 1 (groupState (s.sgroup g).state) ++ leBytes 3 (heldBy s kGroup g)
        ++ ((List.range 8).map fun i => s.bank (8 * g + i)).flatMap (fun x => leBytes 1 x.kind ++ leBytes 1 x.index)
        ++ ((List.range 8).map fun i => s.bank (8 * g + i)).flatMap (fun x => leBytes 1 (bankState x.state))) s t
      ∧ TakenFrom q.mbx 0x0804 s t)
  ∧ (∀ (q : CmdCtx) (b u : Nat) (s : State), b < 256 → u < 8192 → MayIssue q 0x0805 4 s →
    Answers (.scrReadUnit q b u) s fun t =>
      Replied q 0x0805 stOk true
        (leBytes 36 (unitAt s (b * 8192 + u)).symbols.toNat ++ leBytes 1 (b2n (unitAt s (b * 8192 + u)).poisoned)) s t
        ∧ TakenFrom q.mbx 0x0805 s t)
  ∧ (∀ (q : CmdCtx) (pers : Nat) (s : State), pers < 1024 → s.dev.ready.spanPager = true → MayIssue q 0x0502 2 s →
    Answers (.spanPersGet q pers) s fun t =>
      Replied q 0x0502 stOk true
        (payloadAt 40 [(0, 2, pers), (2, 1, (s.pers pers).homeSlot),
          (3, 1, b2n (s.pers pers).installed + flag (s.pers pers).stateless 1 + flag (s.pers pers).pinned 2
            + flag (s.pers pers).blocked 3 + flag (s.pers pers).stateValid 4 + flag (s.pers pers).stateLost 5
            + flag (residentNow s pers) 6 + flag (s.pers pers).inDemand 7),
          (4, 2, (s.pers pers).spanCredits), (6, 2, (s.pers pers).maxRes), (8, 2, (s.pers pers).demandDepth),
          (10, 2, min (boundTo s pers).length 0xFFFF), (16, 8, (s.pers pers).age), (24, 8, (s.pers pers).imageAddr),
          (32, 8, (s.pers pers).stateAddr)]) s t
        ∧ TakenFrom q.mbx 0x0502 s t)
  ∧ (∀ (q : CmdCtx) (i : Nat) (s : State), i < 64 → s.spn.live = true → (s.slot i).defined = true →
    s.dev.ready.spanPager = true → MayIssue q 0x0509 1 s → Answers (.spanSlotStatus q i) s fun t =>
      Replied q 0x0509 stOk true
        (payloadAt 24 [(0, 1, slotState (s.slot i).state), (2, 2, (s.slot i).pers), (4, 2, heldBy s kSlot i),
          (8, 4, (s.slot i).loadCycles), (12, 4, (s.slot i).saveCycles), (16, 8, (s.slot i).loads)]) s t
        ∧ TakenFrom q.mbx 0x0509 s t)
  ∧ (∀ (q : CmdCtx) (n select : Nat) (s : State), n < 2 ^ 16 → select < 2 → MayIssue q 0x0603 3 s →
    Answers (.queueGet q n select) s fun t =>
      Replied q 0x0603 stOk true
        (if select = 0 then descriptor s n ++ leBytes 4 (depthOf (s.queue n)) else leBytes 32 (s.queue n).lastValue.toNat) s t
        ∧ TakenFrom q.mbx 0x0603 s t)
  ∧ (∀ (q : CmdCtx) (g : Nat) (s : State), g < 32 → MayIssue q 0x0608 1 s → Answers (.queueGroupStats q g) s fun t =>
    Replied q 0x0608 stOk true
      ((List.range 7).flatMap (fun k => leBytes 6 (tget 0 (s.qgroup g).counters k))
        ++ leBytes 1 ((List.range 7).foldl
          (fun a k => a + flag (decide (tget 0 (s.qgroup g).counters k = 2 ^ 48 - 1)) k) 0)) s t
      ∧ TakenFrom q.mbx 0x0608 s t)
  ∧ (∀ (q : CmdCtx) (s : State), MayIssue q 0x0609 0 s → Answers (.queuePoolStatus q) s fun t =>
    Replied q 0x0609 stOk true (leBytes 2 (poolPages s) ++ leBytes 6 (freeCount s) ++ leBytes 32 s.qm.banks.toNat) s t
      ∧ TakenFrom q.mbx 0x0609 s t)

/-- R485, R225, R596, R651, R622, R623: the commands 0x0A06, 0x0A07, 0x0704, 0x0707, 0x0708, 0x0401, 0x0C04, 0x0101, 0x0105,
0x0E01, 0x0E05 and 0x0E06 answer OK at once with the fields their tables give, and change nothing but what taking a command
changes, and the error counts of the memory that 0x0707 reads, as any read of it (R186). COMMANDS of 0x0E05 counts the
command itself; 0x0105 on its own mailbox shows it taken. -/
def Obligations.StatusOfLanesEnginesAndDevice : Prop :=
  (∀ (q : CmdCtx) (p : Nat) (s : State), p < 8 → s.dev.ready.lanes = true → MayIssue q 0x0A06 1 s →
    Answers (.ethPortStatus q p) s fun t =>
      Replied q 0x0A06 stOk true
        (leBytes 8 (ethStatWord (s.port p)) ++ (List.range 10).flatMap (fun k => leBytes 6 (tget 0 (s.port p).counters k))
          ++ leBytes 2 ((List.range 10).foldl
            (fun a k => a + flag (decide (tget 0 (s.port p).counters k = 2 ^ 48 - 1)) k) 0)) s t
        ∧ TakenFrom q.mbx 0x0A06 s t)
  ∧ (∀ (q : CmdCtx) (l : Nat) (s : State), l < 80 → s.dev.ready.lanes = true → MayIssue q 0x0A07 1 s →
    Answers (.laneStatus q l) s fun t =>
      Replied q 0x0A07 stOk true
        (leBytes 4 (laneStatWord (s.lane l)) ++ leBytes 4 (quadState (s.quad (l / 4)).state) ++ leBytes 4 (s.lane l).rxWptr
          ++ leBytes 4 (s.lane l).txRptr ++ leBytes 4 (s.lane l).dropBytes) s t
        ∧ TakenFrom q.mbx 0x0A07 s t)
  ∧ (∀ (q : CmdCtx) (n k first : Nat) (s : State), n < 96 → k < 4 → first < 13 →
    ((s.ctx (4 * n + k)).state = .idle ∨ (s.ctx (4 * n + k)).state = .parked ∨ (s.ctx (4 * n + k)).state = .faulted) →
    MayIssue q 0x0704 3 s → Answers (.engCtxRead q n k first) s fun t =>
      Replied q 0x0704 stOk true
        (leBytes 1 (ctxState (s.ctx (4 * n + k)).state) ++ leBytes 1 (s.ctx (4 * n + k)).fault
          ++ leBytes 2 (s.ctx (4 * n + k)).pc.toNat ++ leBytes 4 (s.ctx (4 * n + k)).detail.toNat
          ++ leBytes 8 (s.ctx (4 * n + k)).deadline.toNat
          ++ (List.range 4).flatMap (fun i => leBytes 8 ((s.ctx (4 * n + k)).reg (first + i)).toNat)) s t
        ∧ TakenFrom q.mbx 0x0704 s t)
  ∧ (∀ (q : CmdCtx) (n mem offset : Nat) (s : State), n < 96 → mem < 2 → offset % 32 = 0 → offset ≤ 32736 →
    clusterServes s (n / 8) = true → MayIssue q 0x0707 4 s → Answers (.engMemRead q n mem offset) s fun t =>
      Replied q 0x0707 stOk true
        ((List.range 4).flatMap (fun i => leBytes 8 (ewordData (eword s (decide (mem = 1)) n (offset / 8 + i))).toNat)
          ++ leBytes 1 ((List.range 4).foldl (fun a i =>
            a + flag (decide (flipKind (eword s (decide (mem = 1)) n (offset / 8 + i)).flips = 1)) i) 0)
          ++ leBytes 1 ((List.range 4).foldl (fun a i =>
            a + flag (decide (flipKind (eword s (decide (mem = 1)) n (offset / 8 + i)).flips = 2)) i) 0)) s t
        ∧ TakenFrom q.mbx 0x0707 { s with eng := { s.eng with engines := t.eng.engines } } t
        ∧ (∀ m, m ≠ n → t.engine m = s.engine m)
        ∧ ∀ ones twos : Nat,
          ones = ((List.range 4).filter fun i => flipKind (eword s (decide (mem = 1)) n (offset / 8 + i)).flips = 1).length →
          twos = ((List.range 4).filter fun i => flipKind (eword s (decide (mem = 1)) n (offset / 8 + i)).flips = 2).length →
          (ones = 0 → twos = 0 → t.engine n = s.engine n)
          ∧ (t.engine n).ce = (if ones = 0 then (s.engine n).ce else min 32767 ((s.engine n).ce + ones))
          ∧ (t.engine n).ue = (if twos = 0 then (s.engine n).ue else min 127 ((s.engine n).ue + twos)))
  ∧ (∀ (q : CmdCtx) (c : Nat) (s : State), c < 12 → MayIssue q 0x0708 1 s → Answers (.engStatus q c) s fun t =>
    Replied q 0x0708 stOk true
      (leBytes 1 (clusterState (s.cluster c).state) ++ leBytes 1 (heldBy s kCluster c) ++ leBytes 2 (leadTicks s)
        ++ leBytes 4 ((List.range 8).foldl (fun a e =>
          a + flag ((List.range 4).any fun k => decide ((s.ctx (32 * c + (4 * e + k))).state = .faulted)) e) 0)
        ++ leBytes 16 ((List.range 32).foldl (fun a i => a + ctxState (s.ctx (32 * c + i)).state * 16 ^ i) 0)) s t
      ∧ TakenFrom q.mbx 0x0708 s t)
  ∧ (∀ (q : CmdCtx) (s : State), MayIssue q 0x0401 0 s → Answers (.cfgStatus q) s fun t =>
    Replied q 0x0401 stOk true
      (leBytes 4 (cfgStatWord s) ++ leBytes 4 (cfgErrWord s.boot) ++ leBytes 4 s.boot.errAddr
        ++ leBytes 4 (field s.boot.framesWritten 0 21) ++ leBytes 4 s.boot.dir.seq.toNat
        ++ leBytes 1 (b2n s.boot.dir.baseActive) ++ leBytes 1 s.boot.dir.baseTrial) s t
      ∧ TakenFrom q.mbx 0x0401 s t)
  ∧ (∀ (q : CmdCtx) (s : State), MayIssue q 0x0C04 0 s → Answers (.fwStatus q) s fun t =>
    Replied q 0x0C04 stOk true
      (payloadAt 32 [(0, 4, fwStatWord s.boot), (4, 1, b2n s.boot.dir.fwActive), (5, 1, s.boot.dir.fwTrial),
        (6, 1, arbCount s), (8, 8, s.boot.fwAVersion), (16, 8, s.boot.fwBVersion), (24, 1, s.boot.fwASvn),
        (25, 1, s.boot.fwBSvn), (28, 4, windowLeft s)]) s t
      ∧ TakenFrom q.mbx 0x0C04 s t)
  ∧ (∀ (q : CmdCtx) (s : State), MayIssue q 0x0101 0 s → Answers (.devIdentify q) s fun t =>
    Replied q 0x0101 stOk true
      (leBytes 4 0x00EF0960 ++ leBytes 4 (devRevWord s) ++ leBytes 8 s.fuse.unitId.toNat ++ leBytes 1 (lifecycle s.fuse)
        ++ leBytes 1 (modeCode s.dev.mode) ++ leBytes 2 0 ++ leBytes 4 (readyWord s.dev.ready).toNat
        ++ leBytes 4 (readyUnitWord s.dev.ready).toNat ++ leBytes 16 s.boot.buildId ++ leBytes 8 s.boot.fwImage) s t
      ∧ TakenFrom q.mbx 0x0101 s t)
  ∧ (∀ (q : CmdCtx) (m : Nat) (s : State), m < 18 → m ≠ q.mbx → MayIssue q 0x0105 1 s → Answers (.mbxStatus q m) s fun t =>
    Replied q 0x0105 stOk true
      (leBytes 4 (mbxStatWord (s.mailbox m)) ++ leBytes 2 (s.mailbox m).cmdHead ++ leBytes 2 (s.mailbox m).cmdTail
        ++ leBytes 2 (s.mailbox m).rspHead ++ leBytes 2 (s.mailbox m).rspTail ++ leBytes 8 (s.mailbox m).taken.toNat) s t
      ∧ TakenFrom q.mbx 0x0105 s t)
  ∧ (∀ (q : CmdCtx) (s : State), MayIssue q 0x0105 1 s → Answers (.mbxStatus q q.mbx) s fun t =>
    Replied q 0x0105 stOk true
      (leBytes 4 (mbxStatWord { s.mailbox q.mbx with
          expectSeq := ((s.mailbox q.mbx).expectSeq + 1) % (if (s.mailbox q.mbx).encV1 then 2 ^ 8 else 2 ^ 16) })
        ++ leBytes 2 (((s.mailbox q.mbx).cmdHead + 1) % 2 ^ 16) ++ leBytes 2 (((s.mailbox q.mbx).cmdTail + 1) % 2 ^ 16)
        ++ leBytes 2 (s.mailbox q.mbx).rspHead ++ leBytes 2 (s.mailbox q.mbx).rspTail
        ++ leBytes 8 (if (s.mailbox q.mbx).taken = BitVec.allOnes 64 then (s.mailbox q.mbx).taken
          else (s.mailbox q.mbx).taken + 1).toNat) s t
      ∧ TakenFrom q.mbx 0x0105 s t)
  ∧ (∀ (q : CmdCtx) (data : List Byte) (s : State), MayIssue q 0x0E01 data.length s → Answers (.diagEcho q data) s fun t =>
    Replied q 0x0E01 stOk true data s t ∧ TakenFrom q.mbx 0x0E01 s t)
  ∧ (∀ (q : CmdCtx) (s : State), MayIssue q 0x0E05 0 s → Answers (.diagSorrel q) s fun t =>
    Replied q 0x0E05 stOk true
      (leBytes 8 s.sor.uptimeMs.toNat ++ leBytes 4 s.sor.restarts.toNat ++ leBytes 4 s.sor.mismatches.toNat
        ++ leBytes 4 s.sor.sramCe.toNat ++ leBytes 4 s.sor.sramUe.toNat ++ leBytes 8 (s.sor.commands + 1).toNat) s t
      ∧ TakenFrom q.mbx 0x0E05 s t)
  ∧ (∀ (q : CmdCtx) (first : Nat) (s : State), first < 2 ^ 16 → MayIssue q 0x0E06 2 s →
    Answers (.diagEventLog q first) s fun t =>
      Replied q 0x0E06 stOk true
        (leBytes 2 s.evt.log.length ++ leBytes 14 0
          ++ (List.range 8).flatMap (fun i => logEntryBytes (lget (0, 0) s.evt.log (first + i)))) s t
        ∧ TakenFrom q.mbx 0x0E06 s t)

/-! ### Clocks (chapter 14) -/

/-- R520, R522, R517, R523, R524, R526, R528, R529, R537, R72: what each event of the clock tree does, on the path its rule
gives it when nothing else is due with it, and that nothing else changes but what `settle` brings in line (R31). A divider
step that does not end its ramp; one that ends the start-up ramp, or the ramp into COAST; XO or REFCLK without edges, at a start
and later; the comparison of a start passed, failed a third time and failed before; the lock of a start; a trip of REFCLK with
XO there, and what a change of source is; the glide's end, which parks the VCO and makes every granted fabric PLL relock, with or
without a return due; and the writes of a TRIM ratio, out of TRIM, in TRIM away from nominal and toward it.
It rests on choices of the model: log 9, 11 and 163. -/
def Obligations.ClockEvents : Prop :=
  (∀ (d : Nat) (s : State), d < 4 → (s.clk.div d).ratio ≠ (s.clk.div d).target →
    ramping (s.clk.setDiv d (stepDivider (s.clk.div d))) = true →
    exec (.dividerRampStep d) s = .next { s with clk := s.clk.setDiv d { s.clk.div d with
      ratio := if (s.clk.div d).ratio < (s.clk.div d).target then (s.clk.div d).ratio + 1 else (s.clk.div d).ratio - 1 } })
  ∧ (∀ (d : Nat) (s : State), d < 4 → (s.clk.div d).ratio ≠ (s.clk.div d).target →
    ramping (s.clk.setDiv d (stepDivider (s.clk.div d))) = false → s.clk.phase = .startRamp ∨ s.clk.phase = .returnRamp →
    s.clk.rampHolds = false → s.sor.modeChange = none →
    exec (.dividerRampStep d) s = .next (settle { s with clk := startTests (xoPower
      { s.clk.setDiv d { s.clk.div d with ratio := (s.clk.div d).target } with phase := .running }) }))
  ∧ (∀ (d : Nat) (s : State), d < 4 → (s.clk.div d).ratio ≠ (s.clk.div d).target →
    ramping (s.clk.setDiv d (stepDivider (s.clk.div d))) = false → s.clk.phase = .coastRamp → s.clk.rampHolds = false →
    s.sor.modeChange = none →
    exec (.dividerRampStep d) s = .next (settle { s with
      clk := { s.clk.setDiv d { s.clk.div d with ratio := (s.clk.div d).target } with phase := .glide } }))
  ∧ (∀ (s : State), s.clk.xoRun = true → s.clk.xo.edges = false ∨ s.clk.refclk.edges = false → s.clk.phase = .judging →
    s.clk.attempt = none →
    exec .xoEdgeTimeout s = .next (if s.clk.attempts < 2
      then { s with clk := startTests { s.clk with attempts := s.clk.attempts + 1, tests := [] } }
      else { s with
        clk := { s.clk with attempts := 3, phase := .off, tests := [] }, dev := { s.dev with clkFaultLow := true } }))
  ∧ (∀ (s : State), s.clk.xoRun = true → s.clk.xo.edges = false → s.clk.phase ≠ .judging →
    exec .xoEdgeTimeout s = .next { s with clk := { s.clk with
      tests := s.clk.tests.filter fun t => decide (t.src ≠ .xo) } })
  ∧ (∀ (s : State) (ppm : Int) (m : Bool), s.clk.tests = [⟨.startup, .refclk, .xo⟩] → s.clk.refclk.edges = true →
    -200 ≤ ppm → ppm ≤ 200 →
    exec (.sourceTestDone 0 ppm m) s = .next (settle { s with clk := { s.clk with
      tests := [], lastPpm := BitVec.ofInt 16 ppm, lastKind := 0, refclk := ⟨true, true⟩, lastStable := .refclk,
      xo := { s.clk.xo with stable := true }, attempts := 0, phase := .locking, lockTo := .refclk } }))
  ∧ (∀ (s : State) (ppm : Int) (m : Bool), s.clk.tests = [⟨.startup, .refclk, .xo⟩] → s.clk.refclk.edges = true →
    ppm < -200 ∨ 200 < ppm → s.clk.attempt = none →
    exec (.sourceTestDone 0 ppm m) s = .next (settle (if s.clk.attempts < 2
      then { s with clk := startTests { s.clk with
        tests := [], lastPpm := BitVec.ofInt 16 (max (-32767) (min 32767 ppm)), lastKind := 0,
        attempts := s.clk.attempts + 1 } }
      else { s with
        clk := { s.clk with
          tests := [], lastPpm := BitVec.ofInt 16 (max (-32767) (min 32767 ppm)), lastKind := 0, attempts := 3,
          phase := .off },
        dev := { s.dev with clkFaultLow := true } })))
  ∧ (∀ (s : State), s.clk.phase = .locking → s.dev.mode ≠ .trim →
    ((List.range 4).any fun d => decide ((s.clk.div d).ratio ≠ nominalRatio d)) = true →
    exec .rootPllLock s = .next (settle { s with clk := { s.clk with
      lock := true, source := sourceCode s.clk.lockTo, attempt := none, attempts := 0, phase := .startRamp,
      div0 := { s.clk.div0 with target := 32 }, div1 := { s.clk.div1 with target := 64 },
      div2 := { s.clk.div2 with target := 128 }, div3 := { s.clk.div3 with target := 256 } } }))
  ∧ (∀ (s : State), s.clk.coast = false → s.clk.lock = true → s.clk.source = 0 → s.clk.xoRun = true →
    s.clk.xo.stable = true → hasTest s.clk .resetStart .xo = false →
    exec (.clockMonitorTrip 1) s = .next
      (switchTo .xo (raiseEvent 3 (referenceLost .refclk { s with clk := { s.clk with
        refclk := ⟨false, false⟩, trip := true, tripCause := 1, lastStable := .xo,
        primaryPassed := s.clk.primaryPassed && s.clk.primaryRecov,
        tests := s.clk.tests.filter fun t => decide (t.src ≠ .refclk) } }))))
  ∧ (∀ (x : Source) (s : State), (switchTo x s).clk.source = sourceCode x ∧ (switchTo x s).clk.lock = true
    ∧ (switchTo x s).clk.switched = true ∧ (switchTo x s).evt.pend = s.evt.pend ||| BitVec.twoPow 384 3
    ∧ switchTo x s = { s with
        clk := (switchTo x s).clk, evt := (switchTo x s).evt, eng := (switchTo x s).eng
        lan := { s.lan with quads := (switchTo x s).lan.quads } }
    ∧ ∀ q, quadRuns (switchTo x s) q = quadRuns s q)
  ∧ (∀ (s : State), s.clk.phase = .glide → Answers .vcoGlideDone s fun t =>
    t = { s with
      clk := t.clk, fab := { s.fab with plls := t.fab.plls }, evt := t.evt, eng := t.eng }
    ∧ t.clk.vcoLow = true
    ∧ (∀ n, (s.pll n).granted = false → t.pll n = s.pll n)
    ∧ (∀ n, (s.pll n).granted = true → ∀ out : Bool, (out = false ↔ 3000000 * ((s.pll n).appD + 1) ≤ 93750 * (s.pll n).appM
        ∧ 93750 * (s.pll n).appM ≤ 6000000 * ((s.pll n).appD + 1)) →
      t.pll n = { s.pll n with
        lock := false, lost := (s.pll n).lost || (s.pll n).lock, outOfRange := out, rangeErr := (s.pll n).rangeErr || out })
    ∧ (s.clk.autoReturn = false → s.clk.returnOrdered = false → t.clk = { s.clk with phase := .parked, vcoLow := true })
    ∧ (s.clk.coast = true → s.clk.autoReturn = true ∨ s.clk.returnOrdered = true → s.clk.primaryRecov = false →
      s.clk.refclk.edges = true → s.clk.refclk.stable = true →
      t.clk = { s.clk with phase := .relocking, vcoLow := true, lockTo := .refclk })
    ∧ (s.clk.coast = true → s.clk.autoReturn = true ∨ s.clk.returnOrdered = true → s.clk.primaryRecov = false →
      s.clk.refclk.stable = false → s.clk.xoRun = true → s.clk.xo.stable = true →
      t.clk = { s.clk with phase := .relocking, vcoLow := true, lockTo := .xo }))
  ∧ (∀ (d v : Nat) (s : State), trimOk d v = true → s.dev.mode ≠ .trim →
    exec (.clkTrimDivWrite d v) s = .next { s with clk := s.clk.setDiv d { s.clk.div d with trim := v } })
  ∧ (∀ (d v : Nat) (s : State), trimOk d v = false → exec (.clkTrimDivWrite d v) s = .next s)
  ∧ (∀ (d v : Nat) (s : State), trimOk d v = true → s.dev.mode = .trim → s.sor.modeChange = none → s.clk.lock = true →
    s.clk.phase = .running → s.clk.rampHolds = false →
    ((∀ e, e < 4 → e ≠ d → (s.clk.div e).ratio ≤ (s.clk.div e).trim) → (s.clk.div d).ratio ≤ v →
      Answers (.clkTrimDivWrite d v) s fun t => (t.clk.div d).trim = v ∧ (t.clk.div d).target = v
        ∧ t.clk.rampWait = false ∧ (∀ e, (t.clk.div e).ratio = (s.clk.div e).ratio))
    ∧ (v < (s.clk.div d).ratio → s.clk.rampWait = false → Answers (.clkTrimDivWrite d v) s fun t =>
      t.clk = { s.clk.setDiv d { s.clk.div d with trim := v } with rampWait := true }
      ∧ t = { s with clk := t.clk, gov := { s.gov with supplies := t.gov.supplies } }
      ∧ (t.supply 0).newReqs = (s.supply 0).newReqs ++ [{ kind := 8, index := 0, cls := 2, credits := 32 }]))
  ∧ (∀ (d v : Nat), trimOk d v = true ↔
    (d = 1 ∧ 64 ≤ v ∧ v ≤ 256) ∨ (d = 2 ∧ 128 ≤ v ∧ v ≤ 512) ∨ (d = 3 ∧ 256 ≤ v ∧ v ≤ 512))

/-- R539, R529, R531, R534: the commands 0x0202 to 0x0205. 0x0202 sets the five fields: OK at once while it names the
PRIMARY that is already set, and while the device coasts or uses no judged source, where the new PRIMARY is recorded; a
change of PRIMARY while a judged source other than it is in use completes PENDING and waits for the test of R529. 0x0203
sets the TRIM ratios: OK at once outside TRIM, in TRIM when the ramp leads away from nominal, which begins, and PENDING
with a request for 32 credits when it leads toward nominal. 0x0204 starts a comparison and waits. 0x0205 orders the return
and waits, coasting or on a source other than PRIMARY; a PRIMARY that has passed its test already is switched to at once;
WRONG_STATE else. An argument out of range is BAD_ARG and changes nothing but what taking a command changes. R522, R539,
R544, R551: the clock events that answer a waiting command, a source that shows edges, and a grant: the head of a supply's
queue that fits is booked and what it asked for begins.
It rests on choices of the model: log 12 and 164. -/
def Obligations.ClockCommands : Prop :=
  (∀ (q : CmdCtx) (primary warm auto policy : Nat) (s : State), primary ≤ 1 → warm ≤ 1 → auto ≤ 1 →
    policy ≤ 1 → s.clk.recovPort ≤ 7 → MayIssue q 0x0202 5 s → s.clk.lock = true → s.clk.coast = false →
    s.clk.source = 2 * primary → (s.clk.primaryRecov = true ↔ primary = 1) → s.clk.setPending = false →
    Answers (.clkSourceSet q primary s.clk.recovPort warm auto policy) s fun t =>
      Replied q 0x0202 stOk true [] s t
      ∧ TakenFrom q.mbx 0x0202 { s with clk := startTests (xoPower { s.clk with
          xoWarm := decide (warm = 1), autoReturn := decide (auto = 1), policyCoast := decide (policy = 1) }) } t)
  ∧ (∀ (q : CmdCtx) (port warm auto policy : Nat) (s : State), port ≤ 7 → warm ≤ 1 → auto ≤ 1 →
    policy ≤ 1 → s.clk.recovPort ≠ port → MayIssue q 0x0202 5 s → s.clk.lock = true → s.clk.coast = false →
    s.clk.source = 0 → s.clk.primaryRecov = false → s.clk.setPending = false →
    Answers (.clkSourceSet q 0 port warm auto policy) s fun t =>
      Replied q 0x0202 stOk true [] s t
      ∧ TakenFrom q.mbx 0x0202 { s with clk := startTests (xoPower { s.clk with
          recovPort := port, xoWarm := decide (warm = 1), autoReturn := decide (auto = 1),
          policyCoast := decide (policy = 1), recov := {},
          tests := s.clk.tests.filter fun t => decide (t.src ≠ .recov) }) } t)
  ∧ (∀ (q : CmdCtx) (primary port warm auto policy : Nat) (s : State), primary ≤ 1 → port ≤ 7 → warm ≤ 1 → auto ≤ 1 →
    policy ≤ 1 → MayIssue q 0x0202 5 s → s.clk.lock = true → s.clk.coast = false → s.clk.source ≠ 2 * primary →
    (s.clk.primaryRecov = true ↔ primary = 0) →
    Answers (.clkSourceSet q primary port warm auto policy) s fun t =>
      Replied q 0x0202 stPending false [] s t ∧ Waits q 0x0202 0 0 s t
      ∧ TakenFrom q.mbx 0x0202 { s with clk := t.clk } t
      ∧ (t.clk.primaryRecov = true ↔ primary = 1) ∧ t.clk.recovPort = port ∧ (t.clk.xoWarm = true ↔ warm = 1)
      ∧ (t.clk.autoReturn = true ↔ auto = 1) ∧ (t.clk.policyCoast = true ↔ policy = 1)
      ∧ t.clk.source = s.clk.source ∧ t.clk.setPending = true)
  ∧ (∀ (q : CmdCtx) (primary port warm auto policy : Nat) (s : State), primary ≤ 1 → port ≤ 7 → warm ≤ 1 → auto ≤ 1 →
    policy ≤ 1 → MayIssue q 0x0202 5 s → s.clk.lock = false → s.clk.setPending = false →
    Answers (.clkSourceSet q primary port warm auto policy) s fun t =>
      Replied q 0x0202 stOk true [] s t ∧ TakenFrom q.mbx 0x0202 { s with clk := t.clk } t
      ∧ (t.clk.primaryRecov = true ↔ primary = 1) ∧ t.clk.recovPort = port ∧ (t.clk.xoWarm = true ↔ warm = 1)
      ∧ (t.clk.autoReturn = true ↔ auto = 1) ∧ (t.clk.policyCoast = true ↔ policy = 1)
      ∧ t.clk.source = s.clk.source ∧ t.clk.coast = s.clk.coast ∧ t.clk.lock = false)
  ∧ (∀ (q : CmdCtx) (primary port warm auto policy : Nat) (s : State), primary < 256 → port < 256 → warm < 256 →
    auto < 256 → policy < 256 → 1 < primary ∨ 7 < port ∨ 1 < warm ∨ 1 < auto ∨ 1 < policy → MayIssue q 0x0202 5 s →
    Answers (.clkSourceSet q primary port warm auto policy) s fun t =>
      Replied q 0x0202 stBadArg true [] s t ∧ TakenFrom q.mbx 0x0202 s t)
  ∧ (∀ (q : CmdCtx) (r1 r2 r3 : Nat) (s : State), 64 ≤ r1 → r1 ≤ 256 → 128 ≤ r2 → r2 ≤ 512 → 256 ≤ r3 → r3 ≤ 512 →
    MayIssue q 0x0203 6 s → s.dev.mode ≠ .trim → s.clk.rampWait = false →
    Answers (.clkTrimSet q r1 r2 r3) s fun t =>
      Replied q 0x0203 stOk true [] s t
      ∧ TakenFrom q.mbx 0x0203 { s with clk := { s.clk with
          div1 := { s.clk.div1 with trim := r1 }, div2 := { s.clk.div2 with trim := r2 },
          div3 := { s.clk.div3 with trim := r3 } } } t)
  ∧ (∀ (q : CmdCtx) (r1 r2 r3 : Nat) (s : State), 64 ≤ r1 → r1 ≤ 256 → 128 ≤ r2 → r2 ≤ 512 → 256 ≤ r3 → r3 ≤ 512 →
    MayIssue q 0x0203 6 s → s.dev.mode = .trim → s.sor.modeChange = none → s.clk.lock = true → s.clk.phase = .running →
    s.clk.rampHolds = false → s.clk.rampWait = false → s.clk.div0.ratio ≤ s.clk.div0.trim →
    (s.clk.div1.ratio < r1 → s.clk.div2.ratio ≤ r2 → s.clk.div3.ratio ≤ r3 →
      Answers (.clkTrimSet q r1 r2 r3) s fun t =>
        Replied q 0x0203 stOk true [] s t
        ∧ TakenFrom q.mbx 0x0203 { s with clk := { s.clk with
            div0 := { s.clk.div0 with target := s.clk.div0.trim }, div1 := ⟨s.clk.div1.ratio, r1, r1⟩,
            div2 := ⟨s.clk.div2.ratio, r2, r2⟩, div3 := ⟨s.clk.div3.ratio, r3, r3⟩ } } t)
    ∧ (r1 < s.clk.div1.ratio ∨ r2 < s.clk.div2.ratio ∨ r3 < s.clk.div3.ratio →
      Answers (.clkTrimSet q r1 r2 r3) s fun t =>
        Replied q 0x0203 stPending false [] s t ∧ Waits q 0x0203 0 0 s t
        ∧ TakenFrom q.mbx 0x0203 { s with
            clk := { s.clk with
              div1 := { s.clk.div1 with trim := r1 }, div2 := { s.clk.div2 with trim := r2 },
              div3 := { s.clk.div3 with trim := r3 }, rampWait := true },
            gov := { s.gov with supplies := t.gov.supplies } } t
        ∧ (t.supply 0).newReqs = (s.supply 0).newReqs ++ [{ kind := 8, index := 0, cls := 2, credits := 32 }]
        ∧ ∀ sp, sp ≠ 0 → t.supply sp = s.supply sp))
  ∧ (∀ (q : CmdCtx) (r1 r2 r3 : Nat) (s : State), r1 < 2 ^ 16 → r2 < 2 ^ 16 → r3 < 2 ^ 16 →
    r1 < 64 ∨ 256 < r1 ∨ r2 < 128 ∨ 512 < r2 ∨ r3 < 256 ∨ 512 < r3 → MayIssue q 0x0203 6 s →
    Answers (.clkTrimSet q r1 r2 r3) s fun t => Replied q 0x0203 stBadArg true [] s t ∧ TakenFrom q.mbx 0x0203 s t)
  ∧ (∀ (q : CmdCtx) (a b : Nat) (s : State), a ≤ 2 → b ≤ 2 → MayIssue q 0x0204 2 s → Answers (.clkTest q a b) s fun t =>
      Replied q 0x0204 stPending false [] s t ∧ Waits q 0x0204 (4 * a + b) 0 s t
      ∧ TakenFrom q.mbx 0x0204 { s with clk := { s.clk with
          tests := s.clk.tests.erase ⟨.command, sourceNamed a, sourceNamed b⟩
            ++ [⟨.command, sourceNamed a, sourceNamed b⟩] } } t)
  ∧ (∀ (q : CmdCtx) (a b : Nat) (s : State), a < 256 → b < 256 → 2 < a ∨ 2 < b → MayIssue q 0x0204 2 s →
    Answers (.clkTest q a b) s fun t => Replied q 0x0204 stBadArg true [] s t ∧ TakenFrom q.mbx 0x0204 s t)
  ∧ (∀ (q : CmdCtx) (s : State), MayIssue q 0x0205 0 s → s.clk.coast = true →
    (s.clk.phase ≠ .parked →
      Answers (.clkReturn q) s fun t =>
        Replied q 0x0205 stPending false [] s t ∧ Waits q 0x0205 0 0 s t
        ∧ TakenFrom q.mbx 0x0205 { s with clk := startTests { s.clk with returnOrdered := true } } t)
    ∧ (s.clk.phase = .parked → s.clk.primaryRecov = false → s.clk.refclk.edges = true → s.clk.refclk.stable = true →
      Answers (.clkReturn q) s fun t =>
        Replied q 0x0205 stPending false [] s t ∧ Waits q 0x0205 0 0 s t
        ∧ TakenFrom q.mbx 0x0205 { s with clk := { startTests { s.clk with returnOrdered := true } with
            phase := .relocking, lockTo := .refclk } } t))
  ∧ (∀ (q : CmdCtx) (s : State), MayIssue q 0x0205 0 s → s.clk.coast = false → s.clk.lock = true →
    s.clk.source ≠ (if s.clk.primaryRecov then 2 else 0) →
    (s.clk.primaryPassed = false →
      Answers (.clkReturn q) s fun t =>
        Replied q 0x0205 stPending false [] s t ∧ Waits q 0x0205 0 0 s t
        ∧ TakenFrom q.mbx 0x0205 { s with clk := startTests { s.clk with returnOrdered := true } } t)
    ∧ (s.clk.primaryPassed = true → s.clk.primaryRecov = false → s.clk.phase = .running → s.clk.refclk.edges = true →
      s.clk.refclk.stable = true → (∀ m, ∀ k ∈ (s.mailbox m).tasks, k.opcode ≠ 0x0202 ∧ k.opcode ≠ 0x0205) →
      Answers (.clkReturn q) s fun t =>
        Replied q 0x0205 stOk true [] s t ∧ t.clk.source = 0 ∧ t.clk.lock = true ∧ t.clk.returnOrdered = false
        ∧ t.clk.switched = true ∧ t.evt.pend = s.evt.pend ||| BitVec.twoPow 384 3))
  ∧ (∀ (q : CmdCtx) (s : State), MayIssue q 0x0205 0 s → s.clk.coast = false →
    s.clk.lock = false ∨ s.clk.source = (if s.clk.primaryRecov then 2 else 0) →
    Answers (.clkReturn q) s fun t => Replied q 0x0205 stWrong true [] s t ∧ TakenFrom q.mbx 0x0205 s t)
  ∧ (∀ (x : Source) (s : State), x ≠ .xo ∨ s.clk.xoRun = true → x ≠ .recov ∨ recovCandidate s = true →
    Answers (.sourceShowsEdges x) s fun t =>
    (t.clk.src x).edges = true ∧ (t.clk.src x).stable = (s.clk.src x).stable ∧ (∀ k ∈ s.clk.tests, k ∈ t.clk.tests)
      ∧ t = { s with clk := t.clk })
  ∧ (∀ s : State, s.clk.phase = .judging → s.clk.attempt = none → s.clk.tests = [] → s.clk.refclk.edges = true →
    s.clk.xoRun = true → Answers (.sourceShowsEdges .xo) s fun t => t.clk.tests = [⟨.startup, .refclk, .xo⟩])
  ∧ (∀ (x : Source) (s : State), (x = .xo ∧ s.clk.xoRun = false) ∨ (x = .recov ∧ recovCandidate s = false) →
    exec (.sourceShowsEdges x) s = .next s)
  ∧ (∀ s : State, waiting 0x0205 0 s = false ∨ s.clk.phase = .relocking → exec .clkReturnTimeout s = .next s)
  ∧ (∀ s : State, waiting 0x0205 0 s = true → s.clk.phase ≠ .relocking → exec .clkReturnTimeout s = .next
    (finish 0x0205 0 stTimeout [] { s with clk := { s.clk with returnOrdered := false } }))
  ∧ (∀ (x y : Source) (s : State), s.clk.tests = [⟨.command, x, y⟩] →
    ((s.clk.src x).edges = false ∨ (s.clk.src y).edges = false →
      exec .clkTestEdgeTimeout s = .next (finish 0x0204 (testNumber x y) stNotReady [] { s with clk := { s.clk with
        tests := [] } }))
    ∧ ((s.clk.src x).edges = true → (s.clk.src y).edges = true → exec .clkTestEdgeTimeout s = .next s
      ∧ ∀ (ppm : Int) (m : Bool), -32767 ≤ ppm → ppm ≤ 32767 →
        exec (.sourceTestDone 0 ppm m) s = .next (settle (finish 0x0204 (testNumber x y) stOk
          (leBytes 2 (BitVec.ofInt 16 ppm).toNat) { s with clk := { s.clk with
            tests := [], lastPpm := BitVec.ofInt 16 ppm, lastKind := 2 } }))))
  ∧ (∀ (q c : Nat) (s : State), granting s = true → s.gov.slewLeft ≠ 0 →
    (∀ sp, sp < 3 → (s.supply sp).newReqs = [] ∧ (s.supply sp).withdrawn = [] ∧ (s.supply sp).returned = []) →
    (s.supply 1).queue = [⟨7, q, 3, c, 0⟩] → (s.supply 2).queue = [] → booked s 1 + c ≤ budget 1 →
    Answers .govDecision s fun t => (t.quad q).state = .waking ∧ heldBy t 7 q = heldBy s 7 q + c ∧ (t.supply 1).queue = []
      ∧ booked t 1 = booked s 1 + c ∧ ∀ k, k ≠ q → t.quad k = s.quad k)

/-! ### Power, HOLD and temperature (chapters 19 and 20) -/

/-- R652, R678, R564, R666: a release of POR_N (or of the internal reset) in OFF samples the three pins and starts the
clocks in LOAD, CFG_MODE 0b101 to 0b111 staying in reset; either reset loses every state but fuses and flash (the count of
free values drawn and the queue of waiting commands are the model's own and stay); CFG_RESTART_N restarts into LOAD with
nothing kept but fuses, flash, KEY_SERIAL, the RWS fields and the sources outside. COMPAT is low in all three (high:
R666's four bits, of which the next statement speaks). R666: COMPAT high at a reset sets ENC_V1 of every mailbox, the
GITUR v1 format, EMPTY_ZERO and CNT32, and nothing else of the four units; low, it changes nothing. R656, R657, R659,
R661, R680: HOLD_N low for 100 ns enters HOLD with cause 0x02, which stops no count of free values, no directory and no
fuse, while every pin drives its SAFE_LEVEL; a pulse below 20 ns, or before CLOCK has set, does nothing, and between 20
and 100 ns a free value decides (log 10); in HOLD a second cause only sets its bit, but for one of the tick of entry with
a lower code; an idle tile stops its clocks, and the tiles that still run are counted; the sensors move THERM_N by their
two thresholds.
It rests on choices of the model: log 2, 10 and 19. -/
def Obligations.PowerAndHold : Prop :=
  (∀ (c : Instr) (cfgMode : Nat) (pull : Bool) (s : State), cfgMode < 8 → s.dev.mode = .off →
    c = .porNRelease false cfgMode pull ∨ c = .resetReleaseTimer false cfgMode pull → Answers c s fun t =>
      t = { s with
        dev := { s.dev with
          compat := false, cfgMode := cfgMode, pullCfgN := pull, powered := true, cfgErrLow := decide (5 ≤ cfgMode),
          mode := .load },
        clk := if 5 ≤ cfgMode then s.clk else { s.clk with phase := .judging, xoRun := true },
        evt := t.evt, eng := t.eng }
      ∧ t.evt.pend = s.evt.pend ||| BitVec.twoPow 384 0)
  ∧ (∀ (c : Instr) (s : State), c = .porNAssert ∨ c = .supplyMonitorTrip →
    exec c s = .next { State.reset with
      boot := { ({} : Boot) with
        dir := s.boot.dir, dirOther := s.boot.dirOther, fwAVersion := s.boot.fwAVersion, fwASvn := s.boot.fwASvn,
            fwBVersion := s.boot.fwBVersion,
        fwBSvn := s.boot.fwBSvn, setAFmt := s.boot.setAFmt, setA := s.boot.setA, setBFmt := s.boot.setBFmt,
        setB := s.boot.setB },
      fuse := s.fuse, free := s.free, pending := s.pending })
  ∧ (∀ (cfgMode : Nat) (pull : Bool) (s : State), cfgMode < 5 → s.dev.mode ≠ .off → s.dev.compat = false →
    Answers (.cfgRestart cfgMode pull) s fun t => t = { State.reset with
      dev := { cfgMode := cfgMode, pullCfgN := pull, mode := .load, powered := true },
      clk := { phase := .judging, xoRun := true, refclk := { edges := s.clk.refclk.edges },
               xo := { edges := s.clk.xo.edges && s.clk.xoRun } },
      sor := { restarts := s.sor.restarts, mismatches := s.sor.mismatches },
      boot := { ({} : Boot) with
        dir := s.boot.dir, dirOther := s.boot.dirOther, fwAVersion := s.boot.fwAVersion, fwASvn := s.boot.fwASvn,
            fwBVersion := s.boot.fwBVersion,
        fwBSvn := s.boot.fwBSvn, setAFmt := s.boot.setAFmt, setA := s.boot.setA, setBFmt := s.boot.setBFmt,
        setB := s.boot.setB, holdSafe := s.boot.holdSafe, fwFellBack := s.boot.fwFellBack, altBoot := s.boot.altBoot,
            heldStart := true },
      ddr := { subs := t.ddr.subs }, sec := { scm := { keySerial := s.sec.scm.keySerial } },
      evt := { pend := if s.dev.mode = .load then 0 else BitVec.twoPow 384 0 }, fuse := s.fuse, free := s.free,
          pending := s.pending }
      ∧ ∀ u, t.sub u = { mark0 := (s.sub u).mark0, chip0 := (s.sub u).chip0, mark1 := (s.sub u).mark1,
                         chip1 := (s.sub u).chip1 })
  ∧ (∀ s : State, s.dev.compat = true → (∀ m, (applyCompat s).mailbox m = { encV1 := decide (m < 18) })
    ∧ applyCompat s = { s with
        mbx := (applyCompat s).mbx, boot := { s.boot with giturV1 := true }, qm := { s.qm with emptyZero := true },
        noc := { s.noc with cnt32 := true } })
  ∧ (∀ s : State, s.dev.compat = false → applyCompat s = s)
  ∧ (∀ (ns : Nat) (s : State), 100 ≤ ns → s.dev.clockSeen = true → s.dev.mode ≠ .off → s.dev.mode ≠ .hold →
    Answers (.holdNLow ns) s fun t =>
      t.dev.mode = .hold ∧ t.sor.modeChange = none ∧ t.sec.lcs.blowing = none
      ∧ t.sor.restart = (if s.sor.restart = some .reset then some .reset else none) ∧ t.dev.holdCause = 2 ∧ t.dev.holdCauses = 2
          ∧ t.dev.holdTick = BitVec.ofNat 64 s.now
      ∧ t.dev.holdLow = true ∧ t.dev.busyTiles = 0 ∧ (∀ p, (t.pin p).out = (s.pin p).safeLevel ∧ (t.pin p).flying = []
        ∧ (t.pin p).stored = [] ∧ (t.pin p).released = [])
      ∧ (t.boot, t.lan, t.fuse, t.free, t.pending) = (s.boot, s.lan, s.fuse, s.free, s.pending)
      ∧ (t.eng.imem, t.eng.dmem, t.eng.clusters) = (s.eng.imem, s.eng.dmem, s.eng.clusters)
      ∧ (t.ddr.subs, t.ddr.wins) = (s.ddr.subs, s.ddr.wins))
  ∧ (∀ (ns : Nat) (s : State), ns < 20 ∨ s.dev.clockSeen = false → exec (.holdNLow ns) s = .next s)
  ∧ (∀ (ns : Nat) (s : State), 20 ≤ ns → ns < 100 → s.dev.clockSeen = true → exec (.holdNLow ns) s
    = .next (if Config.freeValue 1 s.free = 1 then enterHold 2 { s with free := s.free + 1 }
        else { s with free := s.free + 1 }))
  ∧ (∀ (ns : Nat) (s : State), 100 ≤ ns → s.dev.clockSeen = true → s.dev.mode = .hold →
    exec (.holdNLow ns) s = .next { s with dev := { s.dev with
      holdCauses := s.dev.holdCauses ||| 2,
      holdCause := if s.dev.holdTick.toNat = s.now ∧ 2 < s.dev.holdCause then 2 else s.dev.holdCause } })
  ∧ (∀ (n : Nat) (s : State), n < 96 → s.dev.mode = .hold → s.dev.busyTiles = 0 → tileClocks s n = true →
    portIdle (s.tile n) = true →
    Answers (.holdTileIdle n) s fun t => t = { s with fab := { s.fab with tiles := t.fab.tiles } }
      ∧ t.tile n = { s.tile n with holdStopped := true } ∧ ∀ m, m ≠ n → t.tile m = s.tile m)
  ∧ (∀ s : State, s.dev.mode = .hold →
    exec .holdTileTimeout s = .next { s with
      dev := { s.dev with busyTiles := ((List.range 96).filter fun n => tileClocks s n).length } })
  ∧ (∀ (e h w : Int) (s : State), s.dev.clockSeen = true → 110 ≤ e ∨ 110 ≤ h ∨ 110 ≤ w →
    exec (.tempSensorRead e h w) s = .next { s with dev := { s.dev with
      therm := true, tempTrip := s.dev.tempTrip || !s.dev.therm, tempEast := BitVec.ofInt 8 e,
      tempHub := BitVec.ofInt 8 h, tempWest := BitVec.ofInt 8 w } })
  ∧ (∀ (e h w : Int) (s : State), s.dev.clockSeen = true → e < 105 → h < 105 → w < 105 →
    exec (.tempSensorRead e h w) s = .next { s with dev := { s.dev with
      therm := false, tempEast := BitVec.ofInt 8 e, tempHub := BitVec.ofInt 8 h, tempWest := BitVec.ofInt 8 w } })
  ∧ (∀ (e h w : Int) (s : State), s.dev.clockSeen = true → e < 110 → h < 110 → w < 110 →
    105 ≤ e ∨ 105 ≤ h ∨ 105 ≤ w →
    exec (.tempSensorRead e h w) s = .next { s with dev := { s.dev with
      tempEast := BitVec.ofInt 8 e, tempHub := BitVec.ofInt 8 h, tempWest := BitVec.ofInt 8 w } })

/-! ### The current governor (chapter 15) -/

/-- R541, R544, R548, R560: CURRENT sets with the standing reservation booked; the head's long wait sets its bit and event
4; CLR_PEAK sets PEAK to BOOKED; a decision that may not grant still books returns, drops withdrawals and enters new
requests, and changes nothing else. R543, R544, R545, R551: presenting a request that fits appends it with its class; a
withdrawal takes a request that has not entered; and giving everything back leaves nothing held, changing nothing but the
governor's books.
It rests on choices of the model: log 17. -/
def Obligations.GovernorBooks : Prop :=
  (∀ s : State, s.dev.ready.clock = true → clockHolds s = true → s.gov.granting = false → s.dev.ready.current = false →
    Answers .currentReady s fun t =>
      t = nextGroupClear (settle { s with gov := { s.gov with granting := true } })
      ∧ t.gov.standing = true ∧ t.gov.slewLeft = 0 ∧ t.dev.ready.current = true)
  ∧ (∀ (sp : Nat) (s : State), sp < 3 → s.gov.waitWarn ≠ 0 → (s.supply sp).queue ≠ [] → (s.supply sp).warned = false →
    s.gov.waitWarn * 1024 ≤ s.now - (s.supply sp).headSince →
    Answers (.govLongWait sp) s fun t => t.evt.pend = s.evt.pend ||| BitVec.twoPow 384 4
      ∧ t = { s with
        gov := { s.gov with longWait := s.gov.longWait ||| BitVec.twoPow 3 sp, supplies := t.gov.supplies },
        evt := t.evt, eng := t.eng }
      ∧ t.supply sp = { s.supply sp with warned := true } ∧ ∀ m, m ≠ sp → t.supply m = s.supply m)
  ∧ (∀ (sp : Nat) (s : State), sp < 3 → Answers (.curClrPeak sp) s fun t =>
      t = { s with gov := { s.gov with supplies := t.gov.supplies } }
      ∧ t.supply sp = { s.supply sp with peak := booked s sp } ∧ ∀ m, m ≠ sp → t.supply m = s.supply m)
  ∧ (∀ s : State, granting s = false → Answers .govDecision s fun t =>
      t = { s with gov := { s.gov with supplies := t.gov.supplies } }
      ∧ (∀ sp, sp < 3 → (t.supply sp).returned = [] ∧ (t.supply sp).withdrawn = [] ∧ (t.supply sp).newReqs = []
        ∧ (t.supply sp).peak = (s.supply sp).peak
        ∧ (t.supply sp).held = (s.supply sp).returned.foldl (fun h e => tmod 0 h e.1 (· - e.2)) (s.supply sp).held
        ∧ (t.supply sp).queue.take ((s.supply sp).queue.filter
            fun r => !((s.supply sp).withdrawn.contains (r.kind, r.index))).length
          = (s.supply sp).queue.filter fun r => !((s.supply sp).withdrawn.contains (r.kind, r.index)))
      ∧ ∀ sp, 3 ≤ sp → t.supply sp = s.supply sp)
  ∧ (∀ (kind index credits : Nat) (s : State), kind ≤ 9 → credits + standingOf (supplyOf kind) ≤ budget (supplyOf kind) →
    request kind index credits s = s.modSupply (if kind = 7 then 1 else if kind = 6 then 2 else 0) fun u => { u with
      newReqs := u.newReqs ++ [⟨kind, index,
          if kind = 4 ∨ kind = 5 ∨ kind = 6 then 1 else if kind = 0 ∨ kind = 1 ∨ kind = 8 then 2
          else if kind = 7 then 3 else if kind = 2 then 4 else if kind = 3 then 5 else 6, credits, 0⟩] })
  ∧ (∀ (kind index credits : Nat) (s : State), kind ≤ 9 → budget (supplyOf kind) < credits + standingOf (supplyOf kind) →
    request kind index credits s = raiseEvent 4 { s with gov := { s.gov with
      reject := true, rejIndex := if s.gov.reject then s.gov.rejIndex else index,
      rejKind := if s.gov.reject then s.gov.rejKind else kind,
      rejSupply := if s.gov.reject then s.gov.rejSupply else supplyOf kind } })
  ∧ (∀ (kind index : Nat) (s : State), ((withdraw kind index s).supply (supplyOf kind)).queue = (s.supply (supplyOf kind)).queue
    ∧ ∀ r ∈ ((withdraw kind index s).supply (supplyOf kind)).newReqs, ¬ (r.kind = kind ∧ r.index = index))
  ∧ (∀ (kind index : Nat) (s : State), heldBy (giveBackAll kind index s) kind index = 0
    ∧ giveBackAll kind index s = { s with gov := { s.gov with
        stages := (giveBackAll kind index s).gov.stages, supplies := (giveBackAll kind index s).gov.supplies } }
    ∧ ∀ sp, ((giveBackAll kind index s).supply sp).queue = (s.supply sp).queue
      ∧ ((giveBackAll kind index s).supply sp).held = (s.supply sp).held)

/-- R542: "The governor never lets the booked total exceed the budget." A decision keeps every account within its budget.
R545: requests that enter a queue in one decision stand in the order of class, then KIND, then INDEX, and none is lost. -/
def Obligations.GovernorGrantsInOrder : Prop :=
  (∀ s t : State, s.gov.standing = true → (∀ sp, sp < 3 → booked s sp ≤ budget sp) → exec .govDecision s = .next t →
    ∀ sp, sp < 3 → booked t sp ≤ budget sp)
  ∧ (∀ (now : Nat) (u : Supply), ∃ new, (enterNew now u).queue = u.queue ++ new
    ∧ new.Pairwise (fun a b => a.cls < b.cls ∨ (a.cls = b.cls
      ∧ (a.kind < b.kind ∨ (a.kind = b.kind ∧ a.index ≤ b.index))))
    ∧ new.Perm (u.newReqs.map fun r => { r with entered := now }))
  ∧ (∀ (kind index credits : Nat) (s : State), neverFits (supplyOf kind) credits = false →
    request kind index credits s = s.modSupply (supplyOf kind) fun u =>
      { u with newReqs := u.newReqs ++ [⟨kind, index, classOf kind, credits, 0⟩] })
  ∧ (classOf 4 = 1 ∧ classOf 5 = 1 ∧ classOf 6 = 1 ∧ classOf 0 = 2 ∧ classOf 1 = 2 ∧ classOf 8 = 2 ∧ classOf 7 = 3
    ∧ classOf 2 = 4 ∧ classOf 3 = 5 ∧ classOf 9 = 6)

/-! ### The timebase (chapter 13) -/

/-- R503, R504, R494: the servo. An offset is dropped under COAST, FORCE_HOLD and HOLD; ignored in FREE and GRANDMASTER;
steps N at or above the threshold; and below it steers the rate, with every clamp to 2^38, and moves lock_run. FORCE_HOLD,
SERVO_EN, TIMEOUT and HOLD_LIMIT take the transitions of R504, and a snapshot takes the count and N together. -/
def Obligations.ServoEvents : Prop :=
  (∀ (e : Int) (s : State), -(2 ^ 63) ≤ e → e < 2 ^ 63 → s.tim.servo = .coast ∨ s.tim.forceHold = true ∨ s.dev.mode = .hold →
    exec (.timOffset e) s = .next { s with tim := { s.tim with
      offsetLo := wrapNat 64 e % 2 ^ 32, offsetHi := wrapNat 64 e / 2 ^ 32, lastOffset := e, offsetDrop := true } })
  ∧ (∀ (e : Int) (s : State), -(2 ^ 63) ≤ e → e < 2 ^ 63 → s.tim.servo = .free ∨ s.tim.servo = .grandmaster →
    s.tim.forceHold = false → s.dev.mode ≠ .hold →
    exec (.timOffset e) s = .next { s with tim := { s.tim with
      offsetLo := wrapNat 64 e % 2 ^ 32, offsetHi := wrapNat 64 e / 2 ^ 32, lastOffset := e } })
  ∧ (∀ (e : Int) (s : State), -(2 ^ 63) ≤ e → e < 2 ^ 63 →
    s.tim.servo = .acquire ∨ s.tim.servo = .locked ∨ s.tim.servo = .holdover → s.tim.forceHold = false →
    s.dev.mode ≠ .hold → s.tim.stepThresh * 1000 * 2 ^ 16 ≤ e.natAbs →
    exec (.timOffset e) s = .next (settle (raiseEvent 222 { s with tim := { s.tim with
      offsetLo := wrapNat 64 e % 2 ^ 32, offsetHi := wrapNat 64 e / 2 ^ 32, lastOffset := e,
      ntOffset := (((s.tim.ntOffset : Int) - e) % ntModulus).toNat, lockRun := 0, stepped := true, timeValid := false,
      servo := .acquire } })))
  ∧ (∀ (e : Int) (s : State), -(2 ^ 63) ≤ e → e < 2 ^ 63 → s.tim.servo = .acquire → s.tim.forceHold = false →
    s.dev.mode ≠ .hold → e.natAbs < s.tim.stepThresh * 1000 * 2 ^ 16 → 0 ≤ s.tim.kiExp → 0 ≤ s.tim.kpExp →
    s.tim.lockBound * 2 ^ 16 < e.natAbs → s.tim.lockCount ≠ 0 →
    exec (.timOffset e) s = .next (settle { s with tim := { s.tim with
      offsetLo := wrapNat 64 e % 2 ^ 32, offsetHi := wrapNat 64 e / 2 ^ 32, lastOffset := e, lockRun := 0,
      integ := max (-(2 ^ 38)) (min (2 ^ 38) (s.tim.integ - e * 2 ^ s.tim.kiExp.toNat)),
      rate := max (-(2 ^ 38)) (min (2 ^ 38) (max (-(2 ^ 38)) (min (2 ^ 38) (s.tim.integ - e * 2 ^ s.tim.kiExp.toNat))
        - e * 2 ^ s.tim.kpExp.toNat)) } }))
  ∧ (∀ (e : Int) (s : State), -(2 ^ 63) ≤ e → e < 2 ^ 63 → s.tim.servo = .acquire → s.tim.forceHold = false →
    s.dev.mode ≠ .hold → e.natAbs < s.tim.stepThresh * 1000 * 2 ^ 16 → e.natAbs ≤ s.tim.lockBound * 2 ^ 16 →
    s.tim.lockCount ≤ s.tim.lockRun + 1 → s.tim.lockCount ≤ 15 →
    Answers (.timOffset e) s fun t => t.tim.servo = .locked ∧ t.tim.timeValid = true
      ∧ t.tim.lockRun = min 15 (s.tim.lockRun + 1) ∧ t.evt.pend.getLsbD 221 = true)
  ∧ (∀ s : State, exec .timSnap s = .next { s with tim := { s.tim with
      snapTick := s.now, snapTime := (s.tim.ntOffset + s.tim.tick / (3 * 2 ^ 31)) % ntModulus } })
  ∧ (∀ s : State, s.tim.servoEn = false → s.tim.servo = .free →
    exec .servoEnSet s = .next { s with tim := { s.tim with servoEn := true, servo := .acquire, lockRun := 0 } })
  ∧ (∀ s : State, s.tim.servoEn = true →
    exec .servoEnClear s = .next (settle { s with tim := { s.tim with servoEn := false, servo := .free, timeValid := false } }))
  ∧ (∀ s : State, s.tim.forceHold = false → s.tim.servo = .acquire ∨ s.tim.servo = .locked →
    exec .forceHoldSet s = .next (raiseEvent 222 { s with tim := { s.tim with
      forceHold := true, servo := .holdover, rate := if s.dev.mode = .hold then s.tim.rate else s.tim.integ } }))
  ∧ (∀ s : State, s.tim.forceHold = false → s.tim.servo ≠ .acquire → s.tim.servo ≠ .locked →
    exec .forceHoldSet s = .next { s with tim := { s.tim with forceHold := true } })
  ∧ (∀ s : State, s.tim.forceHold = true → exec .forceHoldClear s = .next { s with tim := { s.tim with forceHold := false } })
  ∧ (∀ s : State, s.tim.timeout ≠ 0 → s.dev.mode ≠ .hold → s.tim.servo = .acquire ∨ s.tim.servo = .locked →
    exec .servoTimeout s = .next (raiseEvent 222 { s with tim := { s.tim with servo := .holdover, rate := s.tim.integ } }))
  ∧ (∀ s : State, s.tim.servo = .holdover →
    exec .holdLimitExpiry s = .next (raiseEvent 222 (settle { s with tim := { s.tim with
      timeValid := false, holdExpired := true } })))

/-- R513: the time commands that change something, with TIMEBASE set and fields in range; NOT_READY while TIMEBASE is clear. -/
def Obligations.TimeCommands : Prop :=
  (∀ (q : CmdCtx) (kp ki count bound stp timeout limit : Nat) (s : State), kp < 256 → ki < 256 → -16 ≤ sgn 8 kp →
    sgn 8 kp ≤ 15 → -16 ≤ sgn 8 ki → sgn 8 ki ≤ 15 → 1 ≤ count → count ≤ 15 → bound < 2 ^ 16 → stp < 2 ^ 16 →
    timeout < 2 ^ 16 → limit < 2 ^ 16 → MayIssue q 0x0B02 12 s → s.dev.ready.timebase = true →
    Answers (.timeServoSet q kp ki count bound stp timeout limit) s fun t => Replied q 0x0B02 stOk true [] s t
      ∧ TakenFrom q.mbx 0x0B02 { s with tim := { s.tim with
        kpExp := sgn 8 kp, kiExp := sgn 8 ki, lockCount := count, lockBound := bound, stepThresh := stp,
        timeout := timeout, holdLimit := limit } } t)
  ∧ (∀ (q : CmdCtx) (mode tick sec ns frac : Nat) (s : State), mode ≤ 1 → tick < 2 ^ 64 → sec < 2 ^ 48 → ns < 10 ^ 9 →
    frac < 2 ^ 16 → MayIssue q 0x0B03 28 s → s.dev.ready.timebase = true →
    s.tim.servo = .free ∨ s.tim.servo = .grandmaster →
    Answers (.timeSet q mode tick sec ns frac) s fun t => Replied q 0x0B03 stOk true [] s t
      ∧ t.tim.servo = (if mode = 1 then .grandmaster else .free) ∧ (t.tim.timeValid = true ↔ mode = 1)
      ∧ (t.tim.ntOffset + ntOfTick (tick * 2 ^ 48)) % ntModulus = (sec * 10 ^ 9 + ns) * 2 ^ 16 + frac
      ∧ t.tim.tick = s.tim.tick
      ∧ (t.tim.ntOffset ≠ s.tim.ntOffset → t.tim.stepped = true ∧ t.evt.pend.getLsbD 222 = true))
  ∧ (∀ (q : CmdCtx) (mode tick sec ns frac : Nat) (s : State), mode ≤ 1 → tick < 2 ^ 64 → sec < 2 ^ 48 → ns < 10 ^ 9 →
    frac < 2 ^ 16 → MayIssue q 0x0B03 28 s → s.dev.ready.timebase = true → s.tim.servo ≠ .free →
    s.tim.servo ≠ .grandmaster →
    Answers (.timeSet q mode tick sec ns frac) s fun t => Replied q 0x0B03 stWrong true [] s t ∧ TakenFrom q.mbx 0x0B03 s t)
  ∧ (∀ (q : CmdCtx) (ports domain every : Nat) (s : State), ports < 256 → domain < 256 → every ≤ 1 →
    MayIssue q 0x0B04 3 s → s.dev.ready.timebase = true →
    Answers (.timeTcSet q ports domain every) s fun t => Replied q 0x0B04 stOk true [] s t
      ∧ TakenFrom q.mbx 0x0B04 { s with tim := { s.tim with
        tcPorts := ports, tcDomain := domain, tcAll := decide (every = 1) } } t)
  ∧ (∀ (q : CmdCtx) (p : Nat) (s : State), p < 8 → MayIssue q 0x0B05 1 s → s.dev.ready.timebase = true →
    (s.port p).tsFifo = [] → Answers (.timeTsRead q p) s fun t =>
      Replied q 0x0B05 stOk true (leBytes 17 0) s t ∧ TakenFrom q.mbx 0x0B05 s t)
  ∧ (∀ (q : CmdCtx) (p : Nat) (e : TsEntry) (l : List TsEntry) (s : State), p < 8 → MayIssue q 0x0B05 1 s →
    s.dev.ready.timebase = true → (s.port p).tsFifo = e :: l → Answers (.timeTsRead q p) s fun t =>
      Replied q 0x0B05 stOk true (leBytes 1 l.length ++ leBytes 1 e.msgType ++ leBytes 2 e.seqId ++ leBytes 1 e.domain
        ++ leBytes 1 1 ++ leBytes 2 0 ++ leBytes 8 e.tick ++ leBytes 1 e.sub) s t
      ∧ TakenFrom q.mbx 0x0B05 { s with lan := { s.lan with ports := t.lan.ports } } t
      ∧ t.port p = { s.port p with tsFifo := l } ∧ ∀ m, m ≠ p → t.port m = s.port m)
  ∧ (∀ (q : CmdCtx) (p domain transport logSync role : Nat) (s : State), p < 8 ∨ p = 255 → domain ≤ 239 → transport ≤ 2 →
    logSync < 256 → -7 ≤ sgn 8 logSync → sgn 8 logSync ≤ 0 → role ≤ 1 → MayIssue q 0x0B06 5 s →
    s.dev.ready.timebase = true →
    Answers (.timePtpConfig q p domain transport logSync role) s fun t => Replied q 0x0B06 stOk true [] s t
      ∧ TakenFrom q.mbx 0x0B06 { s with tim := { s.tim with
        ptpPort := p, ptpDomain := domain, ptpTransport := transport, ptpLogSync := sgn 8 logSync, ptpRole := role } } t)
  ∧ (∀ (q : CmdCtx) (s : State), MayIssue q 0x0B08 1 s → s.dev.ready.timebase = true →
    Answers (.timeHoldover q 0) s fun t => Replied q 0x0B08 stOk true [] s t
      ∧ TakenFrom q.mbx 0x0B08 { s with tim := { s.tim with forceHold := false } } t)
  ∧ (∀ (q : CmdCtx) (s : State), MayIssue q 0x0B08 1 s → s.dev.ready.timebase = true → s.tim.servo = .locked →
    s.dev.mode ≠ .hold →
    Answers (.timeHoldover q 1) s fun t => Replied q 0x0B08 stOk true [] s t
      ∧ t.tim = { s.tim with forceHold := true, servo := .holdover, rate := s.tim.integ }
      ∧ t.evt.pend.getLsbD 222 = true)
  ∧ (∀ (q : CmdCtx) (enter : Nat) (s : State), enter ≤ 1 → MayIssue q 0x0B08 1 s → s.dev.ready.timebase = false →
    Answers (.timeHoldover q enter) s fun t => Replied q 0x0B08 stNotReady true [] s t ∧ TakenFrom q.mbx 0x0B08 s t)
  ∧ (∀ (q : CmdCtx) (kp ki count bound stp timeout limit : Nat) (s : State), kp < 256 → ki < 256 → -16 ≤ sgn 8 kp →
    sgn 8 kp ≤ 15 → -16 ≤ sgn 8 ki → sgn 8 ki ≤ 15 → 1 ≤ count → count ≤ 15 → MayIssue q 0x0B02 12 s →
    s.dev.ready.timebase = false → Answers (.timeServoSet q kp ki count bound stp timeout limit) s fun t =>
      Replied q 0x0B02 stNotReady true [] s t ∧ TakenFrom q.mbx 0x0B02 s t)
  ∧ (∀ (q : CmdCtx) (mode tick sec ns frac : Nat) (s : State), mode ≤ 1 → ns < 10 ^ 9 → MayIssue q 0x0B03 28 s →
    s.dev.ready.timebase = false → Answers (.timeSet q mode tick sec ns frac) s fun t =>
      Replied q 0x0B03 stNotReady true [] s t ∧ TakenFrom q.mbx 0x0B03 s t)
  ∧ (∀ (q : CmdCtx) (ports domain every : Nat) (s : State), every ≤ 1 → MayIssue q 0x0B04 3 s →
    s.dev.ready.timebase = false → Answers (.timeTcSet q ports domain every) s fun t =>
      Replied q 0x0B04 stNotReady true [] s t ∧ TakenFrom q.mbx 0x0B04 s t)
  ∧ (∀ (q : CmdCtx) (p : Nat) (s : State), p < 8 → MayIssue q 0x0B05 1 s → s.dev.ready.timebase = false →
    Answers (.timeTsRead q p) s fun t => Replied q 0x0B05 stNotReady true [] s t ∧ TakenFrom q.mbx 0x0B05 s t)
  ∧ (∀ (q : CmdCtx) (p domain transport logSync role : Nat) (s : State), p < 8 ∨ p = 255 → domain ≤ 239 → transport ≤ 2 →
    logSync < 256 → -7 ≤ sgn 8 logSync → sgn 8 logSync ≤ 0 → role ≤ 1 → MayIssue q 0x0B06 5 s →
    s.dev.ready.timebase = false → Answers (.timePtpConfig q p domain transport logSync role) s fun t =>
      Replied q 0x0B06 stNotReady true [] s t ∧ TakenFrom q.mbx 0x0B06 s t)

/-! ### Rights, key and lifecycle (chapter 11) -/

/-- R421, R424: what the table judges: a request of a class other than 1 and 6, and of class 7 in DEVELOP, passes exactly
when, for every 4 KiB page it touches,
    some enabled entry of its class and index grants each right it needs (an entry of a class without indices has both at 0,
    R424). Classes 1
and 6 always pass; R427: class 7 passes in BLANK and RETURN, and in FIELD only reads of pages 0 and 1. While no change
spreads, judging changes nothing; while one does, the table judged by is the new one or one that a copy still holds, by a free
value (R425). A refused request is counted and, the first one, captured (R422). -/
def Obligations.RightsJudged : Prop :=
  (∀ (cls index addr last : Nat) (rd wr : Bool) (s : State), cls ≠ 1 → cls ≠ 6 →
    cls ≠ 7 ∨ lifecycle s.fuse = 1 → s.sec.acc.old = [] →
    (rightsJudge cls index rd wr addr last s).2 = s
    ∧ ((rightsJudge cls index rd wr addr last s).1 = true ↔
      ∀ p, addr / 4096 ≤ p → p ≤ (addr + last) / 4096 →
        (rd = true → ∃ e ∈ s.sec.acc.entries, e.2.en = true ∧ e.2.rd = true ∧ e.2.cls = cls ∧ e.2.idxLo ≤ index
          ∧ index ≤ e.2.idxHi ∧ (cls = 2 ∨ cls = 3 ∨ (e.2.idxLo = 0 ∧ e.2.idxHi = 0)) ∧ e.2.base ≤ p ∧ p ≤ e.2.limit)
        ∧ (wr = true → ∃ e ∈ s.sec.acc.entries, e.2.en = true ∧ e.2.wr = true ∧ e.2.cls = cls ∧ e.2.idxLo ≤ index
          ∧ index ≤ e.2.idxHi ∧ (cls = 2 ∨ cls = 3 ∨ (e.2.idxLo = 0 ∧ e.2.idxHi = 0)) ∧ e.2.base ≤ p ∧ p ≤ e.2.limit)))
  ∧ (∀ (cls index addr last : Nat) (rd wr : Bool) (s : State), cls ≠ 1 → cls ≠ 6 →
    cls ≠ 7 ∨ lifecycle s.fuse = 1 → s.sec.acc.old ≠ [] →
    (rightsJudge cls index rd wr addr last s).2 = { s with free := s.free + 1 }
    ∧ ∃ table ∈ s.sec.acc.entries :: s.sec.acc.old,
      (rightsJudge cls index rd wr addr last s).1 = tablePasses table cls index rd wr addr last)
  ∧ (∀ (cls index addr last : Nat) (rd wr : Bool) (s : State), cls = 1 ∨ cls = 6 →
    rightsJudge cls index rd wr addr last s = (true, s))
  ∧ (∀ (index addr last : Nat) (rd wr : Bool) (s : State), lifecycle s.fuse = 0 ∨ lifecycle s.fuse = 3 →
    rightsJudge 7 index rd wr addr last s = (true, s))
  ∧ (∀ (index addr last : Nat) (rd wr : Bool) (s : State), lifecycle s.fuse = 2 →
    rightsJudge 7 index rd wr addr last s = (rd && !wr && decide ((addr + last) / 4096 ≤ 1), s))
  ∧ (∀ (cls index addr : Nat) (wr : Bool) (s : State),
    (recordViolation cls index wr addr s).evt.pend.getLsbD 323 = true
    ∧ (recordViolation cls index wr addr s).sec.acc = { s.sec.acc with
      count := min (s.sec.acc.count + 1) 65535, viol := true, write := if s.sec.acc.viol then s.sec.acc.write else wr,
      cls := if s.sec.acc.viol then s.sec.acc.cls else cls, index := if s.sec.acc.viol then s.sec.acc.index else index,
      addr := if s.sec.acc.viol then s.sec.acc.addr else addr })

/-- R443, R436: 0x0D01 writes an entry that is not locked, refuses a locked one and a field that breaks R424; 0x0D04 arms a
later state in SAFE with a fresh nonce,
    a free value (log 6); 0x0D05 with the armed target and nonce within 1 s answers PENDING and begins BLOWING a
millisecond later, and answers INTEGRITY, TIMEOUT (also once the timer has expired) or WRONG_STATE otherwise, the arm gone.
A state above 3 is BAD_ARG.
It rests on choices of the model: log 23 and 25. -/
def Obligations.SecurityCommands : Prop :=
  (∀ (q : CmdCtx) (entry ctl base limit : Nat) (s : State), entry < 64 → ctl < 2 ^ 32 → base < 2 ^ 32 → limit < 2 ^ 32 →
    entryOk (rightsOf ctl base limit) = true → MayIssue q 0x0D01 16 s → (tget noRights s.sec.acc.entries entry).lock = false →
    Answers (.accSetEntry q entry ctl base limit) s fun t => Replied q 0x0D01 stOk true [] s t
      ∧ TakenFrom q.mbx 0x0D01 { s with sec := { s.sec with acc := { s.sec.acc with
        entries := t.sec.acc.entries, old := s.sec.acc.entries :: s.sec.acc.old } } } t
      ∧ ∀ e, tget noRights t.sec.acc.entries e
        = if e = entry then rightsOf ctl base limit else tget noRights s.sec.acc.entries e)
  ∧ (∀ (q : CmdCtx) (entry ctl base limit : Nat) (s : State), entry < 64 → ctl < 2 ^ 32 → base < 2 ^ 32 → limit < 2 ^ 32 →
    entryOk (rightsOf ctl base limit) = true → MayIssue q 0x0D01 16 s → (tget noRights s.sec.acc.entries entry).lock = true →
    Answers (.accSetEntry q entry ctl base limit) s fun t =>
      Replied q 0x0D01 stWrong true [] s t ∧ TakenFrom q.mbx 0x0D01 s t)
  ∧ (∀ (q : CmdCtx) (entry ctl base limit : Nat) (s : State), entry < 256 → ctl < 2 ^ 32 → base < 2 ^ 32 →
    limit < 2 ^ 32 → 63 < entry ∨ entryOk (rightsOf ctl base limit) = false → MayIssue q 0x0D01 16 s →
    Answers (.accSetEntry q entry ctl base limit) s fun t =>
      Replied q 0x0D01 stBadArg true [] s t ∧ TakenFrom q.mbx 0x0D01 s t)
  ∧ (∀ ctl base limit : Nat, entryOk (rightsOf ctl base limit) = true ↔
    bits base 0 29 ≤ bits limit 0 29 ∧ bits ctl 24 3 ≠ 1 ∧ bits ctl 24 3 ≠ 6
      ∧ (bits ctl 24 3 = 2 ∨ bits ctl 24 3 = 3 ∨ (bits ctl 16 7 = 0 ∧ bits ctl 8 7 = 0)))
  ∧ (∀ (q : CmdCtx) (target : Nat) (s : State), target ≤ 3 → MayIssue q 0x0D04 1 s → s.dev.mode = .safe →
    lifecycle s.fuse < target → s.sec.lcs.blowing = none →
    Answers (.lcsArm q target) s fun t => ∃ nonce : BitVec 16, Replied q 0x0D04 stOk true (leBytes 2 nonce.toNat) s t
      ∧ t = { s with
        mbx := t.mbx, free := s.free + 1,
        sor := { s.sor with commands := s.sor.commands + 1, pointer := (q.mbx + 1) % 18 },
        sec := { s.sec with lcs := { s.sec.lcs with arm := some ⟨target, nonce, s.now⟩, expired := false } } })
  ∧ (∀ (q : CmdCtx) (target : Nat) (s : State), target ≤ 3 → MayIssue q 0x0D04 1 s →
    s.dev.mode ≠ .safe ∨ target ≤ lifecycle s.fuse ∨ s.sec.lcs.blowing ≠ none →
    Answers (.lcsArm q target) s fun t => Replied q 0x0D04 stWrong true [] s t ∧ TakenFrom q.mbx 0x0D04 s t)
  ∧ (∀ (q : CmdCtx) (target : Nat) (s : State), 3 < target → target < 256 → MayIssue q 0x0D04 1 s →
    Answers (.lcsArm q target) s fun t => Replied q 0x0D04 stBadArg true [] s t ∧ TakenFrom q.mbx 0x0D04 s t)
  ∧ (∀ (q : CmdCtx) (a : Arm) (s : State), a.target ≤ 3 → MayIssue q 0x0D05 4 s → s.sec.lcs.arm = some a →
    s.now - a.since ≤ 1500000000 → s.sor.restart = none →
    Answers (.lcsCommit q a.target a.nonce.toNat) s fun t =>
      Replied q 0x0D05 stPending false [] s t ∧ Waits q 0x0D05 0 0 s t
      ∧ TakenFrom q.mbx 0x0D05 { s with
        sor := { s.sor with restart := some .lifecycle },
        sec := { s.sec with lcs := { arm := none, blowing := some (a.target, 0) } } } t)
  ∧ (∀ (q : CmdCtx) (target nonce : Nat) (a : Arm) (s : State), target ≤ 3 → nonce < 2 ^ 16 → MayIssue q 0x0D05 4 s →
    s.sec.lcs.arm = some a → s.now - a.since ≤ 1500000000 → a.target ≠ target ∨ a.nonce.toNat ≠ nonce →
    Answers (.lcsCommit q target nonce) s fun t => Replied q 0x0D05 stIntegrity true [] s t
      ∧ TakenFrom q.mbx 0x0D05 { s with sec := { s.sec with lcs := { s.sec.lcs with arm := none, expired := false } } } t)
  ∧ (∀ (q : CmdCtx) (target nonce : Nat) (a : Arm) (s : State), target ≤ 3 → nonce < 2 ^ 16 → MayIssue q 0x0D05 4 s →
    s.sec.lcs.arm = some a → 1500000000 < s.now - a.since →
    Answers (.lcsCommit q target nonce) s fun t => Replied q 0x0D05 stTimeout true [] s t
      ∧ TakenFrom q.mbx 0x0D05 { s with sec := { s.sec with lcs := { s.sec.lcs with arm := none, expired := false } } } t)
  ∧ (∀ (q : CmdCtx) (target nonce : Nat) (s : State), target ≤ 3 → nonce < 2 ^ 16 → MayIssue q 0x0D05 4 s →
    s.sec.lcs.arm = none →
    Answers (.lcsCommit q target nonce) s fun t =>
      Replied q 0x0D05 (if s.sec.lcs.expired then stTimeout else stWrong) true [] s t
      ∧ TakenFrom q.mbx 0x0D05 { s with sec := { s.sec with lcs := { s.sec.lcs with expired := false } } } t)
  ∧ (∀ (q : CmdCtx) (target nonce : Nat) (s : State), 3 < target → target < 256 → nonce < 2 ^ 16 → MayIssue q 0x0D05 4 s →
    Answers (.lcsCommit q target nonce) s fun t => Replied q 0x0D05 stBadArg true [] s t
      ∧ TakenFrom q.mbx 0x0D05 { s with sec := { s.sec with lcs := { s.sec.lcs with arm := none, expired := false } } } t)

/-! ### Configuration loading and firmware (chapters 16 and 18) -/

/-- R639, R570, R571, R578, R580, R581, R582, R583, R593: how a load begins, goes on and fails. The start of firmware reads the slot in
use, or with a trial due the other one after its directory write, and ends with code 1 without a valid directory. A header that
passes gives its fields; one that fails ends a base load with its code, and sends firmware to the other slot. A section of
the kind due is applied at its end, or ends the load with code 9 where its digest fails; the end of FRAMES begins start-up. A
frame is checked against the address its block has come to,
    and written; a bad block head is ORDER (log 144). Whatever ends a base load
records its code, the section and, where a rule fixes it, the address, drives CFG_ERR_N low and begins the wipe.
It rests on choices of the model: log 106, 107, 108, 110 and 144. -/
def Obligations.LoadEvents : Prop :=
  (∀ s : State, mayStart s = true → isFollower s = false → s.boot.dir.valid = true → s.boot.dir.fwTrial = 0 →
    fwSlotSize s.boot.dir s.boot.dir.fwActive ≠ 0 → Answers (.fwBootStart none) s fun t =>
      t = { s with dev := { s.dev with cfgErrLow := false }, boot := t.boot }
      ∧ t.boot.kind = .firmware ∧ t.boot.phase = .firmware ∧ t.boot.fwSlot = s.boot.dir.fwActive
      ∧ t.boot.dir = s.boot.dir ∧ t.boot.fwTrialRun = s.boot.fwTrialRun)
  ∧ (∀ s : State, mayStart s = true → isFollower s = false → s.boot.dir.valid = true → s.boot.dir.fwTrial = 1 →
    fwSlotSize s.boot.dir (!s.boot.dir.fwActive) ≠ 0 → Answers (.fwBootStart none) s fun t =>
      t = { s with dev := { s.dev with cfgErrLow := false }, boot := t.boot }
      ∧ t.boot.kind = .firmware ∧ t.boot.fwSlot = (!s.boot.dir.fwActive) ∧ t.boot.fwTrialRun = true
      ∧ t.boot.dir = { s.boot.dir with fwTrial := 2, seq := s.boot.dir.seq + 1, second := !s.boot.dir.second }
      ∧ t.boot.dirOther = s.boot.dir)
  ∧ (∀ s : State, mayStart s = true → isFollower s = false → s.boot.dir.valid = false → Answers (.fwBootStart none) s fun t =>
      t = { s with dev := { s.dev with cfgErrLow := true }, boot := t.boot }
      ∧ t.boot.errCode = 0x01 ∧ t.boot.phase = .failed ∧ t.boot.kind = .none)
  ∧ (∀ (f : Flash) (s : State), mayStart s = true → isFollower s = true ∨ ((directoryOf false f.dirA).valid = true
      ∧ (directoryOf false f.dirA).fwTrial = 0
      ∧ fwSlotSize (directoryOf false f.dirA) (directoryOf false f.dirA).fwActive ≠ 0) →
    secondLater (directoryOf false f.dirA) (directoryOf true f.dirB) = false →
    Answers (.fwBootStart (some f)) s fun t => t = { s with dev := { s.dev with cfgErrLow := false }, boot := t.boot }
      ∧ t.boot.kind = .firmware ∧ t.boot.phase = .firmware ∧ t.boot.dir = directoryOf false f.dirA
      ∧ t.boot.dirOther = directoryOf true f.dirB)
  ∧ (∀ (h g : Header) (s : State), g = loadedHeader s h → awaitsHeader s = true → s.boot.kind = .base →
    headerCode 1 s g = 0 → sourceEnds s (if g.version = 1 then 0x400 else 0x600) = false →
    exec (.cfgHeaderCheckDone h) s = .next { s with boot := { s.boot with
      gotByte := true, forwarding := g.chainMore, sections := g.sections, secIdx := 0, startOrder := g.startOrder % 256,
      frameCount := g.frameCount, totalLen := g.totalLen, chainMore := g.chainMore, imageVersion := g.imageVersion,
      stallTimeout := if g.version = 1 ∨ g.stallTimeout = 0 then 100 else g.stallTimeout, buildId := g.buildId,
      phase := if (lget ⟨0, true, 0, 0⟩ g.sections 0).kind = 0x10 then .frames else .sections } })
  ∧ (∀ (h g : Header) (s : State), g = loadedHeader s h → awaitsHeader s = true → s.boot.kind = .firmware →
    headerCode 0 s g = 0 → sourceEnds s (if g.version = 1 then 0x400 else 0x600) = false →
    exec (.cfgHeaderCheckDone h) s = .next { s with boot := { s.boot with
      gotByte := true, forwarding := false, sections := g.sections, secIdx := 0, startOrder := g.startOrder % 256,
      frameCount := g.frameCount, totalLen := g.totalLen, chainMore := g.chainMore, imageVersion := g.imageVersion,
      stallTimeout := if g.version = 1 ∨ g.stallTimeout = 0 then 100 else g.stallTimeout, phase := .firmware } })
  ∧ (∀ (h g : Header) (s : State), g = loadedHeader s h → awaitsHeader s = true → s.boot.kind = .base →
    ∀ code, code = (if sourceEnds s (if g.version = 1 then 0x400 else 0x600) then 0x0A else headerCode 1 s g) → code ≠ 0 →
    Answers (.cfgHeaderCheckDone h) s fun t => t.boot.errCode = code ∧ t.boot.errSection = s.boot.secIdx
      ∧ t.boot.phase = .failed ∧ t.boot.wiping = true ∧ t.dev.cfgErrLow = true ∧ t.dev.mode = .load)
  ∧ (∀ (h g : Header) (s : State), g = loadedHeader s h → awaitsHeader s = true → s.boot.kind = .firmware →
    sourceEnds s (if g.version = 1 then 0x400 else 0x600) = false → headerCode 0 s g ≠ 0 → isFollower s = false →
    s.boot.fwTrialRun = false → s.boot.triedOther = false → fwSlotSize s.boot.dir (!s.boot.dir.fwActive) ≠ 0 →
    Answers (.cfgHeaderCheckDone h) s fun t => t.boot.errCode = headerCode 0 s g ∧ t.boot.triedOther = true
      ∧ t.boot.fwSlot = (!s.boot.dir.fwActive) ∧ t.boot.kind = .firmware ∧ t.boot.phase = .firmware ∧ t.boot.sections = []
      ∧ t.dev.cfgErrLow = false)
  ∧ (∀ (l : List PinSetting) (s : State), mayEnd (.pins l) s = true → s.boot.kind = .base →
    sourceEnds s ((currentSection s).offset + (currentSection s).length) = false →
    exec (.cfgSectionEnd (.pins l) true) s = .next { s with boot := { s.boot with
      pins := l, secIdx := s.boot.secIdx + 1, phase := if nextKind s = 0x10 then .frames else .sections } })
  ∧ (∀ (l : List (Nat × RightsEntry)) (s : State), mayEnd (.rights l) s = true → s.boot.kind = .base →
    sourceEnds s ((currentSection s).offset + (currentSection s).length) = false →
    exec (.cfgSectionEnd (.rights l) true) s = .next { s with
      sec := { s.sec with acc := { s.sec.acc with
        entries := l.foldl (fun t e =>
          tset noRights t e.1 { e.2 with base := e.2.base % 2 ^ 29, limit := e.2.limit % 2 ^ 29 }) [],
        old := s.sec.acc.entries :: s.sec.acc.old } },
      boot := { s.boot with
        secIdx := s.boot.secIdx + 1, phase := if nextKind s = 0x10 then .frames else .sections } })
  ∧ (∀ (s : State), mayEnd .frames s = true → s.boot.kind = .base →
    sourceEnds s ((currentSection s).offset + (currentSection s).length) = false → nextFrameAddr s = none →
    s.boot.blockLeft = 0 → Answers (.cfgSectionEnd .frames true) s fun t =>
      t.boot.phase = .startup ∧ t.boot.step = 0 ∧ t.boot.kind = .base ∧ t.dev = s.dev)
  ∧ (∀ (c : Section) (digestOk : Bool) (s : State), mayEnd c s = true → s.boot.kind = .base →
    ∀ code, code = (if sourceEnds s ((currentSection s).offset + (currentSection s).length) then 0x0A
        else if digestOk then 0 else 0x09) → code ≠ 0 →
    Answers (.cfgSectionEnd c digestOk) s fun t =>
      t.boot.errCode = code ∧ t.boot.errSection = s.boot.secIdx ∧ t.boot.phase = .failed ∧ t.boot.wiping = true
      ∧ t.dev.cfgErrLow = true)
  ∧ (∀ (svn setFmt least : Nat) (s : State), mayEnd (.fwInfo svn setFmt least) s = true → s.boot.kind = .firmware →
    sourceEnds s ((currentSection s).offset + (currentSection s).length) = false →
    svn < 256 → setFmt < 256 → arbCount s ≤ svn → svn ≤ 128 → heldMode s = true →
    Answers (.cfgSectionEnd (.fwInfo svn setFmt least) true) s fun t =>
      t.sor.running = true ∧ t.dev.mode = .safe ∧ t.dev.cfgErrLow = false ∧ t.boot.held = true)
  ∧ (∀ (head h : List Byte) (v w : BitVec 640) (m : List MemSetting) (addr left pos : Nat) (s : State),
    readsSections s = true → s.boot.phase = .frames → moreFrames s = true → h = nextHead s head →
    (s.boot.blockLeft ≠ 0 ∧ addr = s.boot.blockNext ∧ left = s.boot.blockLeft ∧ pos = s.boot.framePos)
      ∨ (s.boot.blockLeft = 0 ∧ headOk h = true ∧ addr = leAt h 0 4 ∧ left = leAt h 4 4 ∧ pos = s.boot.framePos + 16) →
    addr < 2 ^ 22 → w = frameBits { s with boot := { s.boot with framePos := pos } } v →
    (baseFrameCode s addr w = 0 → Answers (.cfgFrame head v m) s fun t =>
      t = { s with
        fab := { s.fab with frames := t.fab.frames, mems := t.fab.mems, words := t.fab.words },
        boot := { s.boot with
          nextFrame := s.boot.nextFrame + 1, framesWritten := s.boot.framesWritten + 1, framePos := pos + 80,
          blockLeft := left - 1, blockNext := addr + 1 } }
      ∧ (addr % 2 ^ 15 < 13568 → readFrame t (addr / 2 ^ 15) (addr % 2 ^ 15) = w ∧ t.fab.words = s.fab.words
        ∧ ∀ k j, j < 13568 → (k, j) ≠ (addr / 2 ^ 15, addr % 2 ^ 15) → readFrame t k j = readFrame s k j)
      ∧ (13568 ≤ addr % 2 ^ 15 → addr % 2 ^ 15 < 19712 → t.fab.frames = s.fab.frames ∧ t.fab.mems = s.fab.mems
        ∧ ∀ i, i < 8 → ∀ key, key = wordKey (memKey (addr / 2 ^ 15) ((addr % 2 ^ 15 - 13568) / 128))
            (8 * ((addr % 2 ^ 15 - 13568) % 128) + i) →
          t.bword key = loadedWord s none key ((w >>> (72 * i)).truncate 72)))
    ∧ (baseFrameCode s addr w ≠ 0 → Answers (.cfgFrame head v m) s fun t =>
      t.boot.errCode = baseFrameCode s addr w ∧ t.boot.errAddr = addr ∧ t.boot.phase = .failed ∧ t.boot.wiping = true
        ∧ t.dev.cfgErrLow = true))
  ∧ (∀ (head : List Byte) (v : BitVec 640) (m : List MemSetting) (s : State), readsSections s = true →
    s.boot.phase = .frames → moreFrames s = true → s.boot.blockLeft = 0 → headOk (nextHead s head) = false →
    Answers (.cfgFrame head v m) s fun t => t.boot.errCode = 0x0C ∧ t.boot.errAddr = leAt (nextHead s head) 0 4 % 2 ^ 22
      ∧ t.boot.phase = .failed ∧ t.boot.wiping = true ∧ t.dev.cfgErrLow = true)
  ∧ (∀ s : State, awaitsHeader s = true ∨ readsSections s = true → s.boot.kind = .base → Answers .cfgStallTimeout s fun t =>
      t.boot.errCode = 0x0A ∧ t.boot.phase = .failed ∧ t.boot.wiping = true ∧ t.dev.cfgErrLow = true)
  ∧ (∀ s : State, awaitsHeader s = true → s.boot.gotByte = false → s.boot.kind = .base → Answers .cfgNoImageTimeout s fun t =>
      t.boot.errCode = 0x01 ∧ t.boot.errAddr = 0 ∧ t.boot.phase = .failed ∧ t.boot.wiping = true ∧ t.dev.cfgErrLow = true)
  ∧ (∀ s : State, exec .chainClkPauseEnd s = .next { s with boot := { s.boot with clkPaused := false } })
  ∧ (∀ s : State, baseRuns s = true → Answers .cfgAbort s fun t =>
      t.boot.errCode = 0x12 ∧ t.boot.phase = .failed ∧ t.boot.wiping = true ∧ t.dev.cfgErrLow = true)
  ∧ (∀ s : State, baseRuns s = false → exec .cfgAbort s = .next s)

/-- R586, R587, R588, R589, R572, R642, R646, R596: the start-up steps, which complete at once but CLK, which waits for its tiles and
PLLs: OUT gives the pins their settings, RST releases global set-reset and opens the ports of running tiles,
    WR enables the user's writes
outside the slots; the fourth brings RUN and CFG_DONE; a PLL without lock ends the load; the wipe that ends a failed load brings
SAFE and event 6, or after a trial the other slot and event 7; the trial window warns after nine tenths, and its end restarts
with the trial marked failed; COUNT rises by one step; the owner key is fused once; a container stands in flash.
It rests on choices of the model: log 109, 111, 114 and 123. -/
def Obligations.StartupAndUpdateEvents : Prop :=
  (∀ s : State, startingUpNow s = true → s.boot.step < 3 → bits s.boot.startOrder (2 * s.boot.step) 2 = 3 →
    Answers .startupStep s fun t =>
      t = { s with
        fab := { s.fab with tiles := t.fab.tiles },
        boot := { s.boot with step := s.boot.step + 1, stepsDone := s.boot.stepsDone ||| 8 } }
      ∧ (∀ n, n < 96 → slotOf s n = none → t.tile n = { s.tile n with writesOn := true })
      ∧ ∀ n, 96 ≤ n ∨ (slotOf s n).isSome → t.tile n = s.tile n)
  ∧ (∀ s : State, startingUpNow s = true → s.boot.step < 3 → bits s.boot.startOrder (2 * s.boot.step) 2 = 2 →
    Answers .startupStep s fun t =>
      t = { s with
        fab := t.fab, boot := { s.boot with step := s.boot.step + 1, stepsDone := s.boot.stepsDone ||| 4 } }
      ∧ (∀ n, n < 96 → (s.tile n).state ≠ .on → t.tile n = { s.tile n with setReset := false, releasing := true })
      ∧ (∀ n, n < 96 → (s.tile n).state = .on → t.tile n = { s.tile n with
          setReset := false, releasing := true, credits := 16, owed := 0, inboundFree := (s.tile n).inboundCfg })
      ∧ ∀ n, 96 ≤ n → t.tile n = s.tile n)
  ∧ (∀ s : State, startingUpNow s = true → s.boot.step < 3 → bits s.boot.startOrder (2 * s.boot.step) 2 = 1 →
    Answers .startupStep s fun t =>
      t = { s with
        eng := { s.eng with pins := t.eng.pins },
        boot := { s.boot with step := s.boot.step + 1, stepsDone := s.boot.stepsDone ||| 2 } }
      ∧ (∀ p, (∀ x ∈ s.boot.pins, x.pin ≠ p) → t.pin p = s.pin p)
      ∧ ∀ x : PinSetting, s.boot.pins = [x] → x.pin < 960 → t.pin x.pin = if x.pull = 4
        then { s.pin x.pin with standard := x.standard, pull := 4, out := 2 }
        else { s.pin x.pin with
          standard := x.standard, pull := x.pull, sched := x.sched, safeLevel := x.safeLevel % 3,
          out := if x.sched then x.safeLevel % 3 else 2 })
  ∧ (∀ s : State, startingUpNow s = true → bits s.boot.startOrder (2 * s.boot.step) 2 = 0 →
    (s.boot.usedPlls.any fun n => (s.pll n).rangeErr) = false → clkStepDone s = false → exec .startupStep s = .next s)
  ∧ (∀ s : State, startingUpNow s = true → bits s.boot.startOrder (2 * s.boot.step) 2 = 0 → s.boot.step < 3 →
    (s.boot.usedPlls.any fun n => (s.pll n).rangeErr) = false → clkStepDone s = true →
    exec .startupStep s = .next { s with boot := { s.boot with
      step := s.boot.step + 1, stepsDone := s.boot.stepsDone ||| 1 } })
  ∧ (∀ s : State, startingUpNow s = true → s.boot.step = 3 → bits s.boot.startOrder 6 2 = 1 → Answers .startupStep s fun t =>
      t.dev.mode = .run ∧ t.dev.cfgDone = true ∧ t.boot.phase = .done ∧ t.boot.kind = .none
      ∧ t.evt.pend.getLsbD 5 = true)
  ∧ (∀ (n : Nat) (s : State), startingUpNow s = true → bits s.boot.startOrder (2 * s.boot.step) 2 = 0 →
    s.boot.usedPlls.contains n = true → (s.pll n).granted = true → (s.pll n).lock = false →
    Answers (.cfgPllLockTimeout n) s fun t => t.boot.errCode = 0x11 ∧ t.boot.phase = .failed ∧ t.boot.wiping = true
      ∧ t.dev.cfgErrLow = true)
  ∧ (∀ s : State, s.boot.wiping = true → s.dev.mode = .load → s.boot.trial = false → Answers .cfgFailWipeDone s fun t =>
      t.dev.mode = .safe ∧ t.evt.pend.getLsbD 6 = true ∧ t.boot.wiping = false ∧ t.boot.kind = .none
      ∧ t = { s with
        dev := { s.dev with mode := .safe }, evt := t.evt, eng := t.eng, mbx := t.mbx, sec := s.sec,
        boot := { s.boot with wiping := false, kind := .none, held := false } })
  ∧ (∀ s : State, s.boot.wiping = true → s.dev.mode = .load → s.boot.trial = true → isFollower s = false →
    slotSize s.boot.dir s.boot.dir.baseActive ≠ 0 → Answers .cfgFailWipeDone s fun t =>
      t.dev.mode = .load ∧ t.evt.pend.getLsbD 6 = true ∧ t.evt.pend.getLsbD 7 = true ∧ t.boot.wiping = false
      ∧ t.boot.trial = false ∧ t.boot.fellBack = true ∧ t.boot.slot = s.boot.dir.baseActive ∧ t.boot.kind = .base
      ∧ t.boot.phase = .header)
  ∧ (∀ s : State, windowRuns s = true → s.boot.winWarned = false →
    s.boot.winLen * 1350000000 ≤ s.now - s.boot.winStart → Answers .trialWindowWarning s fun t =>
      t = { s with boot := { s.boot with winWarned := true }, evt := t.evt, eng := t.eng }
      ∧ t.evt.pend = s.evt.pend ||| BitVec.twoPow 384 328)
  ∧ (∀ s : State, windowRuns s = true → s.boot.winLen * 1500000000 ≤ s.now - s.boot.winStart →
    Answers .trialWindowExpiry s fun t =>
      t.dev.mode = .load ∧ t.boot.dir = { s.boot.dir with
        fwTrial := if s.boot.fwTrialRun then 3 else s.boot.dir.fwTrial,
        baseTrial := if s.boot.trial then 3 else s.boot.dir.baseTrial,
        seq := s.boot.dir.seq + 1, second := !s.boot.dir.second }
      ∧ t.boot.dirOther = s.boot.dir ∧ t.fuse = s.fuse
      ∧ (t.fab, t.spd, t.qm, t.spn) = (({} : Fab), ({} : Spd), ({ emptyZero := s.dev.compat } : Qm), ({} : Spn)))
  ∧ (∀ (k : Nat) (s : State), s.boot.arbBusy = true → nextStep s = some k → Answers .arbStepBlown s fun t =>
      arbCount t = arbCount s + 1 ∧ stepBlown t.fuse.antiRollback k = true
      ∧ (∀ j, j ≠ k → stepBlown t.fuse.antiRollback j = stepBlown s.fuse.antiRollback j)
      ∧ (s.boot.arbTarget ≤ arbCount s + 1 → t.boot.arbBusy = false ∧ t.evt.pend.getLsbD 327 = true)
      ∧ (arbCount s + 1 < s.boot.arbTarget → t = { s with fuse := t.fuse }))
  ∧ (∀ s : State, s.boot.keyFusing = true → s.fuse.keyFused = false → Answers .ownerKeyFused s fun t =>
      t.fuse = { s.fuse with ownerKey := s.boot.keyHash, keyFused := true }
      ∧ t = { s with mbx := t.mbx, fuse := t.fuse, boot := { s.boot with keyFusing := false } })
  ∧ (∀ (good : Bool) (s : State), s.boot.flashBase = some true → Answers (.flashWriteDone good) s fun t =>
      t = { s with
        mbx := t.mbx, boot := { s.boot with flashBase := none, baseStaged := good || s.boot.baseStaged } })
  ∧ (∀ s : State, s.boot.flashBase = some false → Answers (.flashWriteDone true) s fun t =>
      t = { s with mbx := t.mbx, boot := { s.boot with
        flashBase := none, fwStaged := true,
        fwAVersion := if s.boot.dir.fwActive then s.boot.stageVersion else s.boot.fwAVersion,
        fwASvn := if s.boot.dir.fwActive then s.boot.stageSvn else s.boot.fwASvn,
        fwBVersion := if s.boot.dir.fwActive then s.boot.fwBVersion else s.boot.stageVersion,
        fwBSvn := if s.boot.dir.fwActive then s.boot.fwBSvn else s.boot.stageSvn } })
  ∧ (∀ s : State, s.boot.flashBase = some false → Answers (.flashWriteDone false) s fun t =>
      t = { s with mbx := t.mbx, boot := { s.boot with flashBase := none } })

/-- R596, R643, R651, R690: the configuration and firmware commands. Those that restart answer PENDING and arm the restart; a
staged container that passes is written to flash and one that fails is refused with the code of the check; the running trials are
confirmed in one directory write; and the statuses of each command's own checks.
It rests on choices of the model: log 110, 113 and 123. -/
def Obligations.UpdateCommands : Prop :=
  (∀ (q : CmdCtx) (addr len : Nat) (s : State), addr < 2 ^ 64 → len < 2 ^ 32 → MayIssue q 0x0402 12 s → 0 < len →
    heldReady s addr len = true → s.dev.mode = .safe → lifecycle s.fuse ≠ 3 →
    rightsJudge (mbxClass q.mbx) 0 true false addr (len - 1) s = (true, s) → (dramTarget s addr).isSome = true →
    (dramTarget s (addr + len - 1)).isSome = true → Answers (.cfgLoadHost q addr len) s fun t =>
      Replied q 0x0402 stPending false [] s t ∧ Waits q 0x0402 0 0 s t ∧ t.dev.mode = .load ∧ t.boot.kind = .base
      ∧ t.boot.fromDram = true ∧ t.boot.phase = .header ∧ t.boot.loadAddr = addr ∧ t.boot.loadLen = len
      ∧ t.boot.loadWindows = s.ddr.wins ∧ t.dev.cfgErrLow = false ∧ t.evt.pend.getLsbD 0 = true)
  ∧ (∀ (q : CmdCtx) (addr len : Nat) (s : State), addr < 2 ^ 64 → len < 2 ^ 32 → MayIssue q 0x0402 12 s →
    (heldReady s addr len = false → Answers (.cfgLoadHost q addr len) s fun t =>
      Replied q 0x0402 stNotReady true [] s t ∧ TakenFrom q.mbx 0x0402 s t)
    ∧ (heldReady s addr len = true → s.dev.mode ≠ .safe ∨ lifecycle s.fuse = 3 → Answers (.cfgLoadHost q addr len) s fun t =>
      Replied q 0x0402 stWrong true [] s t ∧ TakenFrom q.mbx 0x0402 s t))
  ∧ (∀ (q : CmdCtx) (hold : Nat) (s : State), hold ≤ 1 → MayIssue q 0x0403 1 s → s.dev.mode ≠ .hold →
    s.sor.restart = none → Answers (.cfgReload q hold) s fun t =>
      Replied q 0x0403 stPending false [] s t ∧ Waits q 0x0403 0 0 s t
      ∧ TakenFrom q.mbx 0x0403 { s with
        sor := { s.sor with restart := some .restart },
        boot := { s.boot with holdSafe := decide (hold = 1) } } t)
  ∧ (∀ (q : CmdCtx) (hold : Nat) (s : State), hold < 256 → MayIssue q 0x0403 1 s → 1 < hold ∨ s.dev.mode = .hold →
    Answers (.cfgReload q hold) s fun t =>
      Replied q 0x0403 (if 1 < hold then stBadArg else stWrong) true [] s t ∧ TakenFrom q.mbx 0x0403 s t)
  ∧ (∀ (q : CmdCtx) (addr len : Nat) (st : Staged) (s : State), addr < 2 ^ 64 → len < 2 ^ 32 → MayIssue q 0x0404 12 s →
    0 < len → len ≤ slotSize s.boot.dir (!s.boot.dir.baseActive) → heldReady s addr len = true → s.boot.dir.baseTrial = 0 →
    s.boot.flashBase = none → rightsJudge (mbxClass q.mbx) 0 true false addr (len - 1) s = (true, s) →
    (dramTarget s addr).isSome = true → (dramTarget s (addr + len - 1)).isSome = true →
    (baseStageCode addr len st s = 0 → Answers (.cfgBaseStage q addr len st) s fun t =>
      Replied q 0x0404 stPending false [] s t ∧ Waits q 0x0404 0 0 s t
      ∧ TakenFrom q.mbx 0x0404 { s with boot := { s.boot with flashBase := some true } } t)
    ∧ (baseStageCode addr len st s ≠ 0 → Answers (.cfgBaseStage q addr len st) s fun t =>
      RepliedBoth q 0x0404 (loadStatus (baseStageCode addr len st s)) (leBytes 1 (baseStageCode addr len st s)) s t
      ∧ TakenFrom q.mbx 0x0404 s t))
  ∧ (∀ (q : CmdCtx) (addr len : Nat) (st : Staged) (s : State), addr < 2 ^ 64 → len < 2 ^ 32 → MayIssue q 0x0404 12 s →
    (slotSize s.boot.dir (!s.boot.dir.baseActive) < len → Answers (.cfgBaseStage q addr len st) s fun t =>
      Replied q 0x0404 stBadArg true [] s t ∧ TakenFrom q.mbx 0x0404 s t)
    ∧ (len ≤ slotSize s.boot.dir (!s.boot.dir.baseActive) → heldReady s addr len = false →
      Answers (.cfgBaseStage q addr len st) s fun t =>
        Replied q 0x0404 stNotReady true [] s t ∧ TakenFrom q.mbx 0x0404 s t)
    ∧ (len ≤ slotSize s.boot.dir (!s.boot.dir.baseActive) → heldReady s addr len = true →
      s.boot.dir.baseTrial ≠ 0 ∨ s.boot.flashBase ≠ none → Answers (.cfgBaseStage q addr len st) s fun t =>
        Replied q 0x0404 stBusy true [] s t ∧ TakenFrom q.mbx 0x0404 s t))
  ∧ (∀ (q : CmdCtx) (s : State), MayIssue q 0x0405 0 s → s.dev.mode ≠ .hold → s.boot.baseStaged = true →
    s.sor.restart = none → Answers (.cfgBaseTrial q) s fun t =>
      Replied q 0x0405 stPending false [] s t ∧ Waits q 0x0405 0 0 s t
      ∧ TakenFrom q.mbx 0x0405 { s with
        sor := { s.sor with restart := some .restart },
        boot := { s.boot with
          dir := { s.boot.dir with baseTrial := 1, seq := s.boot.dir.seq + 1, second := !s.boot.dir.second },
          dirOther := s.boot.dir } } t)
  ∧ (∀ (q : CmdCtx) (s : State), MayIssue q 0x0405 0 s → s.dev.mode = .hold ∨ s.boot.baseStaged = false →
    Answers (.cfgBaseTrial q) s fun t => Replied q 0x0405 stWrong true [] s t ∧ TakenFrom q.mbx 0x0405 s t)
  ∧ (∀ (q : CmdCtx) (addr : Nat) (data : List Byte) (s : State), addr < 2 ^ 64 → MayIssue q 0x0406 8 s →
    lifecycle s.fuse = 0 → s.fuse.keyFused = false → s.boot.keyFusing = false →
    ReadsPlain (mbxClass q.mbx) 2 addr 48 data s → Answers (.cfgOwnerKey q addr) s fun t =>
      Replied q 0x0406 stPending false [] s t ∧ Waits q 0x0406 0 0 s t
      ∧ TakenFrom q.mbx 0x0406 { s with boot := { s.boot with
        keyHash := BitVec.ofNat 384 (ofLe data), keyFusing := true } } t)
  ∧ (∀ (q : CmdCtx) (addr : Nat) (s : State), addr < 2 ^ 64 → MayIssue q 0x0406 8 s →
    (lifecycle s.fuse ≠ 0 ∨ s.fuse.keyFused = true → Answers (.cfgOwnerKey q addr) s fun t =>
      Replied q 0x0406 stWrong true [] s t ∧ TakenFrom q.mbx 0x0406 s t)
    ∧ (lifecycle s.fuse = 0 → s.fuse.keyFused = false → s.boot.keyFusing = true → Answers (.cfgOwnerKey q addr) s fun t =>
      Replied q 0x0406 stBusy true [] s t ∧ TakenFrom q.mbx 0x0406 s t))
  ∧ (∀ (q : CmdCtx) (addr len : Nat) (st : Staged) (s : State), addr < 2 ^ 64 → len < 2 ^ 32 → MayIssue q 0x0C01 12 s →
    0 < len → len ≤ fwSlotSize s.boot.dir (!s.boot.dir.fwActive) → heldReady s addr len = true →
    s.boot.dir.fwTrial = 0 → s.boot.flashBase = none →
    rightsJudge (mbxClass q.mbx) 0 true false addr (len - 1) s = (true, s) → (dramTarget s addr).isSome = true →
    (dramTarget s (addr + len - 1)).isSome = true →
    (fwStageCode addr len st s = 0 → Answers (.fwStage q addr len st) s fun t =>
      Replied q 0x0C01 stPending false [] s t ∧ Waits q 0x0C01 0 0 s t
      ∧ TakenFrom q.mbx 0x0C01 { s with boot := { (noteSlot (!s.boot.dir.fwActive) 0 0 s).boot with
        flashBase := some false, stageVersion := (stagedHeader s addr st).imageVersion,
        stageSvn := leAt (stagedInfo s addr (stagedHeader s addr st)) 0 1 } } t)
    ∧ (fwStageCode addr len st s ≠ 0 → Answers (.fwStage q addr len st) s fun t =>
      RepliedBoth q 0x0C01 stIntegrity (leBytes 1 (fwStageCode addr len st s)) s t ∧ TakenFrom q.mbx 0x0C01 s t))
  ∧ (∀ (q : CmdCtx) (addr len : Nat) (st : Staged) (s : State), addr < 2 ^ 64 → len < 2 ^ 32 → MayIssue q 0x0C01 12 s →
    (fwSlotSize s.boot.dir (!s.boot.dir.fwActive) < len → Answers (.fwStage q addr len st) s fun t =>
      Replied q 0x0C01 stBadArg true [] s t ∧ TakenFrom q.mbx 0x0C01 s t)
    ∧ (len ≤ fwSlotSize s.boot.dir (!s.boot.dir.fwActive) → heldReady s addr len = false →
      Answers (.fwStage q addr len st) s fun t => Replied q 0x0C01 stNotReady true [] s t ∧ TakenFrom q.mbx 0x0C01 s t)
    ∧ (len ≤ fwSlotSize s.boot.dir (!s.boot.dir.fwActive) → heldReady s addr len = true →
      s.boot.dir.fwTrial ≠ 0 ∨ s.boot.flashBase ≠ none → Answers (.fwStage q addr len st) s fun t =>
        Replied q 0x0C01 stBusy true [] s t ∧ TakenFrom q.mbx 0x0C01 s t))
  ∧ (∀ (q : CmdCtx) (window both : Nat) (s : State), window = 0 ∨ (10 ≤ window ∧ window ≤ 3600) → both ≤ 1 →
    MayIssue q 0x0C02 3 s → s.dev.mode ≠ .hold → s.boot.fwStaged = true → (both = 1 → s.boot.baseStaged = true) →
    s.boot.dir.fwTrial = 0 → s.boot.dir.baseTrial = 0 → s.sor.restart = none → Answers (.fwTrial q window both) s fun t =>
      Replied q 0x0C02 stPending false [] s t ∧ Waits q 0x0C02 0 0 s t
      ∧ TakenFrom q.mbx 0x0C02 { s with
        sor := { s.sor with restart := some .restart },
        boot := { s.boot with
          dir := { s.boot.dir with
            trialWindow := if window = 0 then s.boot.dir.trialWindow else window, fwTrial := 1, baseTrial := both,
            seq := s.boot.dir.seq + 1, second := !s.boot.dir.second },
          dirOther := s.boot.dir } } t)
  ∧ (∀ (q : CmdCtx) (window both : Nat) (s : State), window < 2 ^ 16 → both < 256 → MayIssue q 0x0C02 3 s →
    ((window ≠ 0 ∧ (window < 10 ∨ 3600 < window)) ∨ 1 < both → Answers (.fwTrial q window both) s fun t =>
      Replied q 0x0C02 stBadArg true [] s t ∧ TakenFrom q.mbx 0x0C02 s t)
    ∧ (window = 0 ∨ (10 ≤ window ∧ window ≤ 3600) → both ≤ 1 →
      s.dev.mode = .hold ∨ s.boot.fwStaged = false ∨ (both = 1 ∧ s.boot.baseStaged = false) →
      Answers (.fwTrial q window both) s fun t => Replied q 0x0C02 stWrong true [] s t ∧ TakenFrom q.mbx 0x0C02 s t)
    ∧ (window = 0 ∨ (10 ≤ window ∧ window ≤ 3600) → both ≤ 1 → s.dev.mode ≠ .hold → s.boot.fwStaged = true →
      s.boot.baseStaged = true → s.boot.dir.fwTrial ≠ 0 ∨ s.boot.dir.baseTrial ≠ 0 →
      Answers (.fwTrial q window both) s fun t => Replied q 0x0C02 stBusy true [] s t ∧ TakenFrom q.mbx 0x0C02 s t))
  ∧ (∀ (q : CmdCtx) (s : State), MayIssue q 0x0C03 0 s → s.boot.fwTrialRun = false → s.boot.trial = false →
    Answers (.healthConfirm q) s fun t => Replied q 0x0C03 stOk true (leBytes 1 0) s t ∧ TakenFrom q.mbx 0x0C03 s t)
  ∧ (∀ (q : CmdCtx) (s : State), MayIssue q 0x0C03 0 s → s.boot.fwTrialRun = true ∨ s.boot.trial = true →
    (s.boot.trial = true → s.dev.cfgDone = true) → Answers (.healthConfirm q) s fun t =>
      Replied q 0x0C03 stOk true (leBytes 1 (b2n s.boot.fwTrialRun + 2 * b2n s.boot.trial)) s t
      ∧ t.boot.dir = { s.boot.dir with
        fwActive := if s.boot.fwTrialRun then s.boot.fwSlot else s.boot.dir.fwActive,
        setActive := s.boot.dir.setActive != s.boot.fwTrialRun,
        fwTrial := if s.boot.fwTrialRun then 0 else s.boot.dir.fwTrial,
        baseActive := if s.boot.trial then s.boot.slot else s.boot.dir.baseActive,
        baseTrial := if s.boot.trial then 0 else s.boot.dir.baseTrial,
        seq := s.boot.dir.seq + 1, second := !s.boot.dir.second }
      ∧ t.boot.dirOther = s.boot.dir ∧ t.boot.fwTrialRun = false ∧ t.boot.trial = false ∧ t.boot.winOn = false
      ∧ t.evt.pend.getLsbD 325 = true)
  ∧ (∀ (q : CmdCtx) (s : State), MayIssue q 0x0C03 0 s → s.boot.trial = true → s.dev.cfgDone = false →
    Answers (.healthConfirm q) s fun t => Replied q 0x0C03 stWrong true [] s t ∧ TakenFrom q.mbx 0x0C03 s t)

/-! ### Fabric clocks and ports (chapter 2), and the governor's books -/

/-- R70, R71, R72, R76: fabric PLLs. APPLY refuses settings out of range with RANGE_ERR and keeps the old ones; settings
that leave D and M take effect at once, and others unlock with LOST and event 8; the ranges are those of the reference as
it stands, and of 187.5 MHz where it is parked (log 141). PLL_EN requests one credit of the clock-ramp class; LOCK sets in
range alone and clears with event 8. R78, R80, R82: the clock of a tile outside every slot, row by row of R78's table; a
tile above 95 or in a slot only sets its error bit, one whose clocks HOLD has stopped keeps its STATE (R84).
It rests on choices of the model: log 41. -/
def Obligations.FabricClocks : Prop :=
  (∀ (x : Pll) (s : State), s.clk.vcoLow = false → (pllRefuses s x = false ↔
    16 ≤ x.m ∧ x.m ≤ 256 ∧ 16 * (x.d + 1) ≤ x.m ∧ x.m ≤ 32 * (x.d + 1)
    ∧ ∀ o ∈ [x.out0, x.out1, x.out2, x.out3], 2 ≤ o.div ∧ o.div ≤ 256 ∧ x.m ≤ 8 * o.div * (x.d + 1) ∧ o.phase < 8 * o.div))
  ∧ (∀ (x : Pll) (s : State), s.clk.vcoLow = true → (pllRefuses s x = false ↔
    16 ≤ x.m ∧ x.m ≤ 256 ∧ 32 * (x.d + 1) ≤ x.m ∧ x.m ≤ 64 * (x.d + 1)
    ∧ ∀ o ∈ [x.out0, x.out1, x.out2, x.out3], 2 ≤ o.div ∧ o.div ≤ 256 ∧ x.m ≤ 16 * o.div * (x.d + 1) ∧ o.phase < 8 * o.div
      ∧ (32 * (x.d + 1) < x.m ∨ x.m ≤ 8 * o.div * (x.d + 1))))
  ∧ (∀ (n : Nat) (s : State), n < 24 → pllRefuses s (s.pll n) = true →
    exec (.fpllApply n) s = .next (s.modPll n fun x => { x with rangeErr := true }))
  ∧ (∀ (n : Nat) (s : State), n < 24 → pllRefuses s (s.pll n) = false → (s.pll n).m = (s.pll n).appM →
    (s.pll n).d = (s.pll n).appD → exec (.fpllApply n) s = .next (s.modPll n fun x => { x with
      app0 := x.out0, app1 := x.out1, app2 := x.out2, app3 := x.out3, outOfRange := false }))
  ∧ (∀ (n : Nat) (s : State), n < 24 → pllRefuses s (s.pll n) = false →
    (s.pll n).m ≠ (s.pll n).appM ∨ (s.pll n).d ≠ (s.pll n).appD → (s.pll n).lock = false →
    exec (.fpllApply n) s = .next (s.modPll n fun x => { x with
      appM := x.m, appD := x.d, app0 := x.out0, app1 := x.out1, app2 := x.out2, app3 := x.out3, outOfRange := false }))
  ∧ (∀ (n : Nat) (s : State), n < 24 → pllRefuses s (s.pll n) = false →
    (s.pll n).m ≠ (s.pll n).appM ∨ (s.pll n).d ≠ (s.pll n).appD → (s.pll n).lock = true → Answers (.fpllApply n) s fun t =>
      t.pll n = { s.pll n with
        appM := (s.pll n).m, appD := (s.pll n).d, app0 := (s.pll n).out0, app1 := (s.pll n).out1, app2 := (s.pll n).out2,
        app3 := (s.pll n).out3, lock := false, lost := true, outOfRange := false }
      ∧ t.evt.pend = s.evt.pend ||| BitVec.twoPow 384 8 ∧ (∀ m, m ≠ n → t.pll m = s.pll m)
      ∧ t = { s with fab := { s.fab with plls := t.fab.plls }, evt := t.evt, eng := t.eng })
  ∧ (∀ (n : Nat) (s : State), n < 24 → (s.pll n).en = false → exec (.fpllEnable n) s = .next
      ((s.modPll n fun x => { x with en := true, waitGrant := true }).modSupply 0 fun u =>
        { u with newReqs := u.newReqs ++ [⟨1, n, 2, 1, 0⟩] }))
  ∧ (∀ (n : Nat) (s : State), n < 24 → (s.pll n).en = true → exec (.fpllEnable n) s = .next s)
  ∧ (∀ (n : Nat) (s : State), n < 24 → (s.pll n).granted = true → (s.pll n).lock = false →
    vcoInRange s (s.pll n).appM (s.pll n).appD = true →
    exec (.fpllLock n) s = .next (s.modPll n fun x => { x with lock := true, outOfRange := false }))
  ∧ (∀ (n : Nat) (s : State), n < 24 → (s.pll n).granted = true → vcoInRange s (s.pll n).appM (s.pll n).appD = false →
    exec (.fpllLock n) s = .next s)
  ∧ (∀ (n : Nat) (bad : Bool) (s : State), n < 24 → (s.pll n).granted = true → (s.pll n).lock = true →
    bad = !vcoInRange s (s.pll n).appM (s.pll n).appD → Answers (.fpllLockLoss n) s fun t =>
      t.pll n = { s.pll n with lock := false, lost := true, outOfRange := bad, rangeErr := (s.pll n).rangeErr || bad }
      ∧ t.evt.pend = s.evt.pend ||| BitVec.twoPow 384 8 ∧ (∀ m, m ≠ n → t.pll m = s.pll m)
      ∧ t = { s with fab := { s.fab with plls := t.fab.plls }, evt := t.evt, eng := t.eng })
  ∧ (∀ (n : Nat) (s : State), n < 96 → (s.tile n).spanOwned = false → (s.tile n).holdStopped = false →
    (s.tile n).state = .off →
    exec (.tileEnable n) s = .next ((State.modTile { s with fab := { s.fab with lastTile := n } } n fun x =>
      { x with state := .waitGrant }).modSupply 0 fun u =>
        { u with newReqs := u.newReqs ++ [⟨0, n, 2, 16, 0⟩] }))
  ∧ (∀ (n : Nat) (s : State), n < 96 → (s.tile n).spanOwned = false → (s.tile n).holdStopped = false →
    (s.tile n).state = .draining →
    exec (.tileEnable n) s = .next (State.modTile { s with fab := { s.fab with lastTile := n } } n fun x =>
      { x with pendingEnable := true }))
  ∧ (∀ (n : Nat) (s : State), n < 96 → (s.tile n).spanOwned = false → (s.tile n).holdStopped = false →
    (s.tile n).state = .on ∨ (s.tile n).state = .waitGrant →
    exec (.tileEnable n) s = .next { s with fab := { s.fab with lastTile := n } })
  ∧ (∀ (n : Nat) (s : State), n < 96 → (s.tile n).spanOwned = false → (s.tile n).holdStopped = false →
    (s.tile n).state = .on →
    exec (.tileDisable n) s = .next (State.modTile { s with fab := { s.fab with lastTile := n } } n fun x =>
      { x with state := .draining }))
  ∧ (∀ (n : Nat) (s : State), n < 96 → (s.tile n).spanOwned = false → (s.tile n).holdStopped = false →
    (s.tile n).state = .waitGrant →
    exec (.tileDisable n) s = .next (withdraw 0 n (State.modTile { s with fab := { s.fab with lastTile := n } } n fun x =>
      { x with state := .off })))
  ∧ (∀ (n : Nat) (s : State), n < 96 → (s.tile n).spanOwned = false → (s.tile n).holdStopped = false →
    (s.tile n).state = .draining →
    exec (.tileDisable n) s = .next (State.modTile { s with fab := { s.fab with lastTile := n } } n fun x =>
      { x with pendingEnable := false }))
  ∧ (∀ (n : Nat) (s : State), n < 96 → (s.tile n).spanOwned = false → (s.tile n).holdStopped = false →
    (s.tile n).state = .off → exec (.tileDisable n) s = .next { s with fab := { s.fab with lastTile := n } })
  ∧ (∀ (c : Nat → Instr) (n : Nat) (s : State), c = Instr.tileEnable ∨ c = Instr.tileDisable → n < 96 →
    (s.tile n).spanOwned = false → (s.tile n).holdStopped = true →
    exec (c n) s = .next { s with fab := { s.fab with lastTile := n } })
  ∧ (∀ (c : Nat → Instr) (n : Nat) (s : State), c = Instr.tileEnable ∨ c = Instr.tileDisable → 96 ≤ n → n < 128 →
    exec (c n) s = .next { s with fab := { s.fab with lastTile := n, badTile := true } })
  ∧ (∀ (c : Nat → Instr) (n : Nat) (s : State), c = Instr.tileEnable ∨ c = Instr.tileDisable → n < 96 →
    (s.tile n).spanOwned = true → exec (c n) s = .next { s with fab := { s.fab with lastTile := n, spanOwnedErr := true } })
  ∧ (∀ (n : Nat) (s : State), tileDrains n s = true → portIdle (s.tile n) = true → (s.tile n).pendingEnable = false →
    exec (.tileDrainIdle n) s = .next (giveBackAll 0 n (s.modTile n fun x =>
      { x with state := .off, pendingEnable := false, credits := 0 })))
  ∧ (∀ (n : Nat) (s : State), tileDrains n s = true → portIdle (s.tile n) = true → (s.tile n).pendingEnable = true →
    Answers (.tileDrainIdle n) s fun t => (t.tile n).state = .waitGrant ∧ (t.tile n).pendingEnable = false
      ∧ ⟨0, n, 2, 16, 0⟩ ∈ (t.supply 0).newReqs
      ∧ t = { s with gov := t.gov, fab := { s.fab with tiles := t.fab.tiles } } ∧ ∀ m, m ≠ n → t.tile m = s.tile m)
  ∧ (∀ (n : Nat) (s : State), tileDrains n s = true → portIdle (s.tile n) = true →
    exec (.tileDrainTimeout n) s = .next s)
  ∧ (∀ (n : Nat) (s : State), tileDrains n s = true → portIdle (s.tile n) = false →
    exec (.tileDrainTimeout n) s = .next (raiseEvent 10 (s.modTile n fun x => { x with
        state := .on, pendingEnable := false, busyRefused := true, credits := x.credits + x.owed, owed := 0 })))

/-- R87, R89, R91, R92, R93, R311, R334: a tile's fabric port. A request takes a credit a unit and its tag, and waits at the
port as it was sent; too few credits, a LAST that disagrees with LEN, and a tag in use are violations that keep the first
kind and raise event 9 (the second answers DECODE), as are a response to no request and a credit too many; the opcode of a
response is answered DECODE (log 156); a response answers one inbound request; credits return up to the configured count;
the pier answers a request that the fabric leaves unanswered.
It rests on choices of the model: log 42, 43, 142 and 156. -/
def Obligations.FabricPorts : Prop :=
  (∀ (n : Nat) (hd : BitVec 256) (data : List (BitVec 256)) (ck : List (BitVec 10)) (s : State), n < 96 → portLive s n = true →
    1 + headerLen hd ≤ (s.tile n).credits → data.length = headerLen hd → (s.tile n).tags.getLsbD (headerTag hd) = false →
    hd.extractLsb' 216 6 ≠ 0x20 → Answers (.fabricPortRequest n hd data ck) s fun t =>
      t.tile n = { s.tile n with
        credits := (s.tile n).credits - (1 + headerLen hd), outbound := (s.tile n).outbound ++ [⟨hd, data⟩]
        tags := (s.tile n).tags ||| BitVec.twoPow 256 (headerTag hd) }
      ∧ (∀ m, m ≠ n → t.tile m = s.tile m)
      ∧ ((s.spn.slots.find? fun e => e.2.defined && (slotTiles e.2).contains n) = none →
        t = { s with fab := { s.fab with tiles := t.fab.tiles } })
      ∧ t = { s with fab := { s.fab with tiles := t.fab.tiles }, spn := { s.spn with slots := t.spn.slots } })
  ∧ (∀ (n : Nat) (hd : BitVec 256) (data : List (BitVec 256)) (ck : List (BitVec 10)) (s : State), n < 96 → portLive s n = true →
    (s.tile n).credits < 1 + headerLen hd → (s.tile n).protoErr = false →
    exec (.fabricPortRequest n hd data ck) s = .next (raiseEvent 9 (s.modTile n fun x =>
      { x with protoErr := true, errKind := 1 })))
  ∧ (∀ (n : Nat) (hd : BitVec 256) (data : List (BitVec 256)) (ck : List (BitVec 10)) (s : State), n < 96 → portLive s n = true →
    1 + headerLen hd ≤ (s.tile n).credits → data.length ≠ headerLen hd → (s.tile n).protoErr = false →
    Answers (.fabricPortRequest n hd data ck) s fun t => t.told = ⟨⟨3, n⟩, headerTag hd, 1, 0, []⟩ :: s.told
      ∧ t.tile n = { s.tile n with protoErr := true, errKind := 2 } ∧ (∀ m, m ≠ n → t.tile m = s.tile m)
      ∧ t.evt.pend = s.evt.pend ||| BitVec.twoPow 384 9
      ∧ t = { s with fab := { s.fab with tiles := t.fab.tiles }, evt := t.evt, eng := t.eng, told := t.told })
  ∧ (∀ (n : Nat) (hd : BitVec 256) (data : List (BitVec 256)) (ck : List (BitVec 10)) (s : State), n < 96 → portLive s n = true →
    1 + headerLen hd ≤ (s.tile n).credits → data.length = headerLen hd → (s.tile n).tags.getLsbD (headerTag hd) = true →
    (s.tile n).protoErr = false →
    exec (.fabricPortRequest n hd data ck) s = .next (raiseEvent 9 (s.modTile n fun x =>
      { x with protoErr := true, errKind := 3 })))
  ∧ (∀ (n : Nat) (hd : BitVec 256) (data : List (BitVec 256)) (ck : List (BitVec 10)) (s : State), n < 96 → portLive s n = true →
    1 + headerLen hd ≤ (s.tile n).credits → data.length = headerLen hd → (s.tile n).tags.getLsbD (headerTag hd) = false →
    hd.extractLsb' 216 6 = 0x20 →
    exec (.fabricPortRequest n hd data ck) s = .next { s with told := ⟨⟨3, n⟩, headerTag hd, 1, 0, []⟩ :: s.told })
  ∧ (∀ (n tag code : Nat) (src : Initiator) (data : List Byte) (s : State), n < 96 → portLive s n = true → code < 6 →
    ⟨src, tag⟩ ∈ (s.tile n).inbound →
    exec (.fabricPortResponse n src tag code data) s = .next (answer ⟨src, tag, code, 0, if code = 0 then data else []⟩
      (s.modTile n fun x => { x with inbound := x.inbound.erase ⟨src, tag⟩ })))
  ∧ (∀ (n tag code : Nat) (src : Initiator) (data : List Byte) (s : State), n < 96 → portLive s n = true → code < 6 →
    ⟨src, tag⟩ ∉ (s.tile n).inbound → (s.tile n).protoErr = false →
    exec (.fabricPortResponse n src tag code data) s = .next (raiseEvent 9 (s.modTile n fun x =>
      { x with protoErr := true, errKind := 4 })))
  ∧ (∀ (n k : Nat) (s : State), n < 96 → portLive s n = true → (s.tile n).inboundFree + k ≤ (s.tile n).inboundCfg →
    exec (.fabricPortCreditReturn n k) s = .next (s.modTile n fun x => { x with inboundFree := x.inboundFree + k }))
  ∧ (∀ (n k : Nat) (s : State), n < 96 → portLive s n = true → (s.tile n).inboundCfg < (s.tile n).inboundFree + k →
    (s.tile n).protoErr = false → Answers (.fabricPortCreditReturn n k) s fun t =>
      t.tile n = { s.tile n with protoErr := true, errKind := 5, inboundFree := (s.tile n).inboundCfg }
      ∧ (∀ m, m ≠ n → t.tile m = s.tile m) ∧ t.evt.pend = s.evt.pend ||| BitVec.twoPow 384 9
      ∧ t = { s with fab := { s.fab with tiles := t.fab.tiles }, evt := t.evt, eng := t.eng })
  ∧ (∀ (n tag : Nat) (src : Initiator) (s : State), n < 96 → ⟨src, tag⟩ ∈ (s.tile n).inbound →
    exec (.fabricInboundTimeout n src tag) s = .next (answer ⟨src, tag, 3, 0, []⟩
      (s.modTile n fun x => { x with inbound := x.inbound.erase ⟨src, tag⟩ })))
  ∧ (∀ (n : Nat) (hd : BitVec 256) (data : List (BitVec 256)) (ck : List (BitVec 10)) (s : State), portLive s n = false →
    exec (.fabricPortRequest n hd data ck) s = .next s)

/-! ### Block memory (chapter 3) -/

/-- R102, R103, R104, R106 to R113, R99, R126, R127: the ports of a block memory. `m` names the memory, or the cascade
whose member `k` the upper address bits select, `c` the address there, `i` the physical word and `w` its place. A read
delivers the lane it addresses, with SBE for a corrected bit and DBE for two, and the word as it was where the other port
writes it in the same cycle; a write changes its lanes, but for those that port A writes in the same cycle (WW_COLLIDE); a
full write of an ECC memory stores check bits that fit, a partial one merges with the corrected word, or leaves an
uncorrectable one; the output is as RDW_MODE says, 0 under the output reset. An operation presented while the port merges
is discarded with PW_OVERRUN. The upset is what the outside world flips before the access. R114 to R119, R125: the block-
memory scrubber. A gap's end requests one credit for the next tile's burst; a slot moves the walk of every ECC memory of
the tile by one word; a word with one bit wrong is written back corrected in the next slot; after the last word, and out
of RUN, SAFE and TRIM, the burst ends and its credit returns; CLR_COUNTS clears both counts.
It rests on choices of the model: log 137 and 143. -/
def Obligations.BlockMemory : Prop :=
  (∀ (n m a k c i w : Nat) (b clear next same : Bool) (upset : BitVec 72) (x : BWord) (s : State), n < 96 → m < 48 →
    tileClocks s n = true → memberOf s n m b a = (k, c) → portBusy s k b next = false → (s.bmem k).ecc = false →
    i = wordOf ((s.bmem k).port b).width c % 1024 → w = 1024 * k + i →
    x = { s.bword w with data := (s.bword w).data ^^^ upset } →
    (∀ o, collision s k b i same = some o → o.write = false) → Answers (.bramRead n m b a ⟨true, clear⟩ ⟨next,
        same⟩ upset) s fun t =>
      t.bword w = x ∧ (∀ v, v ≠ w → t.bword v = s.bword v)
      ∧ (t.bmem k).port b = { (s.bmem k).port b with
          out := if clear then 0 else readLane ((s.bmem k).port b).width c x.data, sbe := false, dbe := false, merging := false }
      ∧ (t.bmem k).port (!b) = (s.bmem k).port (!b) ∧ (t.bmem k).last = some ⟨b, false, i, 0, x⟩
      ∧ (∀ j, j ≠ k → t.bmem j = s.bmem j)
      ∧ t = { s with fab := { s.fab with words := t.fab.words, mems := t.fab.mems } })
  ∧ (∀ (n m a k c i : Nat) (b next same : Bool) (o : BOp) (s : State), n < 96 → m < 48 → tileClocks s n = true →
    memberOf s n m b a = (k, c) → portBusy s k b next = false → (s.bmem k).ecc = false →
    i = wordOf ((s.bmem k).port b).width c % 1024 → collision s k b i same = some o → o.write = true →
    Answers (.bramRead n m b a ⟨true, false⟩ ⟨next, same⟩ 0) s fun t =>
      ((t.bmem k).port b).out = readLane ((s.bmem k).port b).width c o.old.data
      ∧ (∀ v, t.bword v = s.bword v) ∧ (t.bmem k).port (!b) = (s.bmem k).port (!b)
      ∧ t = { s with fab := { s.fab with words := t.fab.words, mems := t.fab.mems } })
  ∧ (∀ (n m a k c i w : Nat) (b next same : Bool) (s : State), n < 96 → m < 48 → tileClocks s n = true →
    memberOf s n m b a = (k, c) → portBusy s k b next = false → (s.bmem k).ecc = true →
    i = wordOf ((s.bmem k).port b).width c % 1024 → w = 1024 * k + i →
    (∀ o, collision s k b i same = some o → o.write = false) →
      (flipCount (s.bword w).flips = 0 → Answers (.bramRead n m b a ⟨true, false⟩ ⟨next, same⟩ 0) s fun t =>
        (t.bmem k).port b = { (s.bmem k).port b with
          out := readLane ((s.bmem k).port b).width c (s.bword w).data, sbe := false, dbe := false, merging := false }
        ∧ (∀ v, t.bword v = s.bword v) ∧ t.fab.scrub = s.fab.scrub ∧ t.evt = s.evt)
      ∧ (flipCount (s.bword w).flips = 1 → Answers (.bramRead n m b a ⟨true, false⟩ ⟨next, same⟩ 0) s fun t =>
        (t.bmem k).port b = { (s.bmem k).port b with
          out := readLane ((s.bmem k).port b).width c (s.bword w).data, sbe := true, dbe := false, merging := false }
        ∧ (∀ v, t.bword v = s.bword v) ∧ t.evt.pend = s.evt.pend ||| BitVec.twoPow 384 320
        ∧ t.fab.scrub = (if s.fab.scrub.logValid
          then { s.fab.scrub with ce := min (s.fab.scrub.ce + 1) (2 ^ 48 - 1) }
          else { s.fab.scrub with
            ce := min (s.fab.scrub.ce + 1) (2 ^ 48 - 1), logValid := true, logKind := false, logSource := if b then 1 else 0
            logTile := k / 48, logMem := k % 48, logWord := i, logSyn := Config.syndrome (s.bword w).flips }))
      ∧ (flipCount (s.bword w).flips = 2 → s.fab.scrub.dbeHold = false →
        Answers (.bramRead n m b a ⟨true, false⟩ ⟨next, same⟩ 0) s fun t =>
          ((t.bmem k).port b).dbe = true ∧ ((t.bmem k).port b).sbe = false ∧ (∀ v, t.bword v = s.bword v)
          ∧ t.evt.pend = s.evt.pend ||| BitVec.twoPow 384 321 ∧ t.dev.mode = s.dev.mode
          ∧ t.fab.scrub = (if s.fab.scrub.logValid then { s.fab.scrub with ue := min (s.fab.scrub.ue + 1) (2 ^ 16 - 1) }
            else { s.fab.scrub with
              ue := min (s.fab.scrub.ue + 1) (2 ^ 16 - 1), logValid := true, logKind := true, logSource := if b then 1 else 0
              logTile := k / 48, logMem := k % 48, logWord := i, logSyn := Config.syndrome (s.bword w).flips })))
  ∧ (∀ (n m a d en k c i w : Nat) (b clear next same : Bool) (mask : BitVec 72) (s : State), n < 96 → m < 48 →
    tileClocks s n = true → (s.tile n).writesOn = true → memberOf s n m b a = (k, c) → portBusy s k b next = false →
    (s.bmem k).ecc = false → i = wordOf ((s.bmem k).port b).width c % 1024 → w = 1024 * k + i →
    collision s k b i same = none → mask = laneMask ((s.bmem k).port b).width c en →
    Answers (.bramWrite n m b a en d clear ⟨next, same⟩ 0) s fun t =>
      (t.bword w).data = ((s.bword w).data &&& ~~~ mask) ||| (laneData ((s.bmem k).port b).width c d &&& mask)
      ∧ (∀ v, v ≠ w → t.bword v = s.bword v)
      ∧ ((t.bmem k).port b).out = (if clear then 0
          else if ((s.bmem k).port b).rdw = 0 then readLane ((s.bmem k).port b).width c (t.bword w).data
          else if ((s.bmem k).port b).rdw = 1 then readLane ((s.bmem k).port b).width c (s.bword w).data
          else ((s.bmem k).port b).out)
      ∧ (t.bmem k).port (!b) = (s.bmem k).port (!b) ∧ (t.bmem k).last = some ⟨b, true, i, mask, s.bword w⟩
      ∧ (∀ j, j ≠ k → t.bmem j = s.bmem j)
      ∧ t = { s with fab := { s.fab with words := t.fab.words, mems := t.fab.mems } })
  ∧ (∀ (n m a d en k c i w : Nat) (next : Bool) (o : BOp) (s : State), n < 96 → m < 48 → tileClocks s n = true →
    (s.tile n).writesOn = true → memberOf s n m true a = (k, c) → portBusy s k true next = false → (s.bmem k).ecc = false →
    i = wordOf (s.bmem k).portB.width c % 1024 → w = 1024 * k + i → collision s k true i true = some o → o.write = true →
    Answers (.bramWrite n m true a en d false ⟨next, true⟩ 0) s fun t =>
      (t.bword w).data &&& o.mask = (s.bword w).data &&& o.mask
      ∧ (t.bword w).data &&& ~~~ o.mask = (((s.bword w).data &&& ~~~ laneMask (s.bmem k).portB.width c en)
        ||| (laneData (s.bmem k).portB.width c d &&& laneMask (s.bmem k).portB.width c en)) &&& ~~~ o.mask
      ∧ (∀ v, v ≠ w → t.bword v = s.bword v) ∧ t.fab.scrub.wwCollide = true
      ∧ (s.fab.scrub.wwCollide = false → s.fab.scrub.pwOverrun = false →
        t.fab.scrub.firstTile = k / 48 ∧ t.fab.scrub.firstMem = k % 48))
  ∧ (∀ (n m a d k c w : Nat) (b next : Bool) (s : State), n < 96 → m < 48 → tileClocks s n = true →
    (s.tile n).writesOn = true → memberOf s n m b a = (k, c) → portBusy s k b next = false → (s.bmem k).ecc = true →
    ((s.bmem k).port b).width = 1 → c < 1024 → w = 1024 * k + c → d < 2 ^ 64 →
    (((s.bmem k).port b).rdw = 1 → flipCount (s.bword w).flips = 0) →
    Answers (.bramWrite n m b a 255 d false ⟨next, false⟩ 0) s fun t =>
      t.bword w = { data := BitVec.ofNat 72 d, flips :=
        if s.fab.scrub.injArm = true ∧ b = false ∧ 48 * s.fab.scrub.injTile + s.fab.scrub.injMem = k ∧ s.fab.scrub.injMem < 48
        then s.fab.scrub.injFlip.zeroExtend 72 <<< 64 else 0 }
      ∧ (∀ v, v ≠ w → t.bword v = s.bword v)
      ∧ ((t.bmem k).port b).out = (if ((s.bmem k).port b).rdw = 0 then BitVec.ofNat 72 d
          else if ((s.bmem k).port b).rdw = 1 then BitVec.ofNat 72 ((s.bword w).data.toNat % 2 ^ 64)
          else ((s.bmem k).port b).out)
      ∧ ((t.bmem k).port b).merging = false ∧ (t.bmem k).port (!b) = (s.bmem k).port (!b)
      ∧ (∀ j, j ≠ k → t.bmem j = s.bmem j)
      ∧ t = { s with fab := { s.fab with words := t.fab.words, mems := t.fab.mems, scrub := { s.fab.scrub with
        injArm := s.fab.scrub.injArm && !(!b && decide (48 * s.fab.scrub.injTile + s.fab.scrub.injMem = k)
          && decide (s.fab.scrub.injMem < 48)) } } })
  ∧ (∀ (n m a d en k c i w : Nat) (b next : Bool) (mask : BitVec 72) (s : State), n < 96 → m < 48 → tileClocks s n = true →
    (s.tile n).writesOn = true → memberOf s n m b a = (k, c) → portBusy s k b next = false → (s.bmem k).ecc = true →
    ((s.bmem k).port b).width ≠ 1 ∨ en % 256 ≠ 255 → i = wordOf ((s.bmem k).port b).width c % 1024 → w = 1024 * k + i →
    mask = laneMask ((s.bmem k).port b).width c en →
      (flipCount (s.bword w).flips = 0 → Answers (.bramWrite n m b a en d false ⟨next, false⟩ 0) s fun t =>
        t.bword w = { data := ((s.bword w).data &&& ~~~ mask) ||| (laneData ((s.bmem k).port b).width c d &&& mask), flips := 0 }
        ∧ (∀ v, v ≠ w → t.bword v = s.bword v) ∧ ((t.bmem k).port b).merging = true
        ∧ t = { s with fab := { s.fab with words := t.fab.words, mems := t.fab.mems } })
      ∧ (flipCount (s.bword w).flips = 1 → Answers (.bramWrite n m b a en d false ⟨next, false⟩ 0) s fun t =>
        t.bword w = { data := ((s.bword w).data &&& ~~~ mask) ||| (laneData ((s.bmem k).port b).width c d &&& mask), flips := 0 }
        ∧ (∀ v, v ≠ w → t.bword v = s.bword v) ∧ ((t.bmem k).port b).merging = true
        ∧ t.fab.scrub.ce = min (s.fab.scrub.ce + 1) (2 ^ 48 - 1) ∧ t.evt.pend = s.evt.pend ||| BitVec.twoPow 384 320)
      ∧ (flipCount (s.bword w).flips = 2 → Answers (.bramWrite n m b a en d false ⟨next, false⟩ 0) s fun t =>
        (∀ v, t.bword v = s.bword v) ∧ ((t.bmem k).port b).dbe = true ∧ ((t.bmem k).port b).sbe = false
        ∧ t.fab.scrub.ue = min (s.fab.scrub.ue + 1) (2 ^ 16 - 1) ∧ t.evt.pend.getLsbD 321 = true))
  ∧ (∀ (n m a d en k c : Nat) (b clear same : Bool) (upset : BitVec 72) (i : Instr) (s : State), n < 96 → m < 48 →
    tileClocks s n = true → memberOf s n m b a = (k, c) → ((s.bmem k).port b).merging = true →
    i = Instr.bramRead n m b a ⟨true, clear⟩ ⟨true, same⟩ upset
      ∨ (i = Instr.bramWrite n m b a en d clear ⟨true, same⟩ upset ∧ (s.tile n).writesOn = true) → Answers i s fun t =>
      t.fab.scrub = { s.fab.scrub with
        pwOverrun := true
        firstTile := if s.fab.scrub.wwCollide || s.fab.scrub.pwOverrun then s.fab.scrub.firstTile else k / 48
        firstMem := if s.fab.scrub.wwCollide || s.fab.scrub.pwOverrun then s.fab.scrub.firstMem else k % 48 }
      ∧ (t.bmem k).port b = { (s.bmem k).port b with merging := false }
      ∧ t = { s with fab := { s.fab with mems := t.fab.mems, scrub := t.fab.scrub } })
  ∧ (∀ (n m a k c : Nat) (b next same : Bool) (upset : BitVec 72) (s : State), n < 96 → m < 48 → tileClocks s n = true →
    memberOf s n m b a = (k, c) → Answers (.bramRead n m b a ⟨false, true⟩ ⟨next, same⟩ upset) s fun t =>
      (t.bmem k).port b = { (s.bmem k).port b with out := 0, merging := false }
      ∧ t = { s with fab := { s.fab with mems := t.fab.mems } })
  ∧ (∀ (n m a en d : Nat) (b rd clear next same : Bool) (upset : BitVec 72) (s : State),
    (tileClocks s n = false → exec (.bramRead n m b a ⟨rd, clear⟩ ⟨next, same⟩ upset) s = .next s)
    ∧ (tileClocks s n = false ∨ (s.tile n).writesOn = false →
      exec (.bramWrite n m b a en d clear ⟨next, same⟩ upset) s = .next s))
  ∧ (∀ (n m a i : Nat) (b : Bool) (s : State), a < depthAt ((s.bmem (48 * n + m)).port b).width
      → i < (s.bmem (48 * n + m)).cascade →
    m % 12 + i < 12 →
    memberOf s n m b (i * depthAt ((s.bmem (48 * n + m)).port b).width + a) = (48 * n + m + i, a))
  ∧ (∀ s : State, scrubMode s = true → s.fab.scrub.en = true → s.fab.scrub.burst = false → s.fab.scrub.waitGrant = false →
    scrubsTile s s.fab.scrub.tile = true →
    exec .bramScrubGapEnd s = .next
      (State.modSupply { s with fab := { s.fab with scrub := { s.fab.scrub with waitGrant := true } } } 0 fun u =>
        { u with newReqs := u.newReqs ++ [⟨9, 0, 6, 1, 0⟩] }))
  ∧ (∀ s : State, s.fab.scrub.burst = true → scrubMode s = true → portLive s s.fab.scrub.tile = true →
    s.dev.mode ≠ .hold → (∃ m ∈ eccMems s s.fab.scrub.tile, (s.bmem (48 * s.fab.scrub.tile + m)).walk < 1023) →
    (∀ m ∈ eccMems s s.fab.scrub.tile, (s.bmem (48 * s.fab.scrub.tile + m)).writeBack = none
      ∧ (s.bword ((48 * s.fab.scrub.tile + m) * 1024 + (s.bmem (48 * s.fab.scrub.tile + m)).walk)).flips = 0) →
    Answers (.bramScrubSlot []) s fun t =>
      (∀ m ∈ eccMems s s.fab.scrub.tile, t.bmem (48 * s.fab.scrub.tile + m) = { s.bmem (48 * s.fab.scrub.tile + m) with
        walk := max (s.bmem (48 * s.fab.scrub.tile + m)).walk
          (min 1024 ((s.bmem (48 * s.fab.scrub.tile + m)).walk + 1)) })
      ∧ t = { s with fab := { s.fab with mems := t.fab.mems } })
  ∧ (∀ (m k w : Nat) (s : State), s.fab.scrub.burst = true → scrubMode s = true → portLive s s.fab.scrub.tile = true →
    s.dev.mode ≠ .hold → eccMems s s.fab.scrub.tile = [m] → k = 48 * s.fab.scrub.tile + m →
    (s.bmem k).writeBack = none → (s.bmem k).walk < 1024 → w = 1024 * k + (s.bmem k).walk →
    flipCount (s.bword w).flips = 1 → Answers (.bramScrubSlot []) s fun t =>
      t.bmem k = { s.bmem k with walk := (s.bmem k).walk + 1, writeBack := some ((s.bmem k).walk, (s.bword w).data) }
      ∧ (∀ v, t.bword v = s.bword v) ∧ t.fab.scrub.ce = min (s.fab.scrub.ce + 1) (2 ^ 48 - 1) ∧ t.fab.scrub.burst = true
      ∧ t.evt.pend = s.evt.pend ||| BitVec.twoPow 384 320)
  ∧ (∀ (m k w : Nat) (v : BitVec 72) (s : State), s.fab.scrub.burst = true → scrubMode s = true →
    portLive s s.fab.scrub.tile = true → s.dev.mode ≠ .hold → eccMems s s.fab.scrub.tile = [m] →
    k = 48 * s.fab.scrub.tile + m → (s.bmem k).writeBack = some (w, v) → (s.bmem k).walk < 1024 →
    Answers (.bramScrubSlot []) s fun t =>
      t.bword (1024 * k + w) = { data := v, flips := 0 } ∧ (∀ j, j ≠ 1024 * k + w → t.bword j = s.bword j)
      ∧ t.bmem k = { s.bmem k with writeBack := none }
      ∧ t = { s with fab := { s.fab with words := t.fab.words, mems := t.fab.mems } })
  ∧ (∀ s : State, s.fab.scrub.burst = true → scrubMode s = true → portLive s s.fab.scrub.tile = true → s.dev.mode ≠ .hold →
    (∀ m ∈ eccMems s s.fab.scrub.tile, 1024 ≤ (s.bmem (48 * s.fab.scrub.tile + m)).walk
      ∧ (s.bmem (48 * s.fab.scrub.tile + m)).writeBack = none) →
    Answers (.bramScrubSlot []) s fun t => heldBy t 9 0 = 0
      ∧ t.fab = { s.fab with scrub := { s.fab.scrub with
        burst := false, tile := (s.fab.scrub.tile + 1) % 96
        passes := if s.fab.scrub.tile = 95 then (s.fab.scrub.passes + 1) % 2 ^ 16 else s.fab.scrub.passes } }
      ∧ t = { s with fab := t.fab, gov := t.gov })
  ∧ (∀ (l : List (Nat × BitVec 72)) (s : State), s.fab.scrub.burst = true →
    scrubMode s = false ∨ portLive s s.fab.scrub.tile = false →
    exec (.bramScrubSlot l) s = .next (giveBackAll 9 0 { s with fab := { s.fab with
      scrub := { s.fab.scrub with burst := false } } }))
  ∧ (∀ s : State, exec .bramClrCounts s = .next { s with fab := { s.fab with
      scrub := { s.fab.scrub with ce := 0, ue := 0 } } })

/-! ### The user logic (chapters 2 and 3) -/

/-! ### Spans (chapter 4) -/

/-- R163, R164, R165, R172, R174: how a slot is evaluated. Candidates are the personalities homed there, in demand, not
blocked and neither there nor chosen; the best has the smallest demand age and, on equal age, the smallest ID. An EMPTY
slot loads the best; a load not granted is withdrawn when its demand ends; a pinned personality stays; an idle span, or
one past MAX_RES, leaves for a candidate; with none, an idle span leaves where evict_idle is set or TRIM evicts. With
PAGER_EN 0 only command 0x0505 makes a candidate act and no span leaves (log 47); HOLD stops it all. R160, R164, R165: an
eviction or a disable drains the slot: its bound queues are paused and its tiles' fences rise; stages of its clock start
still to begin are dropped (R152); the choice takes its place in the order of choices. -/
def Obligations.SlotsChoose : Prop :=
  (∀ (i : Nat) (e : Nat × Pers) (s : State), e ∈ candidates s i ↔ e ∈ s.spn.pers ∧ e.2.installed = true ∧ e.2.homeSlot = i
    ∧ e.2.inDemand = true ∧ e.2.blocked = false ∧ (s.spn.pagerEn = true ∨ e.2.asked = true)
    ∧ ¬ ((s.slot i).pers = e.1 ∧ ((s.slot i).state = .waitGrant ∨ (s.slot i).state = .loading ∨ (s.slot i).state = .starting
      ∨ (s.slot i).state = .resident)))
  ∧ (∀ l : List (Nat × Pers), bestOf l = none ↔ l = [])
  ∧ (∀ (l : List (Nat × Pers)) (e : Nat × Pers), bestOf l = some e →
    e ∈ l ∧ ∀ c ∈ l, e.2.age < c.2.age ∨ (e.2.age = c.2.age ∧ e.1 ≤ c.1))
  ∧ (∀ (i c : Nat) (e : Nat × Pers) (s : State), s.dev.mode ≠ .hold → s.dev.ready.spanPager = true →
    (s.slot i).state = .empty → bestOf (candidates s i) = some e → c = (s.pers e.1).spanCredits + 8 → c ≤ 1818 →
    ∃ t, t = evaluate i s
      ∧ t.slot i = { s.slot i with
        state := .waitGrant, pers := e.1, idle := false, resExpired := false, chosen := s.spn.choices }
      ∧ (∀ m, m ≠ i → t.slot m = s.slot m) ∧ t.spn.choices = s.spn.choices + 1
      ∧ (t.supply 0).newReqs = (s.supply 0).newReqs ++ [⟨2, i, 4, c, 0⟩]
      ∧ t = { s with spn := { s.spn with slots := t.spn.slots, choices := t.spn.choices }, gov := t.gov })
  ∧ (∀ (i : Nat) (s : State), s.dev.mode = .hold → evaluate i s = s)
  ∧ (∀ (i : Nat) (s : State), s.dev.mode ≠ .hold → (s.slot i).state = .waitGrant →
    (s.pers (s.slot i).pers).inDemand = false → s.dev.ready.spanPager = false →
    evaluate i s = withdraw 2 i (s.modSlot i fun x => { x with state := .empty, pers := 0 }))
  ∧ (∀ (i : Nat) (s : State), (s.slot i).state = .empty → candidates s i = [] → evaluate i s = s)
  ∧ (∀ (i : Nat) (s : State), (s.slot i).state = .resident ∨ (s.slot i).state = .starting →
    (s.pers (s.slot i).pers).pinned = true ∨ s.spn.pagerEn = false → evaluate i s = s)
  ∧ (∀ (i : Nat) (e : Nat × Pers) (s : State), s.dev.mode ≠ .hold → s.dev.ready.spanPager = true → s.spn.pagerEn = true →
    (s.slot i).state = .resident → (s.pers (s.slot i).pers).pinned = false → e ∈ candidates s i →
    evaluate i s = if ((s.slot i).idle = true ∧ idleNow s i = true)
      ∨ ((s.pers (s.slot i).pers).maxRes ≠ 0 ∧ (s.slot i).resExpired = true) then startDrain i s else s)
  ∧ (∀ (i : Nat) (s : State), s.dev.mode ≠ .hold → s.dev.ready.spanPager = true → s.spn.pagerEn = true →
    (s.slot i).state = .resident → (s.pers (s.slot i).pers).pinned = false → candidates s i = [] →
    evaluate i s = if ((s.slot i).idle = true ∧ idleNow s i = true
      ∧ ((s.slot i).evictIdle = true ∨ (s.dev.mode = .trim ∧ s.spn.trimEvict = true))) then startDrain i s else s)
  ∧ (∀ (i : Nat) (s : State), ∃ t, t = startDrain i s
    ∧ t.slot i = { s.slot i with state := .draining, clkLeft := 0, chosen := s.spn.choices }
    ∧ (∀ m, m ≠ i → t.slot m = s.slot m) ∧ t.spn.choices = s.spn.choices + 1
    ∧ (∀ q, (s.queue q).pers ≠ 0xFFFF → (s.queue q).pers = (s.slot i).pers → t.queue q = { s.queue q with paused := true })
    ∧ (∀ q, (s.queue q).pers ≠ (s.slot i).pers → t.queue q = s.queue q)
    ∧ (∀ n ∈ slotTiles (s.slot i), t.tile n = { s.tile n with
      fence := true, state := if (s.tile n).state = .on then .draining else (s.tile n).state })
    ∧ (∀ n, n ∉ slotTiles (s.slot i) → t.tile n = s.tile n)
    ∧ (∀ g, g ∈ t.gov.stages ↔ g ∈ s.gov.stages ∧ ¬ (g.kind = 2 ∧ g.index = i))
    ∧ t = { s with
      spn := { s.spn with slots := t.spn.slots, choices := t.spn.choices }
      qm := { s.qm with queues := t.qm.queues }
      fab := { s.fab with tiles := t.fab.tiles }
      gov := { s.gov with stages := t.gov.stages } })

/-- R146, R147, R153, R157, R158, R170: a load. The 512 bytes at IMAGE_ADDR are read (`u` is the state then); a header
that matches starts the frame stream, with set-reset asserted for a fresh load; one that does not aborts with code 5, and
a read answered other than OK with code 8. A frame that the blocks do not hold in order aborts with code 2; one that fails
a check aborts with that check's code and its address; one that passes is written. After the last frame the slot is
STARTING and returns 8 credits. An abort blocks the personality, ends its demand and wipes (R154). R57, R142, R150, R151,
R152: the steps of START_ORDER. CLK waits while a PLL of PLL_MASK is unlocked, then queues the clocks of the slot's tiles;
OUT ends the isolation of the wires, RST releases set-reset of a fresh span; each completes at once, and the later of the
two opens the ports with 16 outbound credits and the configured inbound ones and lowers the fences; WR enables writes.
After the fourth the span is RESIDENT, its bound queues run, LOADED is set and event 112 + slot is raised. Each clause but
the last is of a step before the fourth.
It rests on choices of the model: log 48, 49, 54, 144 and 146. -/
def Obligations.SpanStarts : Prop :=
  (∀ (i : Nat) (up : List (Nat × BitVec 640)) (ac : Bool) (b : List Byte) (r : Bool) (s u : State),
    inSlotState s i .loading = true → (s.slot i).headerOk = false →
    hasPort s i = true → storeRead up ac (blockParts (s.pers (s.slot i).pers).imageAddr 512) s = ((0, b), u) →
    headerMatches u i (spanHeaderOf b) = true →
    r = ((s.pers (s.slot i).pers).stateValid && !(s.pers (s.slot i).pers).stateless) →
    Answers (.spanHeaderChecked i up ac) s fun t =>
      t.slot i = { u.slot i with
        headerOk := true, restore := r, tileCrc := (spanHeaderOf b).tileCrc, crc := BitVec.allOnes 32, setReset := !r }
      ∧ (∀ m, m ≠ i → t.slot m = u.slot m)
      ∧ (∀ n ∈ slotTiles (u.slot i), t.tile n = { u.tile n with setReset := !r, releasing := false })
      ∧ (∀ n, n ∉ slotTiles (u.slot i) → t.tile n = u.tile n)
      ∧ t = { u with
        spn := { u.spn with slots := t.spn.slots }, fab := { u.fab with tiles := t.fab.tiles }
        pending := s.pending, fuse := s.fuse })
  ∧ (∀ (i code : Nat) (up : List (Nat × BitVec 640)) (ac : Bool) (b : List Byte) (s u : State),
    inSlotState s i .loading = true → (s.slot i).headerOk = false →
    hasPort s i = true → storeRead up ac (blockParts (s.pers (s.slot i).pers).imageAddr 512) s = ((code, b), u) →
    (code = 0 → headerMatches u i (spanHeaderOf b) = false) →
    exec (.spanHeaderChecked i up ac) s = .next { (if code = 0 then abortLoad i 5 0 9 u else abortLoad i 8 0 (statusOf code) u) with
      pending := s.pending, fuse := s.fuse })
  ∧ (∀ (i code frame st : Nat) (s : State), (s.pers (s.slot i).pers).homeSlot = i →
    ∃ t, t = abortLoad i code frame st s ∧ (t.pers (s.slot i).pers).blocked = true
      ∧ ((s.pers (s.slot i).pers).installed = true → (t.pers (s.slot i).pers).inDemand = false)
      ∧ (t.pers (s.slot i).pers).asked = false
      ∧ t.slot i = { s.slot i with
        state := .wiping, errCode := code, errFrame := frame, wipeAbort := true, idle := (t.slot i).idle })
  ∧ (∀ (i : Nat) (up cu : List (Nat × BitVec 640)) (ac ca : Bool) (ms : List MemSetting) (s : State),
      inSlotState s i .loading = true → (s.slot i).headerOk = true →
    hasPort s i = true → (s.slot i).restore = false → (s.slot i).imgLeft = 0 →
    (s.pers (s.slot i).pers).imageLen < (s.slot i).imgPos + 16 →
    exec (.spanFrame i up ac cu ca ms) s = .next { abortLoad i 2 ((dueFrame (s.slot i)).getD 0) 9 s with
      pending := s.pending, fuse := s.fuse })
  ∧ (∀ (i code addr : Nat) (v : BitVec 640) (up cu : List (Nat × BitVec 640)) (ac ca : Bool) (ms : List MemSetting) (s u : State),
      inSlotState s i .loading = true →
    (s.slot i).headerOk = true → hasPort s i = true → readDue up ac i s = (.refused code, addr, v, u) →
    exec (.spanFrame i up ac cu ca ms) s = .next { abortLoad i 8 ((dueFrame (s.slot i)).getD 0) (statusOf code) u with
      pending := s.pending, fuse := s.fuse })
  ∧ (∀ (i addr sc : Nat) (v : BitVec 640) (c : BitVec 32) (up cu : List (Nat × BitVec 640)) (ac ca : Bool) (ms : List MemSetting) (s u w : State),
    inSlotState s i .loading = true → (s.slot i).headerOk = true → hasPort s i = true →
    readDue up ac i s = (.frame, addr, v, u) → frameCheck u i addr v = 0 →
    c = crcBytes (if addr % 2 ^ 15 = 0 ∨ ((u.slot i).restore = true ∧ addr % 2 ^ 15 = 13568) then BitVec.allOnes 32
      else (u.slot i).crc) (leBytes 80 v.toNat) → readStateCrc cu ca i u = ((0, sc), w) →
    crcCheck (u.slot i) (addr % 2 ^ 15) ((u.slot i).nextFrame / framesPerTile (u.slot i)) c sc = 0 →
    (w.slot i).nextFrame + 1 < framesPerTile (w.slot i) * tileCount (w.slot i) →
    exec (.spanFrame i up ac cu ca ms) s = .next { State.modSlot (setMems (addr / 2 ^ 15) (if addr % 2 ^ 15 < 13568 then ms else [])
        (writeFrame (if (w.slot i).restore then some (w.slot i).pers else none) (addr / 2 ^ 15) (addr % 2 ^ 15) v w)) i
        (fun x => { x with crc := c, nextFrame := x.nextFrame + 1 }) with pending := s.pending, fuse := s.fuse })
  ∧ (∀ (i addr sc : Nat) (v : BitVec 640) (c : BitVec 32) (up cu : List (Nat × BitVec 640)) (ac ca : Bool) (ms : List MemSetting) (s u w : State),
    inSlotState s i .loading = true → (s.slot i).headerOk = true → hasPort s i = true →
    readDue up ac i s = (.frame, addr, v, u) → frameCheck u i addr v = 0 →
    c = crcBytes (if addr % 2 ^ 15 = 0 ∨ ((u.slot i).restore = true ∧ addr % 2 ^ 15 = 13568) then BitVec.allOnes 32
      else (u.slot i).crc) (leBytes 80 v.toNat) → readStateCrc cu ca i u = ((0, sc), w) →
    crcCheck (u.slot i) (addr % 2 ^ 15) ((u.slot i).nextFrame / framesPerTile (u.slot i)) c sc = 0 →
    framesPerTile (w.slot i) * tileCount (w.slot i) ≤ (w.slot i).nextFrame + 1 →
    Answers (.spanFrame i up ac cu ca ms) s fun t =>
      t.slot i = { w.slot i with
        crc := c, nextFrame := (w.slot i).nextFrame + 1, state := .starting, step := 0, clkLeft := 0, outDone := false
        rstDone := false }
      ∧ i ∉ portQueue t i ∧ (t.supply 0).returned = (w.supply 0).returned ++ [(512 + i, 8)])
  ∧ (∀ (i addr : Nat) (v : BitVec 640) (up cu : List (Nat × BitVec 640)) (ac ca : Bool) (ms : List MemSetting) (s u : State),
      inSlotState s i .loading = true →
    (s.slot i).headerOk = true → hasPort s i = true → readDue up ac i s = (.frame, addr, v, u) → frameCheck u i addr v ≠ 0 →
    exec (.spanFrame i up ac cu ca ms) s = .next { abortLoad i (frameCheck u i addr v) addr 9 u with
      pending := s.pending, fuse := s.fuse })
  ∧ (∀ (i addr : Nat) (v : BitVec 640) (s : State),
    (frameCheck s i addr v = 1 ↔ addr / 2 ^ 15 ∉ slotTiles (s.slot i) ∨ 20480 ≤ addr % 2 ^ 15)
    ∧ (frameCheck s i addr v = 2 ↔ addr / 2 ^ 15 ∈ slotTiles (s.slot i) ∧ addr % 2 ^ 15 < 20480
      ∧ dueFrame (s.slot i) ≠ some addr))
  ∧ (∀ (i n : Nat) (s : State), inSlotState s i .starting = true → (s.slot i).clkLeft = 0 → (s.slot i).step < 4 →
    bits (s.pers (s.slot i).pers).startOrder (2 * (s.slot i).step) 2 = 0 → n < 24 →
    bit (s.pers (s.slot i).pers).pllMask n = true → (s.pll n).lock = false → exec (.spanStartStep i) s = .next s)
  ∧ (∀ (i k : Nat) (s : State), inSlotState s i .starting = true → (s.slot i).clkLeft = 0 → (s.slot i).step < 4 →
    bits (s.pers (s.slot i).pers).startOrder (2 * (s.slot i).step) 2 = 0 →
    (∀ n, n < 24 → bit (s.pers (s.slot i).pers).pllMask n = true → (s.pll n).lock = true) → k = tileCount (s.slot i) →
    exec (.spanStartStep i) s = .next ({ s with gov := { s.gov with
      stages := s.gov.stages ++ [(⟨2, i, k, (s.pers (s.slot i).pers).spanCredits, k⟩ : GovStage)] } }.modSlot i fun x =>
        { x with clkLeft := k }))
  ∧ (∀ (i : Nat) (s : State), inSlotState s i .starting = true → (s.slot i).clkLeft = 0 → (s.slot i).step < 3 →
    bits (s.pers (s.slot i).pers).startOrder (2 * (s.slot i).step) 2 = 1 → (s.slot i).rstDone = false →
    Answers (.spanStartStep i) s fun t =>
      t.slot i = { s.slot i with outDone := true, step := (s.slot i).step + 1 } ∧ (∀ m, m ≠ i → t.slot m = s.slot m)
      ∧ (∀ n ∈ slotTiles (s.slot i), t.tile n = { s.tile n with isolated := false })
      ∧ (∀ n, n ∉ slotTiles (s.slot i) → t.tile n = s.tile n)
      ∧ t = { s with spn := { s.spn with slots := t.spn.slots }, fab := { s.fab with tiles := t.fab.tiles } })
  ∧ (∀ (i : Nat) (s : State), inSlotState s i .starting = true → (s.slot i).clkLeft = 0 → (s.slot i).step < 3 →
    bits (s.pers (s.slot i).pers).startOrder (2 * (s.slot i).step) 2 = 2 → (s.slot i).outDone = true →
    (s.slot i).restore = false → Answers (.spanStartStep i) s fun t =>
      t.slot i = { s.slot i with rstDone := true, setReset := false, step := (s.slot i).step + 1 }
      ∧ (∀ m, m ≠ i → t.slot m = s.slot m)
      ∧ (∀ n ∈ slotTiles (s.slot i), t.tile n = { s.tile n with
        setReset := false, releasing := true, spanHold := false, fence := false, credits := 16, owed := 0
        inboundFree := (s.tile n).inboundCfg })
      ∧ (∀ n, n ∉ slotTiles (s.slot i) → t.tile n = s.tile n)
      ∧ t = { s with
        spn := { s.spn with slots := t.spn.slots }
        fab := { s.fab with tiles := t.fab.tiles, frames := t.fab.frames, sync := t.fab.sync } })
  ∧ (∀ (i : Nat) (s : State), inSlotState s i .starting = true → (s.slot i).clkLeft = 0 → (s.slot i).step < 3 →
    bits (s.pers (s.slot i).pers).startOrder (2 * (s.slot i).step) 2 = 2 → (s.slot i).outDone = true →
    (s.slot i).restore = true → (∀ n ∈ slotTiles (s.slot i), (s.tile n).setReset = false) →
    Answers (.spanStartStep i) s fun t =>
      t.slot i = { s.slot i with rstDone := true, setReset := false, step := (s.slot i).step + 1 }
      ∧ (∀ n ∈ slotTiles (s.slot i), t.tile n = { s.tile n with
        spanHold := false, fence := false, credits := 16, owed := 0, inboundFree := (s.tile n).inboundCfg })
      ∧ (∀ n, n ∉ slotTiles (s.slot i) → t.tile n = s.tile n)
      ∧ t = { s with spn := { s.spn with slots := t.spn.slots }, fab := { s.fab with tiles := t.fab.tiles } })
  ∧ (∀ (i : Nat) (s : State), inSlotState s i .starting = true → (s.slot i).clkLeft = 0 → (s.slot i).step < 3 →
    bits (s.pers (s.slot i).pers).startOrder (2 * (s.slot i).step) 2 = 3 →
    Answers (.spanStartStep i) s fun t => t.slot i = { s.slot i with step := (s.slot i).step + 1 }
      ∧ (∀ m, m ≠ i → t.slot m = s.slot m)
      ∧ (∀ n ∈ slotTiles (s.slot i), t.tile n = { s.tile n with writesOn := true })
      ∧ (∀ n, n ∉ slotTiles (s.slot i) → t.tile n = s.tile n)
      ∧ t = { s with spn := { s.spn with slots := t.spn.slots }, fab := { s.fab with tiles := t.fab.tiles } })
  ∧ (∀ (i : Nat) (s : State), inSlotState s i .starting = true → (s.slot i).clkLeft = 0 → (s.slot i).step = 3 →
    bits (s.pers (s.slot i).pers).startOrder 6 2 = 3 → (s.pers (s.slot i).pers).homeSlot = i →
    Answers (.spanStartStep i) s fun t =>
      t.slot i = { s.slot i with
        state := .resident, hold := false, loaded := true, idle := false, resExpired := false, step := 4
        loadCycles := min (s.noc.cycle - (s.slot i).opStart) (2 ^ 32 - 1), loads := min ((s.slot i).loads + 1) (2 ^ 64 - 1) }
      ∧ (∀ m, m ≠ i → t.slot m = s.slot m) ∧ (t.pers (s.slot i).pers).asked = false
      ∧ t.evt.pend = s.evt.pend ||| BitVec.twoPow 384 (112 + i)
      ∧ (∀ q, (s.queue q).pers ≠ 0xFFFF → (s.queue q).pers = (s.slot i).pers → t.queue q = { s.queue q with paused := false })
      ∧ (∀ q, (s.queue q).pers ≠ (s.slot i).pers → t.queue q = s.queue q)
      ∧ (∀ n ∈ slotTiles (s.slot i), (t.tile n).writesOn = true))

/-- R154, R162, R163, R165, R166, R178: the rest of a slot's life. A timer that expires has the slot evaluated; a drain
that goes idle asserts the span hold, with the isolation values, and saves, or ends for a STATELESS personality with
everything returned; a drain that does not go idle is refused and the fences come down; a failed save records STATE_LOST,
code 9 and the frame refused; a wipe clears every frame the load wrote and ends EMPTY or DISABLED (the pager may choose a
load of an EMPTY slot at once). Each raises event 112 + slot. R149, R155, R156, R165, R178: a save. Each tile's frames
13,568 to 20,479 and then the record go to the state area, judged as the pager's writes; a write answered other than OK
fails the save with code 9; else STATE_VALID and EVICTED are set, the 8 credits return, and the slot ends with event 112 +
slot. What one tile's save writes is stated where the fabric holds no word with a flipped bit. The record's layout is the
model's choice (log 147).
It rests on choices of the model: log 146, 147 and 148. -/
def Obligations.SpanLeaves : Prop :=
  (∀ (i : Nat) (s : State), inSlotState s i .resident = true ∨ inSlotState s i .starting = true → idleNow s i = true →
    exec (.spanIdleTimer i) s = .next { evaluate i (s.modSlot i fun x => { x with idle := true }) with
      pending := s.pending, fuse := s.fuse })
  ∧ (∀ (i : Nat) (s : State), inSlotState s i .resident = true → (s.pers (s.slot i).pers).maxRes ≠ 0 →
    exec (.spanMaxResExpiry i) s = .next { evaluate i (s.modSlot i fun x => { x with resExpired := true }) with
      pending := s.pending, fuse := s.fuse })
  ∧ (∀ (i : Nat) (s : State), inSlotState s i .draining = true →
    (∀ n ∈ slotTiles (s.slot i), portIdle (s.tile n) = true) → (s.pers (s.slot i).pers).stateless = false →
    Answers (.spanDrainIdle i) s fun t =>
      t.slot i = { s.slot i with
        hold := true, setReset := false, outDone := false, rstDone := false, state := .saving, opStart := s.noc.cycle }
      ∧ (∀ m, m ≠ i → t.slot m = s.slot m)
      ∧ (∀ n ∈ slotTiles (s.slot i), t.tile n = { s.tile n with
        state := .off, spanHold := true, isolated := true, writesOn := false, setReset := false, releasing := false
        credits := 0, owed := 0 })
      ∧ (∀ n, n ∉ slotTiles (s.slot i) → t.tile n = s.tile n)
      ∧ i ∈ portQueue t i ∧ (portQueue s i ≠ [] → (portQueue t i).head? = (portQueue s i).head?)
      ∧ heldBy t 2 i = min 8 (heldBy s 2 i) ∧ t.evt = s.evt)
  ∧ (∀ (i : Nat) (s : State), inSlotState s i .draining = true →
    (∀ n ∈ slotTiles (s.slot i), portIdle (s.tile n) = true) → (s.pers (s.slot i).pers).stateless = true →
    Answers (.spanDrainIdle i) s fun t =>
      ((s.slot i).enabled = false → (s.slot i).pendingEnable = false → (t.slot i).state = .disabled)
      ∧ ((s.slot i).enabled = true ∨ (s.slot i).pendingEnable = true →
        (t.slot i).state = .empty ∨ (s.dev.ready.spanPager = true ∧ (t.slot i).state = .waitGrant))
      ∧ (t.slot i).evicted = true ∧ (t.slot i).pendingEnable = false ∧ (t.slot i).hold = true ∧ heldBy t 2 i = 0
      ∧ t.evt.pend.getLsbD (112 + i) = true ∧ (∀ m, m ≠ i → t.slot m = s.slot m))
  ∧ (∀ (i : Nat) (s : State), inSlotState s i .draining = true → (s.pers (s.slot i).pers).homeSlot = i →
    Answers (.spanDrainTimeout i) s fun t =>
      t.slot i = { s.slot i with
        state := .resident, enabled := true, pendingEnable := false, busyRefused := true, idle := false, resExpired := false }
      ∧ (∀ m, m ≠ i → t.slot m = s.slot m)
      ∧ (∀ q, (s.queue q).pers ≠ 0xFFFF → (s.queue q).pers = (s.slot i).pers → t.queue q = { s.queue q with paused := false })
      ∧ (∀ q, (s.queue q).pers ≠ (s.slot i).pers → t.queue q = s.queue q)
      ∧ (∀ n ∈ slotTiles (s.slot i), t.tile n = { s.tile n with
        state := .on, fence := false, credits := (s.tile n).credits + (s.tile n).owed, owed := 0 })
      ∧ (∀ n, n ∉ slotTiles (s.slot i) → t.tile n = s.tile n)
      ∧ t.evt.pend = s.evt.pend ||| BitVec.twoPow 384 (112 + i))
  ∧ (∀ (i n : Nat) (s u : State), inSlotState s i .saving = true → hasPort s i = true → n < 6912 * tileCount (s.slot i) →
    u = (saveTiles (s.slot i).pers n 0 (slotTiles (s.slot i)) (startSave (s.slot i).pers s)).2 → u.dev.mode ≠ .hold →
    exec (.spanSaveFail ⟨i, n⟩) s = .next { saveFailed i
        (2 ^ 15 * (slotTiles (s.slot i)).getD (n / 6912) 0 + (13568 + n % 6912)) u with
      pending := s.pending, fuse := s.fuse })
  ∧ (∀ (i frame : Nat) (s : State), i < 64 → ∃ t, t = saveFailed i frame s
      ∧ (t.slot i).stateLost = true ∧ (t.slot i).errCode = 9 ∧ (t.slot i).errFrame = frame ∧ heldBy t 2 i = 0
      ∧ ((s.slot i).enabled = false → (s.slot i).pendingEnable = false → (t.slot i).state = .disabled)
      ∧ (t.pers (s.slot i).pers).stateValid = false ∧ (t.pers (s.slot i).pers).stateLost = true
      ∧ (t.pers (s.slot i).pers).blocked = true ∧ t.evt.pend.getLsbD (112 + i) = true)
  ∧ (∀ (i : Nat) (s : State), inSlotState s i .wiping = true → hasPort s i = true ∨ (s.slot i).nextFrame = 0 →
    Answers (.spanWipeDone i) s fun t =>
      ((s.slot i).enabled = false → (s.slot i).pendingEnable = false → (t.slot i).state = .disabled)
      ∧ ((s.slot i).enabled = true ∨ (s.slot i).pendingEnable = true →
        (t.slot i).state = .empty ∨ (s.dev.ready.spanPager = true ∧ (t.slot i).state = .waitGrant))
      ∧ (t.slot i).aborted = ((s.slot i).aborted || (s.slot i).wipeAbort) ∧ (t.slot i).hold = true ∧ heldBy t 2 i = 0
      ∧ ((s.slot i).wipeAbort = true → t.evt.pend.getLsbD (112 + i) = true)
      ∧ (∀ j n k, (slotTiles (s.slot i))[j]? = some n → k < 19712 →
        k + framesPerTile (s.slot i) * j < (s.slot i).nextFrame → readFrame t n k = 0))
  ∧ (∀ (i : Nat) (up : List (Nat × BitVec 72)) (s u : State), inSlotState s i .saving = true → hasPort s i = true →
    saveTiles (s.slot i).pers (6912 * tileCount (s.slot i)) 0 (slotTiles (s.slot i))
      (startSave (s.slot i).pers (upsetSlot i up s)) = (0, u) →
    u.dev.mode ≠ .hold → Answers (.spanSaveDone i up) s fun t =>
      (t.slot i).evicted = true ∧ heldBy t 2 i = 0 ∧ (t.pers (s.slot i).pers).stateValid = true
      ∧ (t.pers (s.slot i).pers).saveSeq = (s.pers (s.slot i).pers).saveSeq + 1
      ∧ (t.pers (s.slot i).pers).saveTick = s.now
      ∧ ((s.slot i).enabled = false → (s.slot i).pendingEnable = false → (t.slot i).state = .disabled)
      ∧ t.evt.pend.getLsbD (112 + i) = true ∧ (∀ m, m ≠ i → t.slot m = s.slot m))
  ∧ (∀ (i code : Nat) (up : List (Nat × BitVec 72)) (s u : State), inSlotState s i .saving = true → hasPort s i = true
      → code ≠ 0 →
    saveTiles (s.slot i).pers (6912 * tileCount (s.slot i)) 0 (slotTiles (s.slot i))
      (startSave (s.slot i).pers (upsetSlot i up s)) = (code, u) →
    u.dev.mode ≠ .hold → exec (.spanSaveDone i up) s = .next { saveFailed i
        (2 ^ 15 * (slotTiles (s.slot i)).getLastD 0 + 20479) u with pending := s.pending, fuse := s.fuse })
  ∧ (∀ (p j n : Nat) (s : State), (∀ e ∈ s.fab.words, e.2.flips = 0) →
    ∃ frames record, frames = (List.range 6912).flatMap (fun k => leBytes 80 (readFrame s n (13568 + k)).toNat)
      ∧ record = leBytes 4 (~~~ crcBytes (BitVec.allOnes 32) frames).toNat ++ leBytes 8 s.now ++ leBytes 2 p
        ++ leBytes 4 (s.pers p).saveSeq.toNat ++ leBytes 46 0
      ∧ frames.length + record.length = 553024
      ∧ saveTile p j n 6912 s = storeWrite (frames ++ record) ((s.pers p).stateAddr + 553024 * j)
        (blockParts ((s.pers p).stateAddr + 553024 * j) 553024) (noteCaptured p n s)
      ∧ noteCaptured p n s = { s with fab := { s.fab with captured := (noteCaptured p n s).fab.captured } })

/-- R148, R159, R160, R165, R180, R689: the span commands. 0x0501 installs the descriptor of the staged container, or gives the
lowest REASON that applies; 0x0503 binds a queue, paused unless its personality is resident, and unbinds it; 0x0504 acts or
latches by the slot's state; 0x0505 pins and asks for a load; 0x0506 drains; 0x0507 unpins; 0x0508 clears BLOCKED and
STATE_LOST and, when told, STATE_VALID; 0x050A removes. An ID or slot out of range, or an undefined slot, is BAD_ARG, an
unready pager NOT_READY, an operation under way WRONG_STATE.
It rests on choices of the model: log 52, 53, 145, 149 and 150. -/
def Obligations.SpanCommands : Prop :=
  (∀ (q : CmdCtx) (queue pers : Nat) (s : State), queue < 65536 → pers < 1024 → MayIssue q 0x0503 4 s →
    s.dev.ready.spanPager = true → (s.queue queue).state ≠ .disabled → (s.queue queue).destroying = false →
    (s.pers pers).installed = true → 1024 ≤ (s.queue queue).pers → (s.pers pers).demandDepth = 0 → (s.pers pers).pinned = false →
    (s.pers pers).asked = false → (s.pers pers).inDemand = false → (s.slot (s.pers pers).homeSlot).state = .disabled →
    Answers (.spanBind q queue pers) s fun t => Replied q 0x0503 stOk true [] s t
      ∧ t.queue queue = { s.queue queue with pers := pers, paused := !residentNow s pers }
      ∧ ∀ m, m ≠ queue → t.queue m = s.queue m)
  ∧ (∀ (q : CmdCtx) (queue : Nat) (s : State), queue < 65536 → MayIssue q 0x0503 4 s → s.dev.ready.spanPager = true →
    (s.queue queue).state ≠ .disabled → (s.queue queue).destroying = false → 1024 ≤ (s.queue queue).pers →
    Answers (.spanBind q queue 0xFFFF) s fun t => Replied q 0x0503 stOk true [] s t ∧ TakenFrom q.mbx 0x0503
      (s.modQueue queue fun x => { x with pers := 0xFFFF, paused := false }) t)
  ∧ (∀ (q : CmdCtx) (queue pers : Nat) (s : State), queue < 65536 → pers < 1024 → MayIssue q 0x0503 4 s →
    s.dev.ready.spanPager = true → (s.queue queue).state = .disabled ∨ (s.queue queue).destroying = true
      ∨ (s.pers pers).installed = false →
    Answers (.spanBind q queue pers) s fun t => Replied q 0x0503 stWrong true [] s t ∧ TakenFrom q.mbx 0x0503 s t)
  ∧ (∀ (q : CmdCtx) (i : Nat) (s : State), i < 64 → MayIssue q 0x0504 2 s → s.dev.ready.spanPager = true →
    s.spn.live = true → (s.slot i).defined = true → (s.slot i).state = .disabled → candidates s i = [] →
    Answers (.spanSlotEnable q i 1) s fun t => Replied q 0x0504 stOk true [1] s t ∧ (t.slot i).enabled = true
      ∧ (t.slot i).state = .empty ∧ ∀ m, m ≠ i → t.slot m = s.slot m)
  ∧ (∀ (q : CmdCtx) (i : Nat) (s : State), i < 64 → MayIssue q 0x0504 2 s → s.dev.ready.spanPager = true →
    s.spn.live = true → (s.slot i).defined = true → (s.slot i).state = .saving → (s.slot i).enabled = false →
    Answers (.spanSlotEnable q i 1) s fun t => Replied q 0x0504 stPending false [] s t ∧ Waits q 0x0504 i 1 s t
      ∧ TakenFrom q.mbx 0x0504 (s.modSlot i fun x => { x with pendingEnable := true }) t)
  ∧ (∀ (q : CmdCtx) (i : Nat) (s : State), i < 64 → MayIssue q 0x0504 2 s → s.dev.ready.spanPager = true →
    s.spn.live = true → (s.slot i).defined = true → (s.slot i).state = .empty → waiting 0x0504 i s = false →
    Answers (.spanSlotEnable q i 0) s fun t => Replied q 0x0504 stOk true [0] s t
      ∧ TakenFrom q.mbx 0x0504 (s.modSlot i fun x => { x with state := .disabled, enabled := false }) t)
  ∧ (∀ (q : CmdCtx) (i : Nat) (s : State), i < 64 → MayIssue q 0x0504 2 s → s.dev.ready.spanPager = true →
    s.spn.live = true → (s.slot i).defined = true → (s.slot i).state = .resident → waiting 0x0504 i s = false →
    Answers (.spanSlotEnable q i 0) s fun t => Replied q 0x0504 stPending false [] s t ∧ Waits q 0x0504 i 0 s t
      ∧ TakenFrom q.mbx 0x0504 (startDrain i (s.modSlot i fun x => { x with enabled := false })) t)
  ∧ (∀ (q : CmdCtx) (pers pin : Nat) (s : State), pers < 1024 → pin ≤ 1 → MayIssue q 0x0505 3 s → s.dev.ready.spanPager = true →
    (s.pers pers).blocked = false → (s.pers pers).installed = true → residentNow s pers = false →
    (s.slot (s.pers pers).homeSlot).state = .disabled →
    Answers (.spanLoad q pers pin) s fun t => Replied q 0x0505 stPending false [] s t ∧ Waits q 0x0505 pers 0 s t
      ∧ (t.pers pers).pinned = ((s.pers pers).pinned || decide (pin = 1)) ∧ (t.pers pers).asked = true
      ∧ (t.pers pers).inDemand = true ∧ ((s.pers pers).inDemand = false → (t.pers pers).age = s.noc.cycle)
      ∧ ∀ p, p ≠ pers → t.pers p = s.pers p)
  ∧ (∀ (q : CmdCtx) (pers : Nat) (s : State), pers < 1024 → MayIssue q 0x0505 3 s → s.dev.ready.spanPager = true →
    (s.pers pers).blocked = false → (s.pers pers).installed = true → residentNow s pers = true →
    (s.slot (s.pers pers).homeSlot).state = .resident →
    Answers (.spanLoad q pers 1) s fun t => RepliedBoth q 0x0505 stOk [] s t
      ∧ (t.pers pers).pinned = true ∧ ∀ p, p ≠ pers → t.pers p = s.pers p)
  ∧ (∀ (q : CmdCtx) (pers pin : Nat) (s : State), pers < 1024 → pin ≤ 1 → MayIssue q 0x0505 3 s →
    s.dev.ready.spanPager = true → (s.pers pers).blocked = true ∨ (s.pers pers).installed = false →
    Answers (.spanLoad q pers pin) s fun t => Replied q 0x0505 stWrong true [] s t ∧ TakenFrom q.mbx 0x0505 s t)
  ∧ (∀ (q : CmdCtx) (i : Nat) (s : State), i < 64 → MayIssue q 0x0506 1 s → s.dev.ready.spanPager = true →
    s.spn.live = true → (s.slot i).defined = true → (s.slot i).state = .resident ∨ (s.slot i).state = .starting →
    Answers (.spanEvict q i) s fun t => Replied q 0x0506 stPending false [] s t ∧ Waits q 0x0506 i 0 s t
      ∧ TakenFrom q.mbx 0x0506 (startDrain i s) t)
  ∧ (∀ (q : CmdCtx) (i : Nat) (s : State), i < 64 → MayIssue q 0x0506 1 s → s.dev.ready.spanPager = true →
    s.spn.live = true → (s.slot i).defined = true → (s.slot i).state = .draining ∨ (s.slot i).state = .saving →
    Answers (.spanEvict q i) s fun t => Replied q 0x0506 stPending false [] s t ∧ Waits q 0x0506 i 0 s t
      ∧ TakenFrom q.mbx 0x0506 s t)
  ∧ (∀ (q : CmdCtx) (i : Nat) (s : State), i < 64 → MayIssue q 0x0506 1 s → s.dev.ready.spanPager = true →
    s.spn.live = true → (s.slot i).defined = true → (s.slot i).state = .empty ∨ (s.slot i).state = .disabled →
    Answers (.spanEvict q i) s fun t => RepliedBoth q 0x0506 stOk [] s t ∧ TakenFrom q.mbx 0x0506 s t)
  ∧ (∀ (q : CmdCtx) (i : Nat) (s : State), i < 64 → MayIssue q 0x0506 1 s → s.dev.ready.spanPager = true →
    s.spn.live = true → (s.slot i).defined = true →
    (s.slot i).state = .waitGrant ∨ (s.slot i).state = .loading ∨ (s.slot i).state = .wiping →
    Answers (.spanEvict q i) s fun t => Replied q 0x0506 stWrong true [] s t ∧ TakenFrom q.mbx 0x0506 s t)
  ∧ (∀ (q : CmdCtx) (pers : Nat) (s : State), pers < 1024 → MayIssue q 0x0507 2 s → s.dev.ready.spanPager = true →
    (s.slot (s.pers pers).homeSlot).state = .disabled →
    Answers (.spanUnpin q pers) s fun t => Replied q 0x0507 stOk true [] s t
      ∧ (t.pers pers).pinned = false ∧ ∀ p, p ≠ pers → t.pers p = s.pers p)
  ∧ (∀ (q : CmdCtx) (pers discard : Nat) (s : State), pers < 1024 → discard ≤ 1 → MayIssue q 0x0508 3 s →
    s.dev.ready.spanPager = true → operatedIn s pers = none → (s.slot (s.pers pers).homeSlot).state = .disabled →
    Answers (.spanPersReset q pers discard) s fun t => Replied q 0x0508 stOk true [] s t
      ∧ (t.pers pers).blocked = false ∧ (t.pers pers).stateLost = false
      ∧ (t.pers pers).stateValid = ((s.pers pers).stateValid && decide (discard = 0)) ∧ ∀ p, p ≠ pers → t.pers p = s.pers p)
  ∧ (∀ (q : CmdCtx) (pers : Nat) (s : State), pers < 1024 → MayIssue q 0x050A 2 s → s.dev.ready.spanPager = true →
    operatedIn s pers = none → waiting 0x0505 pers s = false → (s.slot (s.pers pers).homeSlot).state = .disabled →
    Answers (.spanPersRemove q pers) s fun t => Replied q 0x050A stOk true [] s t
      ∧ TakenFrom q.mbx 0x050A (s.modPers pers fun _ => {}) t)
  ∧ (∀ (q : CmdCtx) (pers maxRes depth sa sl ia sta : Nat) (st : Staged) (h : Header) (x : SpanHeader) (e : SectionEntry)
    (s : State), pers < 1024 → maxRes < 65536 → depth < 65536 → sa < 2 ^ 64 → sl < 2 ^ 32 → ia < 2 ^ 64 → sta < 2 ^ 64 →
    MayIssue q 0x0501 40 s → s.dev.ready.spanPager = true → operatedIn s pers = none →
    RangePlain (mbxClass q.mbx) true false sa sl s → h = stagedHeader s sa st →
    headerCode 2 s h = 0 → h.totalLen ≤ sl → st.digestsOk = true → stagedSpan s sa h = some (x, e) →
    installReason s pers x ia e.length sta = 0 → (s.slot x.homeSlot).state = .disabled →
    Answers (.spanPersInstall q pers maxRes depth sa sl ia sta st) s fun t => RepliedBoth q 0x0501 stOk [0] s t
      ∧ (t.pers pers).installed = true ∧ (t.pers pers).homeSlot = x.homeSlot ∧ (t.pers pers).stateless = x.stateless
      ∧ (t.pers pers).pinned = false ∧ (t.pers pers).blocked = false ∧ (t.pers pers).stateValid = false
      ∧ (t.pers pers).stateLost = false ∧ (t.pers pers).spanCredits = x.spanCredits ∧ (t.pers pers).maxRes = maxRes
      ∧ (t.pers pers).demandDepth = depth ∧ (t.pers pers).imageAddr = ia ∧ (t.pers pers).stateAddr = sta
      ∧ (t.pers pers).startOrder = x.startOrder ∧ (t.pers pers).pllMask = x.pllMask
      ∧ (t.pers pers).interfaceId = x.interfaceId ∧ (t.pers pers).imageLen = e.length ∧ ∀ p, p ≠ pers → t.pers p = s.pers p)
  ∧ (∀ (q : CmdCtx) (pers maxRes depth sa sl ia sta why : Nat) (st : Staged) (x : SpanHeader) (e : SectionEntry) (s : State),
    pers < 1024 → maxRes < 65536 → depth < 65536 → sa < 2 ^ 64 → sl < 2 ^ 32 → ia < 2 ^ 64 → sta < 2 ^ 64 →
    MayIssue q 0x0501 40 s → s.spn.live = true → stagedSpan s sa (stagedHeader s sa st) = some (x, e) →
    why = installReason s pers x ia e.length sta → why ≠ 0 →
    Answers (.spanPersInstall q pers maxRes depth sa sl ia sta st) s fun t =>
      Replied q 0x0501 stBadArg true (leBytes 1 why) s t ∧ TakenFrom q.mbx 0x0501 s t)
  ∧ (∀ (q : CmdCtx) (c : Instr) (op len pers x : Nat) (s : State), pers < 65536 → x ≤ 1 → MayIssue q op len s →
    (c, op, len) ∈ [(Instr.spanPersGet q pers, 0x0502, 2), (.spanLoad q pers x, 0x0505, 3), (.spanUnpin q pers, 0x0507, 2),
      (.spanPersReset q pers x, 0x0508, 3), (.spanPersRemove q pers, 0x050A, 2)] →
    (1024 ≤ pers → Answers c s fun t => Replied q op stBadArg true [] s t ∧ TakenFrom q.mbx op s t)
    ∧ (pers < 1024 → s.dev.ready.spanPager = false →
      Answers c s fun t => Replied q op stNotReady true [] s t ∧ TakenFrom q.mbx op s t)
    ∧ (pers < 1024 → s.dev.ready.spanPager = true → op = 0x0508 ∨ op = 0x050A → operatedIn s pers ≠ none →
      Answers c s fun t => Replied q op stWrong true [] s t ∧ TakenFrom q.mbx op s t))
  ∧ (∀ (q : CmdCtx) (c : Instr) (op len i x : Nat) (s : State), i < 256 → x ≤ 1 → MayIssue q op len s →
    (c, op, len) ∈ [(Instr.spanSlotEnable q i x, 0x0504, 2), (.spanEvict q i, 0x0506, 1), (.spanSlotStatus q i, 0x0509, 1)] →
    (64 ≤ i ∨ (s.spn.live = true ∧ (s.slot i).defined = false) →
      Answers c s fun t => Replied q op stBadArg true [] s t ∧ TakenFrom q.mbx op s t)
    ∧ (i < 64 → s.spn.live = false ∨ ((s.slot i).defined = true ∧ s.dev.ready.spanPager = false) →
      Answers c s fun t => Replied q op stNotReady true [] s t ∧ TakenFrom q.mbx op s t))

/-! ### Hardware queues (chapter 7) -/

/-- R264: the checks before those of an ACTIVE queue, in their order. R264, R265, R267, R270, R280: a push that reaches
its half. A refused one changes no queue; at CAPACITY the outcome is FULL, counted, with FULL_SEEN and the group's cause;
with no page it is FULL with cause NO_PAGE too; otherwise the item is written to the unit of TAIL, on the tail page in
scratch, whose SEQ follows it, or on the lowest free page, and TAIL rises by one. `pumpQueues` is what the queue manager
then does on its own (R281, R282, R285); `u` is the state once the entry has been looked up, which changes nothing where
the cache holds it (R284).
It rests on choices of the model: log 57 and 58. -/
def Obligations.QueuePushes : Prop :=
  (∀ (s : State) (q cls lo : Nat), queueRefusal s q cls lo =
    if s.dev.ready.queues = false then 3 else if (s.queue q).state = .disabled then 1
    else if ¬ (cls < 4 ∧ bit (s.queue q).access (lo + cls) = true) then 2
    else if (s.queue q).state = .faulted then 4 else 0)
  ∧ (∀ (r : Req) (half : Nat) (s : State), s.dev.ready.queues = true → halfOf (r.addr % 65536) ≠ half →
    exec (.queuePush r half) s = .next (pumpQueues (answer ⟨r.src, r.tag, 1, 0, []⟩ s)))
  ∧ (∀ (r : Req) (half q : Nat) (s : State), q = r.addr % 65536 → halfOf q = half → queueRefusal s q r.src.cls 0 ≠ 0 →
    exec (.queuePush r half) s = .next (pumpQueues (answer ⟨r.src, r.tag, queueRefusal s q r.src.cls 0, 0, []⟩ s)))
  ∧ (∀ (r : Req) (half q : Nat) (s : State), q = r.addr % 65536 → halfOf q = half → queueRefusal s q r.src.cls 0 = 0 →
    (s.queue q).capacity ≤ depthOf (s.queue q) → exec (.queuePush r half) s = .next (pumpQueues (answer
      ⟨r.src, r.tag, 0, 1, []⟩ (queueCause q 1 (queueCount q 2 (s.modQueue q fun x => { x with fullSeen := true }))))))
  ∧ (∀ (r : Req) (half q : Nat) (e : PageEntry) (s u : State), q = r.addr % 65536 → halfOf q = half →
    queueRefusal s q r.src.cls 0 = 0 → depthOf (s.queue q) < (s.queue q).capacity →
    lookup (vpage (s.queue q) (s.queue q).tail) s = (e, u) →
    e.whr = .dram ∨ e.whr = .moving ∨ (e.whr = .none ∧ freePage u = none) →
    exec (.queuePush r half) s = .next (pumpQueues (answer ⟨r.src, r.tag, 0, 1, []⟩ (queueCause q 5
      (queueCause q 1 (queueCount q 2 (u.modQueue q fun x => { x with fullSeen := true })))))))
  ∧ (∀ (r : Req) (half q v : Nat) (e : PageEntry) (s u : State), q = r.addr % 65536 → halfOf q = half →
    queueRefusal s q r.src.cls 0 = 0 → depthOf (s.queue q) < (s.queue q).capacity →
    v = vpage (s.queue q) (s.queue q).tail → lookup v s = (e, u) → e.whr = .scratch →
    exec (.queuePush r half) s = .next (pumpQueues (answer ⟨r.src, r.tag, 0, 0, []⟩
      (storeItem q e.spage (BitVec.ofNat 256 (ofLe (r.data.take 32)))
        (setEntry v { e with seq := (s.queue q).tail / 128 } u)))))
  ∧ (∀ (r : Req) (half q v p : Nat) (e : PageEntry) (s u : State), q = r.addr % 65536 → halfOf q = half →
    queueRefusal s q r.src.cls 0 = 0 → depthOf (s.queue q) < (s.queue q).capacity →
    v = vpage (s.queue q) (s.queue q).tail → lookup v s = (e, u) → e.whr = .none → freePage u = some p →
    exec (.queuePush r half) s = .next (pumpQueues (answer ⟨r.src, r.tag, 0, 0, []⟩
      (storeItem q p (BitVec.ofNat 256 (ofLe (r.data.take 32)))
        (setEntry v ⟨.scratch, false, q, p, (s.queue q).tail / 128⟩ (usePage p true u))))))
  ∧ (∀ (v : Nat) (s : State), inCache s v = true ∨ s.dev.ready.qspill = false → lookup v s = (entryOf s v, s))
  ∧ (∀ (q p : Nat) (item : BitVec 256) (s : State), storeItem q p item s = queueChanged q (queueCount q 0
      ((storeUnit (128 * p + (s.queue q).tail % 128) item.toNat true s).modQueue q fun x => { x with
        tail := (x.tail + 1) % 2 ^ 32, fired := x.fired && decide (depthOf x ≠ 0) })))
  ∧ (∀ (s : State) (p : Nat), freePage s = some p → s.qm.banks.getLsbD (p / 64) = true
    ∧ s.qm.returning.getLsbD (p / 64) = false ∧ tget false s.qm.used p = false)

/-- R160, R264, R268, R269, R270, R282: a pop that reaches its half. EMPTY returns the last value, or zero with EMPTY_ZERO,
sets UNDERRUN and is counted, and changes neither HEAD nor LAST_VALUE; PAUSED changes nothing; the head item is removed and
delivered while its page is in scratch, and becomes LAST_VALUE; a damaged one is removed and answered POISON with LAST_VALUE
unchanged (R354); with the page elsewhere, or a pop already held, the pop is held and counted. -/
def Obligations.QueuePops : Prop :=
  (∀ (r : Req) (half q : Nat) (s : State), q = r.addr % 65536 → halfOf q = half → queueRefusal s q r.src.cls 4 ≠ 0 →
    exec (.queuePop r half) s = .next (pumpQueues (answer ⟨r.src, r.tag, queueRefusal s q r.src.cls 4, 0, []⟩ s)))
  ∧ (∀ (r : Req) (half q : Nat) (s : State), q = r.addr % 65536 → halfOf q = half → queueRefusal s q r.src.cls 4 = 0 →
    (s.queue q).paused = true → exec (.queuePop r half) s = .next (pumpQueues (answer ⟨r.src, r.tag, 0, 2, []⟩ s)))
  ∧ (∀ (r : Req) (half q : Nat) (s : State), q = r.addr % 65536 → halfOf q = half → queueRefusal s q r.src.cls 4 = 0 →
    (s.queue q).paused = false → depthOf (s.queue q) = 0 → exec (.queuePop r half) s = .next (pumpQueues (answer
      ⟨r.src, r.tag, 0, 1, leBytes 32 (if s.qm.emptyZero then 0 else (s.queue q).lastValue.toNat)⟩
      (queueCause q 2 (queueCount q 3 (s.modQueue q fun x => { x with underrun := true }))))))
  ∧ (∀ (r : Req) (half q : Nat) (e : PageEntry) (s u : State), q = r.addr % 65536 → halfOf q = half →
    queueRefusal s q r.src.cls 4 = 0 → (s.queue q).paused = false → depthOf (s.queue q) ≠ 0 →
    lookup (vpage (s.queue q) (s.queue q).head) s = (e, u) → e.whr ≠ .scratch ∨ (s.queue q).held ≠ [] →
    exec (.queuePop r half) s = .next (pumpQueues (queueCount q 6 (u.modQueue q fun x =>
      { x with held := x.held ++ [.noc r.src r.tag] }))))
  ∧ (∀ (r : Req) (half q d : Nat) (e : PageEntry) (s u w : State), q = r.addr % 65536 → halfOf q = half →
    queueRefusal s q r.src.cls 4 = 0 → (s.queue q).paused = false → depthOf (s.queue q) ≠ 0 → (s.queue q).held = [] →
    lookup (vpage (s.queue q) (s.queue q).head) s = (e, u) → e.whr = .scratch →
    checkUnit (128 * e.spage + (s.queue q).head % 128) 0 u = (some d, w) → d < 2 ^ 256 →
    exec (.queuePop r half) s = .next (pumpQueues (queueChanged q (answer ⟨r.src, r.tag, 0, 0, leBytes 32 d⟩
      ((releasePage q (vpage (s.queue q) (s.queue q).head) (queueCount q 1 (w.modQueue q fun x => { x with
        head := (x.head + 1) % 2 ^ 32, fired := false }))).modQueue q fun x => { x with lastValue := BitVec.ofNat 256 d })))))
  ∧ (∀ (r : Req) (half q : Nat) (e : PageEntry) (s u w : State), q = r.addr % 65536 → halfOf q = half →
    queueRefusal s q r.src.cls 4 = 0 → (s.queue q).paused = false → depthOf (s.queue q) ≠ 0 → (s.queue q).held = [] →
    lookup (vpage (s.queue q) (s.queue q).head) s = (e, u) → e.whr = .scratch →
    checkUnit (128 * e.spage + (s.queue q).head % 128) 0 u = (none, w) →
    exec (.queuePop r half) s = .next (pumpQueues (queueChanged q (answer ⟨r.src, r.tag, 5, 0, []⟩ (queueCause q 4
      (bankCause (e.spage / 64) 2 (releasePage q (vpage (s.queue q) (s.queue q).head) (queueCount q 1
        (w.modQueue q fun x => { x with head := (x.head + 1) % 2 ^ 32, fired := false })))))))))

/-- R271, R286, R289, R295, R297, R298: timers, causes and counters. A stale timer that reaches STALE_US sets STALE and
its group's cause once; setting STALE_EN again arms the timers of non-empty ACTIVE queues; CLR_COUNTS clears a group; a
cause keeps the first and raises the group's event where enabled; a counter saturates at 48 bits; a fault answers held
pops FROZEN. R279, R281, R282, R285, R286, R287, R301: pages. A spilled page leaves scratch for its home frame, with the
data read when the spill began, and is counted; a refused spill faults its queue, and the page stays there and in a queue
that is FAULTED already; one that a reset or destroy overtook is freed; a fetched page comes back and serves the held
pops, or faults its queue; a copied page keeps its units, moved; bank 0 is granted once SCRATCH sets. What is not due is
not done.
It rests on choices of the model: log 60, 61 and 151. -/
def Obligations.QueueSignals : Prop :=
  (∀ (q : Nat) (s : State), staleRuns s (s.queue q) = true → exec (.queueStaleTimer q) s = .next
    (queueCause q 0 (s.modQueue q fun x => { x with stale := true, fired := true })))
  ∧ (∀ s : State, exec (.qmStaleEnWrite false) s = .next { s with qm := { s.qm with staleEn := false } })
  ∧ (∀ s : State, s.qm.staleEn = false → Answers (.qmStaleEnWrite true) s fun t =>
    t = { s with qm := { s.qm with queues := t.qm.queues, staleEn := true } }
    ∧ ∀ q, t.queue q = if (s.queue q).state = .active ∧ depthOf (s.queue q) ≠ 0 then { s.queue q with fired := false }
      else s.queue q)
  ∧ (∀ (g : Nat) (s : State), g < 32 → exec (.qmGrpClrCounts g) s = .next (s.modQgroup g fun x => { x with counters := [] }))
  ∧ (∀ (q b : Nat) (s : State), b < 7 → q < 65536 → ∀ g, g = q / 2048 → ∃ t, t = queueCause q b s
    ∧ t.qgroup g = { s.qgroup g with
      causes := (s.qgroup g).causes ||| BitVec.twoPow 7 b,
      firstCause := if (s.qgroup g).causes = 0 then b else (s.qgroup g).firstCause,
      firstQ := if (s.qgroup g).causes = 0 then q % 2048 else (s.qgroup g).firstQ }
    ∧ t.evt.pend = s.evt.pend ||| (if (s.qgroup g).en.getLsbD b then BitVec.twoPow 384 (224 + g) else 0)
    ∧ t.qm.queues = s.qm.queues)
  ∧ (∀ (q k : Nat) (s : State), tget 0 ((queueCount q k s).qgroup (q / 2048)).counters k
      = satAdd 48 (tget 0 (s.qgroup (q / 2048)).counters k) 1
    ∧ ∀ j, j ≠ k → tget 0 ((queueCount q k s).qgroup (q / 2048)).counters j = tget 0 (s.qgroup (q / 2048)).counters j)
  ∧ (∀ (q : Nat) (s : State), (s.queue q).state = .active → 1024 ≤ (s.queue q).pers → (s.queue q).held = [] →
    faultQueue q s = queueCause q 3 (s.modQueue q fun x => { x with state := .faulted }))
  ∧ (∀ (q : Nat) (s : State), (s.queue q).state ≠ .active → faultQueue q s = s)
  ∧ (∀ (v : Nat) (x : Spill) (e : PageEntry) (s : State), s.dev.ready.queues = true →
    s.qm.spills.find? (fun y => y.page = v) = some x → e = s.page v → s.qm.doomed.contains v = false →
    (s.queue e.queue).state ≠ .faulted →
    exec (.queueSpillDone v 0) s = .next (pumpQueues (queueCount e.queue 4 (setEntry v { e with whr := .dram, spage := 0 }
      (usePage e.spage false (pokeLines (s.qm.storeBase + 4096 * v) (pairLines x.data) { s with qm := { s.qm with
        spills := s.qm.spills.filter (·.page ≠ v), doomed := s.qm.doomed.filter (· ≠ v) } }))))))
  ∧ (∀ (v resp : Nat) (x : Spill) (e : PageEntry) (s : State), s.dev.ready.queues = true →
    s.qm.spills.find? (fun y => y.page = v) = some x → e = s.page v → s.qm.doomed.contains v = false → resp ≠ 0 →
    (s.queue e.queue).state ≠ .faulted →
    exec (.queueSpillDone v resp) s = .next (pumpQueues (faultQueue e.queue (setEntry v { e with whr := .scratch }
      { s with qm := { s.qm with
        spills := s.qm.spills.filter (·.page ≠ v), doomed := s.qm.doomed.filter (· ≠ v) } }))))
  ∧ (∀ (v resp : Nat) (x : Spill) (e : PageEntry) (s : State), s.dev.ready.queues = true →
    s.qm.spills.find? (fun y => y.page = v) = some x → e = s.page v → s.qm.doomed.contains v = false →
    (s.queue e.queue).state = .faulted →
    exec (.queueSpillDone v resp) s = .next (pumpQueues (setEntry v { e with whr := .scratch }
      { s with qm := { s.qm with
        spills := s.qm.spills.filter (·.page ≠ v), doomed := s.qm.doomed.filter (· ≠ v) } })))
  ∧ (∀ (v resp : Nat) (x : Spill) (s : State), s.dev.ready.queues = true →
    s.qm.spills.find? (fun y => y.page = v) = some x → s.qm.doomed.contains v = true →
    exec (.queueSpillDone v resp) s = .next (pumpQueues (clearEntry v (usePage (s.page v).spage false
      { s with qm := { s.qm with
        spills := s.qm.spills.filter (·.page ≠ v), doomed := s.qm.doomed.filter (· ≠ v) } }))))
  ∧ (∀ (v p q : Nat) (s t : State), s.dev.ready.queues = true → s.qm.fetches = [(v, p)] → q = (s.page v).queue →
    (s.queue q).state = .active → (s.page v).seq = ((s.queue q).head / 128 + pageAhead (s.queue q) v) % 2 ^ 25 →
    t = queueCount q 5 (setEntry v ⟨.scratch, false, q, p, (s.page v).seq⟩ (fillPage v p
      { s with qm := { s.qm with fetches := [] } })) →
    exec (.queuePrefetchDone v 0) s = .next (pumpQueues (serveHeld q (t.queue q).held t)))
  ∧ (∀ (v p resp : Nat) (s : State), s.dev.ready.queues = true → s.qm.fetches = [(v, p)] →
    (s.queue (s.page v).queue).state = .active →
    resp ≠ 0 ∨ (s.page v).seq ≠ ((s.queue (s.page v).queue).head / 128 + pageAhead (s.queue (s.page v).queue) v) % 2 ^ 25 →
    exec (.queuePrefetchDone v resp) s = .next (pumpQueues (faultQueue (s.page v).queue (usePage p false
      { s with qm := { s.qm with fetches := [] } }))))
  ∧ (∀ (v p : Nat) (s : State), s.dev.ready.queues = true → s.qm.copies = [(v, p)] →
    exec (.qmPageCopyDone v) s = .next (pumpQueues (copyDone v p s)))
  ∧ (∀ (v p j : Nat) (s : State), p ≠ (s.page v).spage → j < 128 →
    unitAt (copyDone v p s) (128 * p + j) = unitAt s (128 * (s.page v).spage + j))
  ∧ (∀ s : State, s.dev.ready.scratch = true → s.spd.autoGranted = false → exec .qmAutoGrantBank0 s = .next
    (ownerWrite 0 3 0 true true { s with spd := { s.spd with autoGranted := true } }))
  ∧ (∀ s : State, pagesLeaving s = [] → (∀ e ∈ s.qm.queues, duePages s (s.queue e.1) = []) →
    s.qm.spilling = false → s.qm.spillLow ≤ freeCount s →
    (∀ e ∈ s.qm.queues, e.2.destroying = false ∧ e.2.resetting = false) → pumpQueues s = s)

/-- R274, R275, R276, R277: the doorbells. A push doorbell starts the read of its source; the read's answer applies the push
for class 0, or sets the group's DB_ERR; a pop doorbell pops and its record is written in two halves; the second answer ends
it. At most 64 operations of a half are in flight; a doorbell that finds no room, or posted writes before it not answered,
waits in the host port.
It rests on choices of the model: log 62 and 63. -/
def Obligations.Doorbells : Prop :=
  (∀ (q hi : Nat) (s : State), s.dev.ready.queues = true → q < 65536 → hi < 2 ^ 32 → s.qm.bells = [] → postedBefore s = [] →
    doorbellRoom s q = true → exec (.doorbellPush q hi) s = .next (pumpQueues { s with
      qm := { s.qm with doorbells := s.qm.doorbells ++ [⟨q, true, hi * 2 ^ 32 + tget 0 s.qm.pushLo q, [], [], false⟩] } }))
  ∧ (∀ (q hi : Nat) (s : State), s.dev.ready.queues = true → q < 65536 → hi < 2 ^ 32 → s.qm.bells = [] →
    postedBefore s ≠ [] ∨ doorbellRoom s q = false →
    exec (.doorbellPush q hi) s = .next (pumpQueues { s with
      qm := { s.qm with bells := [⟨q, true, hi * 2 ^ 32 + tget 0 s.qm.pushLo q, postedBefore s⟩] } })
    ∧ exec (.doorbellPop q hi) s = .next (pumpQueues { s with
      qm := { s.qm with bells := [⟨q, false, hi * 2 ^ 32 + tget 0 s.qm.popLo q, postedBefore s⟩] } }))
  ∧ (∀ (q a : Nat) (s : State), s.dev.ready.queues = true → q < 65536 → s.qm.doorbells = [] → doorbellRoom s q = true →
    ∀ g, s.qm.bells = [⟨q, true, a, [g]⟩] → postedAnswered g s = pumpQueues { s with
      qm := { s.qm with bells := [], doorbells := [⟨q, true, a, [], [], false⟩] } })
  ∧ (∀ (q : Nat) (s : State), (∀ e ∈ s.qm.queues, e.2.held = []) → (doorbellRoom s q = true ↔
    (s.qm.doorbells.filter fun d => d.queue / 32768 = q / 32768).length < 64))
  ∧ (∀ (q resp a code : Nat) (item : BitVec 256) (data : List Byte) (s u : State),
    s.qm.doorbells = [⟨q, true, a, [], [], false⟩] → s.qm.bells = [] →
    moverRead a 32 (resp, leBytes 32 item.toNat) { s with qm := { s.qm with doorbells := [] } } = ((code, data), u) →
    code ≠ 0 → exec (.doorbellReadResponse q resp item) s = .next { pumpQueues (queueCause q 6 u) with
      pending := s.pending, fuse := s.fuse })
  ∧ (∀ (q resp a : Nat) (item : BitVec 256) (data : List Byte) (s u : State),
    s.qm.doorbells = [⟨q, true, a, [], [], false⟩] → s.qm.bells = [] →
    moverRead a 32 (resp, leBytes 32 item.toNat) { s with qm := { s.qm with doorbells := [] } } = ((0, data), u) →
    u.dev.ready.queues = true → queueRefusal u q 0 0 = 0 →
    exec (.doorbellReadResponse q resp item) s = .next { pumpQueues
      (pushActive q (BitVec.ofNat 256 (ofLe data)) u).2 with pending := s.pending, fuse := s.fuse })
  ∧ (∀ (q hi : Nat) (s : State), s.dev.ready.queues = true → q < 65536 → hi < 2 ^ 32 → s.qm.bells = [] → postedBefore s = [] →
    doorbellRoom s q = true → s.qm.doorbells = [] → exec (.doorbellPop q hi) s = .next (pumpQueues
      (popQueue (.doorbell (hi * 2 ^ 32 + tget 0 s.qm.popLo q)) q 0 s)))
  ∧ (∀ (q dest code outcome index : Nat) (item : BitVec 256) (s : State), code < 8 → outcome < 3 →
    answerPop (.doorbell dest) q code outcome index item s = { s with qm := { s.qm with doorbells := s.qm.doorbells ++
      [⟨q, false, dest, leBytes 32 (if code = 0 ∧ outcome < 2 then item.toNat else 0),
        leBytes 1 (if code = 0 then outcome else 3) ++ leBytes 1 code ++ [0, 0x80] ++ leBytes 4 index ++ leBytes 24 0,
        false⟩] } })
  ∧ (∀ (q resp code : Nat) (d : DoorbellOp) (s u : State), s.qm.doorbells = [d] → d.queue = q → d.push = false → d.first ≠ [] →
    d.firstDone = false → moverWrite d.addr d.first resp s = (code, u) →
    Answers (.doorbellRecordWritten q resp) s fun t => t.qm.doorbells = [{ d with firstDone := true }]
      ∧ (code = 0 → t = { u with
        qm := { u.qm with doorbells := [{ d with firstDone := true }] }, pending := s.pending, fuse := s.fuse })
      ∧ (code ≠ 0 → (t.qgroup (q / 2048)).causes = (u.qgroup (q / 2048)).causes ||| BitVec.twoPow 7 6))
  ∧ (∀ (q resp code : Nat) (d : DoorbellOp) (s u w : State), s.qm.doorbells = [d] → d.queue = q → d.push = false →
    d.first ≠ [] → d.firstDone = true → s.qm.bells = [] → moverWrite (d.addr + 32) d.second resp s = (code, u) →
    w = (if code = 0 then u else queueCause q 6 u) →
    exec (.doorbellRecordWritten q resp) s = .next { pumpQueues { w with qm := { w.qm with doorbells := [] } } with
      pending := s.pending, fuse := s.fuse })

/-- R301: the queue commands. 0x0601 creates an ACTIVE, empty queue or answers the lowest REASON; 0x0602 and 0x0605 discard
every item and wait for the spills under way; 0x0604 changes the fields it names; 0x0606 and 0x0607 push and pop as class 0,
a pop that is held waiting. A bad field is BAD_ARG, QUEUES clear NOT_READY, a DISABLED queue WRONG_STATE; 0x0603 and 0x0608
refuse a selection or group out of range.
It rests on choices of the model: log 56. -/
def Obligations.QueueCommands : Prop :=
  (∀ (q : CmdCtx) (queue access prefetch capacity base count stale flags : Nat) (s : State), queue < 65536 → access < 256 →
    prefetch < 256 → capacity < 2 ^ 32 → base < 2 ^ 32 → count < 2 ^ 32 → stale < 2 ^ 32 → flags < 256 →
    MayIssue q 0x0601 21 s → createReason s queue prefetch capacity base count stale = 0 → s.dev.ready.queues = true →
    (s.queue queue).state = .disabled → (s.queue queue).destroying = false →
    Answers (.queueCreate q queue access prefetch capacity base count stale flags) s fun t =>
      Replied q 0x0601 stOk true [0] s t ∧ TakenFrom q.mbx 0x0601 (s.modQueue queue fun _ =>
        { state := .active, spillEn := bit flags 0, access, prefetch, capacity, pageBase := base, pageCount := count,
          staleUs := stale }) t)
  ∧ (∀ (q : CmdCtx) (queue access prefetch capacity base count stale flags : Nat) (s : State), queue < 65536 → access < 256 →
    prefetch < 256 → capacity < 2 ^ 32 → base < 2 ^ 32 → count < 2 ^ 32 → stale < 2 ^ 32 → flags < 256 →
    MayIssue q 0x0601 21 s → createReason s queue prefetch capacity base count stale ≠ 0 →
    Answers (.queueCreate q queue access prefetch capacity base count stale flags) s fun t => Replied q 0x0601 stBadArg true
        (leBytes 1 (createReason s queue prefetch capacity base count stale)) s t ∧ TakenFrom q.mbx 0x0601 s t)
  ∧ (∀ (q : CmdCtx) (queue : Nat) (s : State), queue < 65536 → MayIssue q 0x0602 2 s → s.dev.ready.queues = true →
    (s.queue queue).state ≠ .disabled → (s.queue queue).pers = 0xFFFF → (s.queue queue).held = [] →
    (∀ e ∈ s.qm.map, e.2.queue ≠ queue) → ∃ t, exec (.queueDestroy q queue) s = .next (pumpQueues t)
      ∧ Replied q 0x0602 stPending false [] s t ∧ Waits q 0x0602 queue 0 s t ∧ TakenFrom q.mbx 0x0602
        (s.modQueue queue fun x =>
          { destroying := true, resetting := x.resetting, pageBase := x.pageBase, pageCount := x.pageCount }) t)
  ∧ (∀ (q : CmdCtx) (queue access prefetch stale flags : Nat) (s : State), queue < 65536 → access < 256 → 1 ≤ prefetch →
    prefetch ≤ 15 → stale ≤ 1000000 → flags < 256 → MayIssue q 0x0604 9 s → s.dev.ready.queues = true →
    (s.queue queue).state ≠ .disabled → ∃ t, exec (.queueSet q queue access prefetch stale flags) s = .next (pumpQueues t)
      ∧ Replied q 0x0604 stOk true [] s t ∧ TakenFrom q.mbx 0x0604 (s.modQueue queue fun x => { x with
        access, prefetch, staleUs := stale, spillEn := bit flags 0 }) t)
  ∧ (∀ (q : CmdCtx) (queue : Nat) (s : State), queue < 65536 → MayIssue q 0x0605 2 s → s.dev.ready.queues = true →
    (s.queue queue).state ≠ .disabled → (s.queue queue).held = [] → 1024 ≤ (s.queue queue).pers →
    (∀ e ∈ s.qm.map, e.2.queue ≠ queue) → ∃ t, exec (.queueReset q queue) s = .next (pumpQueues t)
      ∧ Replied q 0x0605 stPending false [] s t ∧ Waits q 0x0605 queue 0 s t ∧ TakenFrom q.mbx 0x0605
        (s.modQueue queue fun x => { x with
          state := .active, head := x.tail, underrun := false, fullSeen := false, stale := false, lastValue := 0,
          fired := false, resetting := true }) t)
  ∧ (∀ (s : State) (q : Nat) (x : Queue), s.qm.queues = [(q, x)] → (∀ v ∈ s.qm.doomed, (s.page v).queue ≠ q) →
    (x.destroying = true → x.resetting = false → endDestroys s = finish 0x0602 q stOk [] (s.modQueue q fun _ => {}))
    ∧ (x.resetting = true → x.destroying = false →
      endDestroys s = finish 0x0605 q stOk [] (s.modQueue q fun y => { y with resetting := false })))
  ∧ (∀ (q : CmdCtx) (queue : Nat) (item : BitVec 256) (s : State), queue < 65536 → MayIssue q 0x0606 40 s →
    s.dev.ready.queues = true → queueRefusal s queue 0 0 = 0 → (s.queue queue).capacity ≤ depthOf (s.queue queue) →
    ∃ t, exec (.queuePushCmd q queue item) s = .next (pumpQueues t) ∧ Replied q 0x0606 stOk true [1] s t
      ∧ (t.queue queue) = { s.queue queue with fullSeen := true } ∧ ∀ m, m ≠ queue → t.queue m = s.queue m)
  ∧ (∀ (q : CmdCtx) (queue : Nat) (e : PageEntry) (item : BitVec 256) (s u : State), queue < 65536 → MayIssue q 0x0606 40 s →
    s.dev.ready.queues = true → queueRefusal s queue 0 0 = 0 → depthOf (s.queue queue) < (s.queue queue).capacity →
    lookup (vpage (s.queue queue) (s.queue queue).tail) s = (e, u) → e.whr = .scratch →
    ∃ t, exec (.queuePushCmd q queue item) s = .next (pumpQueues t) ∧ Replied q 0x0606 stOk true [0] s t
      ∧ (t.queue queue).tail = ((s.queue queue).tail + 1) % 2 ^ 32 ∧ (t.queue queue).head = (s.queue queue).head)
  ∧ (∀ (q : CmdCtx) (queue code : Nat) (item : BitVec 256) (s : State), queue < 65536 → MayIssue q 0x0606 40 s →
    s.dev.ready.queues = true → code = queueRefusal s queue 0 0 → code ≠ 0 →
    ∃ t, exec (.queuePushCmd q queue item) s = .next (pumpQueues t) ∧ TakenFrom q.mbx 0x0606 s t
      ∧ Replied q 0x0606 (if code = 1 then stWrong else if code = 2 then stRights else stFrozen) true [] s t)
  ∧ (∀ (q : CmdCtx) (queue : Nat) (s : State), queue < 65536 → MayIssue q 0x0607 2 s → s.dev.ready.queues = true →
    queueRefusal s queue 0 4 = 0 → (s.queue queue).paused = true →
    ∃ t, exec (.queuePopCmd q queue) s = .next (pumpQueues t) ∧ Replied q 0x0607 stOk true (leBytes 40 2) s t
      ∧ TakenFrom q.mbx 0x0607 s t)
  ∧ (∀ (q : CmdCtx) (queue : Nat) (s : State), queue < 65536 → MayIssue q 0x0607 2 s → s.dev.ready.queues = true →
    queueRefusal s queue 0 4 = 0 → (s.queue queue).paused = false → depthOf (s.queue queue) = 0 →
    ∃ t, exec (.queuePopCmd q queue) s = .next (pumpQueues t)
      ∧ Replied q 0x0607 stOk true (leBytes 8 1 ++ leBytes 32 (if s.qm.emptyZero then 0 else (s.queue queue).lastValue.toNat)) s t
      ∧ t.queue queue = { s.queue queue with underrun := true })
  ∧ (∀ (q : CmdCtx) (queue d : Nat) (e : PageEntry) (s u w : State), queue < 65536 → MayIssue q 0x0607 2 s →
    s.dev.ready.queues = true → queueRefusal s queue 0 4 = 0 → (s.queue queue).paused = false →
    depthOf (s.queue queue) ≠ 0 → (s.queue queue).held = [] →
    lookup (vpage (s.queue queue) (s.queue queue).head) s = (e, u) → e.whr = .scratch →
    checkUnit (128 * e.spage + (s.queue queue).head % 128) 0 u = (some d, w) →
    ∃ t, exec (.queuePopCmd q queue) s = .next (pumpQueues t) ∧ Replied q 0x0607 stOk true (leBytes 8 0 ++ leBytes 32 d) s t
      ∧ (t.queue queue).head = ((s.queue queue).head + 1) % 2 ^ 32 ∧ (t.queue queue).lastValue = BitVec.ofNat 256 d)
  ∧ (∀ (q : CmdCtx) (queue : Nat) (e : PageEntry) (s u : State), queue < 65536 → MayIssue q 0x0607 2 s →
    s.dev.ready.queues = true → queueRefusal s queue 0 4 = 0 → (s.queue queue).paused = false →
    depthOf (s.queue queue) ≠ 0 → lookup (vpage (s.queue queue) (s.queue queue).head) s = (e, u) →
    e.whr = .moving →
    ∃ t, exec (.queuePopCmd q queue) s = .next (pumpQueues t) ∧ Replied q 0x0607 stPending false [] s t
      ∧ Waits q 0x0607 queue 0 s t ∧ (t.queue queue).held = (s.queue queue).held ++ [.mailbox q.mbx]
      ∧ (t.queue queue).head = (s.queue queue).head)
  ∧ (∀ (q : CmdCtx) (c : Instr) (op len queue access prefetch stale flags : Nat) (item : BitVec 256) (s : State),
    queue < 65536 → access < 256 → 1 ≤ prefetch → prefetch ≤ 15 → stale ≤ 1000000 → flags < 256 → MayIssue q op len s →
    (c, op, len) ∈ [(Instr.queueDestroy q queue, 0x0602, 2), (.queueSet q queue access prefetch stale flags, 0x0604, 9),
      (.queueReset q queue, 0x0605, 2), (.queuePushCmd q queue item, 0x0606, 40), (.queuePopCmd q queue, 0x0607, 2)] →
    (s.dev.ready.queues = false → ∃ t, exec c s = .next (pumpQueues t) ∧ Replied q op stNotReady true [] s t
      ∧ TakenFrom q.mbx op s t)
    ∧ (s.dev.ready.queues = true → (s.queue queue).state = .disabled →
      ∃ t, exec c s = .next (pumpQueues t) ∧ Replied q op stWrong true [] s t ∧ TakenFrom q.mbx op s t))
  ∧ (∀ (q : CmdCtx) (queue access prefetch stale flags : Nat) (s : State), queue < 65536 → access < 256 → prefetch < 256 →
    stale < 2 ^ 32 → flags < 256 → MayIssue q 0x0604 9 s → prefetch = 0 ∨ 15 < prefetch ∨ 1000000 < stale →
    ∃ t, exec (.queueSet q queue access prefetch stale flags) s = .next (pumpQueues t)
      ∧ Replied q 0x0604 stBadArg true [] s t ∧ TakenFrom q.mbx 0x0604 s t)
  ∧ (∀ (q : CmdCtx) (queue x : Nat) (s : State), queue < 65536 → x < 256 →
    (MayIssue q 0x0603 3 s → 1 < x → Answers (.queueGet q queue x) s fun t => Replied q 0x0603 stBadArg true [] s t
      ∧ TakenFrom q.mbx 0x0603 s t)
    ∧ (MayIssue q 0x0608 1 s → 31 < x → Answers (.queueGroupStats q x) s fun t => Replied q 0x0608 stBadArg true [] s t
      ∧ TakenFrom q.mbx 0x0608 s t))

/-! ### The engine instructions (chapter 6) -/

/-- R228, R233: ALU. Each FN gives vD the value of the table, from both sources as they were before; no other register, no
other context but a RUNNING one that is READY again, and nothing else changes. R234, R236, R237: SHI, EXT, INS and MOVW,
bit by bit of the result; a LEN of 0 means 64. R230, R232, R238: the immediate forms and GET. ADDI's immediate is sign-
extended, the others' zero-extended; GET places the value its table gives. -/
def Obligations.ComputeInstructions : Prop :=
  (∀ (n k fn d a b : Nat) (s : State) (x y : BitVec 64), Issues n k (.alu fn d a b) s →
    x = (s.ctx (4 * n + k)).reg a → y = (s.ctx (4 * n + k)).reg b →
    ∃ v, Answers (.alu n k) s (fun t => Wrote n k d v s t ∧ OnlyContext n k s t)
      ∧ (fn = 0 → v = x + y) ∧ (fn = 1 → v = x - y) ∧ (fn = 2 → v = x &&& y) ∧ (fn = 3 → v = x ||| y)
      ∧ (fn = 4 → v = x ^^^ y) ∧ (fn = 5 → v = x <<< (y.toNat % 64)) ∧ (fn = 6 → v = x >>> (y.toNat % 64))
      ∧ (fn = 7 → v = x.sshiftRight (y.toNat % 64)) ∧ (fn = 8 → v = BitVec.ofNat 64 (x.toNat * y.toNat))
      ∧ (fn = 9 → (v = x ∨ v = y) ∧ v.toInt = min x.toInt y.toInt)
      ∧ (fn = 10 → (v = x ∨ v = y) ∧ v.toInt = max x.toInt y.toInt)
      ∧ (fn = 11 → v.toNat = min x.toNat y.toNat) ∧ (fn = 12 → v.toNat = max x.toNat y.toNat)
      ∧ (fn = 13 → v = if x.toInt < y.toInt then 1 else 0) ∧ (fn = 14 → v = if x.toNat < y.toNat then 1 else 0)
      ∧ (fn = 15 → v = x))
  ∧ (∀ (n k d a kind m : Nat) (s : State), Issues n k (.shi d a kind m) s → ∃ v : BitVec 64,
    Answers (.shi n k) s (fun t => Wrote n k d v s t ∧ OnlyContext n k s t) ∧ ∀ j, j < 64 → v.getLsbD j =
      let x := (s.ctx (4 * n + k)).reg a;
      if kind = 0 then decide (m ≤ j) && x.getLsbD (j - m)
      else if kind = 1 then decide (j + m < 64) && x.getLsbD (j + m)
      else if kind = 2 then x.getLsbD (min 63 (j + m)) else x.getLsbD ((j + m) % 64))
  ∧ (∀ (n k d a pos len l : Nat) (s : State), Issues n k (.ext d a pos len) s → l = (if len = 0 then 64 else len) →
    ∃ v : BitVec 64, Answers (.ext n k) s (fun t => Wrote n k d v s t ∧ OnlyContext n k s t) ∧ ∀ j, j < 64 →
      v.getLsbD j = (decide (j < l) && ((s.ctx (4 * n + k)).reg a).getLsbD (pos + j)))
  ∧ (∀ (n k d a pos len l : Nat) (s : State), Issues n k (.ins d a pos len) s → l = (if len = 0 then 64 else len) →
    ∃ v : BitVec 64, Answers (.ins n k) s (fun t => Wrote n k d v s t ∧ OnlyContext n k s t) ∧ ∀ j, j < 64 →
      v.getLsbD j = if pos ≤ j ∧ j < pos + l then ((s.ctx (4 * n + k)).reg a).getLsbD (j - pos)
        else ((s.ctx (4 * n + k)).reg d).getLsbD j)
  ∧ (∀ (n k d lane imm : Nat) (keep : Bool) (s : State), Issues n k (.movw d lane keep imm) s →
    ∃ v : BitVec 64, Answers (.movw n k) s (fun t => Wrote n k d v s t ∧ OnlyContext n k s t) ∧ ∀ j, j < 64 →
      v.getLsbD j = if 16 * lane ≤ j ∧ j < 16 * lane + 16 then imm.testBit (j - 16 * lane)
        else keep && ((s.ctx (4 * n + k)).reg d).getLsbD j)
  ∧ (∀ (w fn d a b : Nat), engDecode w = some (.alu fn d a b) → fn < 16 ∧ (fn = 15 → b = 0))
  ∧ (∀ (w d a kind m : Nat), engDecode w = some (.shi d a kind m) → kind = w / 64 % 4 ∧ m = w % 64)
  ∧ (∀ (w d a pos len : Nat), engDecode w = some (.ext d a pos len) ∨ engDecode w = some (.ins d a pos len) →
    pos = w / 64 % 64 ∧ len = w % 64 ∧ w / 2 ^ 12 % 64 = 0)
  ∧ (∀ (w d lane imm : Nat) (keep : Bool), engDecode w = some (.movw d lane keep imm) →
    lane = w / 2 ^ 20 % 4 ∧ keep = w.testBit 19 ∧ imm = w % 2 ^ 16)
  ∧ (∀ (w d sel : Nat), engDecode w = some (.get d sel) → sel = w % 2 ^ 18 ∧ sel ≤ 6)
  ∧ (∀ (n k d a imm : Nat) (s : State), Issues n k (.addi d a imm) s → Answers (.addi n k) s fun t =>
    Wrote n k d ((s.ctx (4 * n + k)).reg a + (BitVec.ofNat 18 imm).signExtend 64) s t ∧ OnlyContext n k s t)
  ∧ (∀ (n k d a imm : Nat) (s : State), Issues n k (.andi d a imm) s → Answers (.andi n k) s fun t =>
    Wrote n k d ((s.ctx (4 * n + k)).reg a &&& BitVec.ofNat 64 imm) s t ∧ OnlyContext n k s t)
  ∧ (∀ (n k d a imm : Nat) (s : State), Issues n k (.ori d a imm) s → Answers (.ori n k) s fun t =>
    Wrote n k d ((s.ctx (4 * n + k)).reg a ||| BitVec.ofNat 64 imm) s t ∧ OnlyContext n k s t)
  ∧ (∀ (n k d a imm : Nat) (s : State), Issues n k (.xori d a imm) s → Answers (.xori n k) s fun t =>
    Wrote n k d ((s.ctx (4 * n + k)).reg a ^^^ BitVec.ofNat 64 imm) s t ∧ OnlyContext n k s t)
  ∧ (∀ (n k d sel : Nat) (s : State), Issues n k (.get d sel) s → Answers (.get n k) s fun t => OnlyContext n k s t
    ∧ ∃ v : BitVec 64, Wrote n k d v s t ∧ (sel = 0 → v = BitVec.ofNat 64 s.now)
      ∧ (sel = 1 → v = BitVec.ofNat 64 (n + 256 * k)) ∧ (sel = 2 → v = (s.ctx (4 * n + k)).deadline)
      ∧ (sel = 3 → ∀ i, i < 16 → v.getLsbD i = (tget 0 s.eng.evtPend i).getLsbD n)
      ∧ (sel = 4 → v.getLsbD 0 = (s.engine n).timeInvalid ∧ v.getLsbD 1 = (s.ctx (4 * n + k)).dlMiss
        ∧ v.getLsbD 2 = (s.engine n).postedErr)
      ∧ (sel = 5 → v = BitVec.ofNat 64 (s.ctx (4 * n + k)).posted) ∧ (sel = 6 → v = BitVec.ofNat 64 (leadTicks s)))

/-- R186, R195, R241, R242, R255: LD, ST and TLD, and the checked words. The address must be below 32,768 and aligned to
the width (EDGEL's to 8), or the context faults DMEM_RANGE with no access; a load reads little-endian and zero- or sign-
extends, a word with one bit wrong corrected; a store changes only its bytes, and the next instruction sees it; a word
that cannot be corrected faults DMEM_UE, and an instruction word that cannot be corrected faults IMEM_UE, whatever stands
there. R239, R226: branches and jumps. PC becomes TARGET where the condition holds and advances otherwise; JAL keeps the
next PC in vD; JR goes to bits 12:0 of vA; no register changes but JAL's. -/
def Obligations.MemoryAndBranchInstructions : Prop :=
  (∀ (c : Nat → Nat → Instr) (i : EngInstr) (n k d size : Nat) (sg : Bool) (s : State) (x w : BitVec 64), Issues n k i s →
    ((∃ a off, c = Instr.ld ∧ i = .ld d a size sg off ∧ x = (s.ctx (4 * n + k)).reg a + (BitVec.ofNat 15 off).signExtend 64)
      ∨ (∃ a b, c = Instr.tld ∧ i = .tld d a b size sg
        ∧ x = (s.ctx (4 * n + k)).reg a + (s.ctx (4 * n + k)).reg b <<< size)) →
    x.toNat < 32768 → x.toNat % 2 ^ size = 0 → (eword s true n (x.toNat / 8)).data = w →
    flipCount (eword s true n (x.toNat / 8)).flips ≤ 1 → Answers (c n k) s fun t => OnlyContext n k s t ∧ Wrote n k d
      (let v : Nat := w.toNat / 2 ^ (8 * (x.toNat % 8)) % 2 ^ (8 * 2 ^ size)
        if sg = true ∧ 2 ^ (8 * 2 ^ size - 1) ≤ v then BitVec.ofInt 64 ((v : Int) - 2 ^ (8 * 2 ^ size)) else BitVec.ofNat 64 v) s t)
  ∧ (∀ (n k r a size off : Nat) (s : State) (x : BitVec 64), Issues n k (.st r a size off) s →
    x = (s.ctx (4 * n + k)).reg a + (BitVec.ofNat 15 off).signExtend 64 → x.toNat < 32768 → x.toNat % 2 ^ size = 0 →
    size = 3 ∨ flipCount (eword s true n (x.toNat / 8)).flips ≤ 1 → Answers (.st n k) s fun t =>
      t = { s with eng := { s.eng with ctxs := t.eng.ctxs, engines := t.eng.engines, dmem := t.eng.dmem }, mbx := t.mbx }
      ∧ (t.ctx (4 * n + k)).regs = (s.ctx (4 * n + k)).regs ∧ (t.ctx (4 * n + k)).pc = (s.ctx (4 * n + k)).pc + 1
      ∧ (∀ j, j / 4 ≠ n → t.ctx j = s.ctx j)
      ∧ (∀ m w, m ≠ n ∨ w ≠ x.toNat / 8 → w < 4096 → eword t true m w = eword s true m w)
      ∧ (eword t true n (x.toNat / 8)).flips = 0
      ∧ ∀ j, j < 64 → (eword t true n (x.toNat / 8)).data.getLsbD j =
        if 8 * (x.toNat % 8) ≤ j ∧ j < 8 * (x.toNat % 8) + 8 * 2 ^ size
          then ((s.ctx (4 * n + k)).reg r).getLsbD (j - 8 * (x.toNat % 8)) else (eword s true n (x.toNat / 8)).data.getLsbD j)
  ∧ (∀ (c : Nat → Nat → Instr) (i : EngInstr) (n k size : Nat) (s : State) (x : BitVec 64), Issues n k i s →
    ((∃ d a sg off, c = Instr.ld ∧ i = .ld d a size sg off
        ∧ x = (s.ctx (4 * n + k)).reg a + (BitVec.ofNat 15 off).signExtend 64)
      ∨ (∃ d a b sg, c = Instr.tld ∧ i = .tld d a b size sg
        ∧ x = (s.ctx (4 * n + k)).reg a + (s.ctx (4 * n + k)).reg b <<< size)
      ∨ (∃ r a off, c = Instr.st ∧ i = .st r a size off
        ∧ x = (s.ctx (4 * n + k)).reg a + (BitVec.ofNat 15 off).signExtend 64)
      ∨ (∃ a b, c = Instr.edgel ∧ i = .edgel a b ∧ size = 3 ∧ x = (s.ctx (4 * n + k)).reg b)) →
    32768 ≤ x.toNat ∨ x.toNat % 2 ^ size ≠ 0 →
    Answers (c n k) s fun t => (t.ctx (4 * n + k)).state = .faulted ∧ (t.ctx (4 * n + k)).fault = 4
      ∧ (t.ctx (4 * n + k)).detail = x.setWidth 16
      ∧ (t.ctx (4 * n + k)).regs = (s.ctx (4 * n + k)).regs ∧ (t.ctx (4 * n + k)).pc = (s.ctx (4 * n + k)).pc
      ∧ t.eng.dmem = s.eng.dmem ∧ t.eng.pins = s.eng.pins ∧ t.evt.pend.getLsbD (16 + n) = true)
  ∧ (∀ (n k d a size off : Nat) (sg : Bool) (s : State) (x : BitVec 64), Issues n k (.ld d a size sg off) s →
    x = (s.ctx (4 * n + k)).reg a + (BitVec.ofNat 15 off).signExtend 64 → x.toNat < 32768 → x.toNat % 2 ^ size = 0 →
    flipCount (eword s true n (x.toNat / 8)).flips = 2 → Answers (.ld n k) s fun t =>
      (t.ctx (4 * n + k)).state = .faulted ∧ (t.ctx (4 * n + k)).fault = 2
      ∧ (t.ctx (4 * n + k)).detail = BitVec.ofNat 16 (x.toNat / 8) ∧ (t.ctx (4 * n + k)).regs = (s.ctx (4 * n + k)).regs
      ∧ (t.engine n).dmemUe = true ∧ (t.ctx (4 * n + k)).pc = (s.ctx (4 * n + k)).pc ∧ t.evt.pend.getLsbD (16 + n) = true)
  ∧ (∀ (c : Nat → Nat → Instr) (n k : Nat) (s : State), c ∈ [Instr.alu, .addi, .andi, .ori, .xori, .shi, .movw, .ext, .ins,
      .get, .ld, .st, .tld, .beq, .bne, .blt, .bge, .bltu, .bgeu, .bz, .bnz, .j, .jal, .jr, .wait, .waite, .evclr, .dln,
      .fence, .halt, .pop, .popr, .push, .pushr, .ldn, .stn, .ldn4, .stn4, .aadd, .aswp, .edge, .edgel, .edger,
      .illegalInstruction] →
    mayIssue s n k = true → flipCount (eword s false n ((s.ctx (4 * n + k)).pc.toNat / 2)).flips = 2 →
    Answers (c n k) s fun t => (t.ctx (4 * n + k)).state = .faulted ∧ (t.ctx (4 * n + k)).fault = 1
      ∧ (t.ctx (4 * n + k)).detail = BitVec.ofNat 16 ((s.ctx (4 * n + k)).pc.toNat / 2)
      ∧ (t.ctx (4 * n + k)).regs = (s.ctx (4 * n + k)).regs ∧ (t.ctx (4 * n + k)).pc = (s.ctx (4 * n + k)).pc
      ∧ (t.engine n).imemUe = true ∧ t.evt.pend.getLsbD (16 + n) = true)
  ∧ (∀ (c : Nat → Nat → Instr) (n k cond a b target : Nat) (s : State) (x y : BitVec 64),
    (c, cond) ∈ [(Instr.beq, 0), (Instr.bne, 1), (Instr.blt, 2), (Instr.bge, 3), (Instr.bltu, 4), (Instr.bgeu, 5),
      (Instr.bz, 6), (Instr.bnz, 7)] → Issues n k (.branch cond a b target) s →
    x = (s.ctx (4 * n + k)).reg a → y = (s.ctx (4 * n + k)).reg b →
    Answers (c n k) s fun t => OnlyContext n k s t ∧ (t.ctx (4 * n + k)).regs = (s.ctx (4 * n + k)).regs
      ∧ (t.ctx (4 * n + k)).state = .running
      ∧ (t.ctx (4 * n + k)).pc = if (cond = 0 ∧ x = y) ∨ (cond = 1 ∧ x ≠ y) ∨ (cond = 2 ∧ x.toInt < y.toInt)
        ∨ (cond = 3 ∧ y.toInt ≤ x.toInt) ∨ (cond = 4 ∧ x.toNat < y.toNat) ∨ (cond = 5 ∧ y.toNat ≤ x.toNat)
        ∨ (cond = 6 ∧ x = 0) ∨ (cond = 7 ∧ x ≠ 0) then BitVec.ofNat 13 target else (s.ctx (4 * n + k)).pc + 1)
  ∧ (∀ (n k target : Nat) (s : State), Issues n k (.j target) s → Answers (.j n k) s fun t => OnlyContext n k s t
    ∧ t.ctx (4 * n + k) = { s.ctx (4 * n + k) with pc := BitVec.ofNat 13 target, state := .running })
  ∧ (∀ (n k d target : Nat) (s : State), Issues n k (.jal d target) s → Answers (.jal n k) s fun t => OnlyContext n k s t
    ∧ (t.ctx (4 * n + k)).pc = BitVec.ofNat 13 target ∧ (t.ctx (4 * n + k)).state = .running
    ∧ (t.ctx (4 * n + k)).reg d = ((s.ctx (4 * n + k)).pc + 1).setWidth 64
    ∧ ∀ r, r ≠ d → (t.ctx (4 * n + k)).reg r = (s.ctx (4 * n + k)).reg r)
  ∧ (∀ (n k a : Nat) (s : State), Issues n k (.jr a) s → Answers (.jr n k) s fun t => OnlyContext n k s t
    ∧ t.ctx (4 * n + k) = { s.ctx (4 * n + k) with
      pc := ((s.ctx (4 * n + k)).reg a).setWidth 13, state := .running })

/-- R194, R196, R197, R240, R243, R244, R245, R250: the instructions about waiting. WAIT and WAITE wait, with no register
changed, where no stop has been asked for and the cluster is ON; a stop ends in IDLE, a cluster being disabled parks; WAIT
faults where time is needed and invalid; WAITE goes on where a bit of its mask is pending already; EVCLR clears the
engine's own bits of the mask; DLN sets the deadline; FENCE waits while a posted request is out; HALT leaves the context
IDLE.
It rests on choices of the model: log 70. -/
def Obligations.WaitInstructions : Prop :=
  (∀ (n k a : Nat) (s : State), Issues n k (.wait a) s → (s.cluster (n / 8)).state = .on →
    (s.ctx (4 * n + k)).stopAtWait = false → (s.ctx (4 * n + k)).stopNow = false →
    (s.ctx (4 * n + k)).needTime = false ∨ (s.engine n).timeInvalid = false →
    Answers (.wait n k) s fun t => OnlyContext n k s t
      ∧ t.ctx (4 * n + k) = { s.ctx (4 * n + k) with
        state := .waitTick, target := (s.ctx (4 * n + k)).reg a })
  ∧ (∀ (c : Nat → Nat → Instr) (i : EngInstr) (n k : Nat) (s : State), Issues n k i s →
    (∃ a, c = Instr.wait ∧ i = .wait a ∧ ((s.ctx (4 * n + k)).needTime = false ∨ (s.engine n).timeInvalid = false))
      ∨ (∃ m, c = Instr.waite ∧ i = .waite m) →
    ((s.ctx (4 * n + k)).stopAtWait = true ∨ (s.ctx (4 * n + k)).stopNow = true →
      Answers (c n k) s fun t => OnlyContext n k s t ∧ (t.ctx (4 * n + k)).state = .idle
        ∧ (t.ctx (4 * n + k)).pc = (s.ctx (4 * n + k)).pc ∧ (t.ctx (4 * n + k)).regs = (s.ctx (4 * n + k)).regs)
    ∧ ((s.ctx (4 * n + k)).stopAtWait = false → (s.ctx (4 * n + k)).stopNow = false →
      (s.cluster (n / 8)).state = .parking → Answers (c n k) s fun t => (t.ctx (4 * n + k)).state = .parked
        ∧ (t.ctx (4 * n + k)).pc = (s.ctx (4 * n + k)).pc ∧ (t.ctx (4 * n + k)).regs = (s.ctx (4 * n + k)).regs))
  ∧ (∀ (n k a : Nat) (s : State), Issues n k (.wait a) s → (s.ctx (4 * n + k)).needTime = true →
    (s.engine n).timeInvalid = true → Answers (.wait n k) s fun t => (t.ctx (4 * n + k)).state = .faulted
      ∧ (t.ctx (4 * n + k)).fault = 11 ∧ (t.ctx (4 * n + k)).pc = (s.ctx (4 * n + k)).pc)
  ∧ (∀ (n k mask : Nat) (s : State), Issues n k (.waite mask) s → (s.cluster (n / 8)).state = .on →
    (s.ctx (4 * n + k)).stopAtWait = false → (s.ctx (4 * n + k)).stopNow = false →
    Answers (.waite n k) s fun t => (t.ctx (4 * n + k)).mask = BitVec.ofNat 16 mask
      ∧ (t.ctx (4 * n + k)).regs = (s.ctx (4 * n + k)).regs ∧ t.eng.evtPend = s.eng.evtPend
      ∧ (if BitVec.ofNat 16 mask &&& BitVec.ofNat 16 (engPend s n) = 0
        then (t.ctx (4 * n + k)).state = .waitEvent ∧ (t.ctx (4 * n + k)).pc = (s.ctx (4 * n + k)).pc
        else (t.ctx (4 * n + k)).state = .ready ∧ (t.ctx (4 * n + k)).pc = (s.ctx (4 * n + k)).pc + 1))
  ∧ (∀ (n k mask : Nat) (s : State), Issues n k (.evclr mask) s → Answers (.evclr n k) s fun t =>
    t.ctx (4 * n + k) = { s.ctx (4 * n + k) with pc := (s.ctx (4 * n + k)).pc + 1, state := .running }
    ∧ (∀ line m, (tget 0 t.eng.evtPend line).getLsbD m = ((tget 0 s.eng.evtPend line).getLsbD m
      && !(decide (m = n) && mask.testBit line)))
    ∧ t = { s with eng := { s.eng with ctxs := t.eng.ctxs, engines := t.eng.engines, evtPend := t.eng.evtPend }, mbx := t.mbx })
  ∧ (∀ (n k a : Nat) (s : State), Issues n k (.dln a) s → Answers (.dln n k) s fun t => OnlyContext n k s t
    ∧ t.ctx (4 * n + k) = { s.ctx (4 * n + k) with
      pc := (s.ctx (4 * n + k)).pc + 1, state := .running, deadline := (s.ctx (4 * n + k)).reg a, missed := false })
  ∧ (∀ (n k : Nat) (s : State), Issues n k .fence s → (s.ctx (4 * n + k)).posted = 0 →
    Answers (.fence n k) s fun t => OnlyContext n k s t
      ∧ t.ctx (4 * n + k) = { s.ctx (4 * n + k) with pc := (s.ctx (4 * n + k)).pc + 1, state := .running })
  ∧ (∀ (n k : Nat) (s : State), Issues n k .fence s → (s.ctx (4 * n + k)).posted ≠ 0 →
    Answers (.fence n k) s fun t => OnlyContext n k s t
      ∧ t.ctx (4 * n + k) = { s.ctx (4 * n + k) with state := .waitNoc, wait := .fence })
  ∧ (∀ (n k : Nat) (s : State), Issues n k .halt s → Answers (.halt n k) s fun t => OnlyContext n k s t
    ∧ (t.ctx (4 * n + k)).state = .idle ∧ (t.ctx (4 * n + k)).regs = (s.ctx (4 * n + k)).regs
    ∧ (t.ctx (4 * n + k)).deadline = (s.ctx (4 * n + k)).deadline
    ∧ (t.ctx (4 * n + k)).posted = (s.ctx (4 * n + k)).posted)

/-- R199, R246 to R250: the instructions that send a request. Where the engine has fewer than 32 requests out, and a
posted one finds fewer than 8 of its context's, the request `r` is tracked under a free tag, last in the order in which
requests leave; a blocking one waits in WAIT_NOC with the PC where it was, a posted one goes on and is counted. With no
slot, nothing is sent and the instruction waits. R202, R203, R204, R205, R231, R251, R252, R253: the edge instructions. A
credit that arrives in the cycle of an edge is its to use (`u` is the state with the credits due). The edge formed is
judged by the checks in their order; an accepted edge takes a credit, becomes the last accepted time and travels to the
scheduler, EDGEL then adding 8 to vP; a dropped one sets LATE; without a credit OVF sets and the context waits or faults;
a failed check faults and changes no register. A word R231 calls undefined faults ILLEGAL. -/
def Obligations.RequestAndEdgeInstructions : Prop :=
  (∀ (c : Nat → Nat → Instr) (i : EngInstr) (r : EngReq) (n k : Nat) (s : State), Issues n k i s →
    (∀ v, v = (s.ctx (4 * n + k)).reg → ∀ g4 : Nat → List (BitVec 64),
      g4 = (fun g => [v (4 * g), v (4 * g + 1), v (4 * g + 2), v (4 * g + 3)]) →
      (∃ g st q, c = Instr.pop ∧ i = .pop g st q ∧ r = ⟨k, false, .pop g st, BitVec.ofNat 64 q, []⟩)
      ∨ (∃ g st a, c = Instr.popr ∧ i = .popr g st a ∧ r = ⟨k, false, .pop g st, (v a).setWidth 16 |>.setWidth 64, []⟩)
      ∨ (∃ g st p q, c = Instr.push ∧ i = .push g st p q ∧ r = ⟨k, p, .push st, BitVec.ofNat 64 q, g4 g⟩)
      ∨ (∃ g st p a, c = Instr.pushr ∧ i = .pushr g st p a
        ∧ r = ⟨k, p, .push st, (v a).setWidth 16 |>.setWidth 64, g4 g⟩)
      ∨ (∃ d a o, c = Instr.ldn ∧ i = .ldn d a o
        ∧ r = ⟨k, false, .load d, v a + (BitVec.ofNat 17 o).signExtend 64, []⟩)
      ∨ (∃ x a p o, c = Instr.stn ∧ i = .stn x a p o
        ∧ r = ⟨k, p, .store, v a + (BitVec.ofNat 17 o).signExtend 64, [v x]⟩)
      ∨ (∃ g a o, c = Instr.ldn4 ∧ i = .ldn4 g a o
        ∧ r = ⟨k, false, .load4 g, v a + (BitVec.ofNat 17 o).signExtend 64, []⟩)
      ∨ (∃ g a p o, c = Instr.stn4 ∧ i = .stn4 g a p o
        ∧ r = ⟨k, p, .store, v a + (BitVec.ofNat 17 o).signExtend 64, g4 g⟩)
      ∨ (∃ d a b, c = Instr.aadd ∧ i = .aadd d a b ∧ r = ⟨k, false, .atomic true d, v a, [v b]⟩)
      ∨ (∃ d a b, c = Instr.aswp ∧ i = .aswp d a b ∧ r = ⟨k, false, .atomic false d, v a, [v b]⟩)) →
    (outstanding (s.engine n) < 32 → r.posted = false ∨ (s.ctx (4 * n + k)).posted < 8 →
      (∃ tag, tag < 32 ∧ tget none (s.engine n).reqs tag = none) → Answers (c n k) s fun t => OnlyContext n k s t
      ∧ (∃ tag, tag < 32 ∧ tget none (s.engine n).reqs tag = none ∧ tget none (t.engine n).reqs tag = some r
        ∧ (∀ m, m ≠ tag → tget none (t.engine n).reqs m = tget none (s.engine n).reqs m)
        ∧ (t.engine n).unsent = (s.engine n).unsent ++ [tag]
        ∧ t.ctx (4 * n + k) = if r.posted = true
          then { s.ctx (4 * n + k) with
            state := .running, pc := (s.ctx (4 * n + k)).pc + 1, posted := (s.ctx (4 * n + k)).posted + 1 }
          else { s.ctx (4 * n + k) with state := .waitNoc, wait := .answer, waitTag := tag }))
    ∧ (32 ≤ outstanding (s.engine n) → r.posted = false ∨ (s.ctx (4 * n + k)).posted < 8 →
      Answers (c n k) s fun t => OnlyContext n k s t ∧ (t.engine n).reqs = (s.engine n).reqs
        ∧ t.ctx (4 * n + k) = { s.ctx (4 * n + k) with state := .waitNoc, wait := .reissue })
    ∧ (r.posted = true → 8 ≤ (s.ctx (4 * n + k)).posted →
      Answers (c n k) s fun t => OnlyContext n k s t ∧ (t.engine n).reqs = (s.engine n).reqs
        ∧ t.ctx (4 * n + k) = { s.ctx (4 * n + k) with state := .waitNoc, wait := .ownPosted }))
  ∧ (∀ (s : State) (n p t sub : Nat), t < 2 ^ 64 → sub < 16 → judgeEdge s n p t sub =
    if 960 ≤ p ∨ (s.pin p).owner ≠ n ∨ pinsReleased s = false then .fault 6
    else if s.now + 2 ^ 30 ≤ t then .fault 8
    else if 16 * t + sub < (s.pin p).last + (if p < 768 then 32 else 256) then .fault 7
    else if (s.pin p).credits = 0 then (if (s.pin p).ovfFault = true then .fault 9 else .stall)
    else if t < s.now + leadTicks s then
      (if (s.pin p).lateAtOnce = true then .accept (16 * (s.now + leadTicks s)) true else .drop)
    else .accept (16 * t + sub) false)
  ∧ (∀ (p : Nat) (s : State), (∀ e ∈ (s.pin p).returning, s.now < e) → creditsDue p s = s)
  ∧ (∀ (p : Nat) (s : State), (∀ e ∈ (s.pin p).returning, e ≤ s.now) →
    (creditsDue p s).pin p = { s.pin p with
      credits := (s.pin p).credits + (s.pin p).returning.length, returning := [] })
  ∧ (∀ (c : Nat → Nat → Instr) (i : EngInstr) (n k p act tm sub time adv : Nat) (s u : State), Issues n k i s →
    (∀ v, v = (s.ctx (4 * n + k)).reg →
      (∃ x, c = Instr.edge ∧ i = .edge x act sub p ∧ tm = (v x).toNat ∧ adv = 0)
      ∨ (∃ x a, c = Instr.edger ∧ i = .edger x a ∧ p = (v a).toNat / 2 ^ 54 ∧ act = (v a).toNat / 2 ^ 52 % 4
        ∧ sub = (v a).toNat / 2 ^ 48 % 16 ∧ tm = ((v x).toNat + (v a).toNat % 2 ^ 32) % 2 ^ 64 ∧ adv = 0)
      ∨ (∃ x a w, c = Instr.edgel ∧ i = .edgel x a ∧ (v a).toNat < 32768 ∧ (v a).toNat % 8 = 0
        ∧ (eword s true n ((v a).toNat / 8)).data = w ∧ flipCount (eword s true n ((v a).toNat / 8)).flips ≤ 1
        ∧ p = w.toNat / 2 ^ 54 ∧ act = w.toNat / 2 ^ 52 % 4 ∧ sub = w.toNat / 2 ^ 48 % 16
        ∧ tm = ((v x).toNat + w.toNat % 2 ^ 32) % 2 ^ 64 ∧ adv = 8)) → u = creditsDue p s →
    (judgeEdge u n p tm sub = .accept time false → Answers (c n k) s fun t =>
      t.pin p = { u.pin p with
        credits := (u.pin p).credits - 1, last := time,
        flying := (u.pin p).flying ++ [(s.now + leadTicks s - 12, ⟨time, act⟩)] }
      ∧ (∀ m, m ≠ p → t.pin m = s.pin m) ∧ (t.ctx (4 * n + k)).pc = (s.ctx (4 * n + k)).pc + 1
      ∧ (t.ctx (4 * n + k)).state = .running ∧ t.evt = s.evt
      ∧ (adv = 0 → (t.ctx (4 * n + k)).regs = (s.ctx (4 * n + k)).regs))
    ∧ (judgeEdge u n p tm sub = .stall → Answers (c n k) s fun t =>
      t.pin p = { u.pin p with ovf := true } ∧ (∀ m, m ≠ p → t.pin m = s.pin m)
      ∧ t.ctx (4 * n + k) = { s.ctx (4 * n + k) with state := .waitPin, pinWait := p })
    ∧ (judgeEdge u n p tm sub = .drop → Answers (c n k) s fun t =>
      t.pin p = { u.pin p with late := true, lateCount := min ((u.pin p).lateCount + 1) 255 }
      ∧ (∀ m, m ≠ p → t.pin m = s.pin m)
      ∧ (t.ctx (4 * n + k)).pc = (s.ctx (4 * n + k)).pc + 1 ∧ t.evt.pend.getLsbD (16 + n) = true)
    ∧ (judgeEdge u n p tm sub = .accept time true → Answers (c n k) s fun t =>
      t.pin p = { u.pin p with
        late := true, lateCount := min ((u.pin p).lateCount + 1) 255, credits := (u.pin p).credits - 1, last := time,
        flying := (u.pin p).flying ++ [(s.now + leadTicks s - 12, ⟨time, act⟩)] }
      ∧ (∀ m, m ≠ p → t.pin m = s.pin m)
      ∧ (t.ctx (4 * n + k)).pc = (s.ctx (4 * n + k)).pc + 1 ∧ t.evt.pend.getLsbD (16 + n) = true)
    ∧ (∀ code, judgeEdge u n p tm sub = .fault code → Answers (c n k) s fun t =>
      (t.ctx (4 * n + k)).state = .faulted ∧ (t.ctx (4 * n + k)).fault = code
      ∧ (t.ctx (4 * n + k)).detail = BitVec.ofNat 16 p ∧ (t.ctx (4 * n + k)).regs = (s.ctx (4 * n + k)).regs
      ∧ (t.ctx (4 * n + k)).pc = (s.ctx (4 * n + k)).pc
      ∧ t.pin p = (if code = 9 then { u.pin p with ovf := true } else u.pin p) ∧ ∀ m, m ≠ p → t.pin m = s.pin m))
  ∧ (∀ (n k x a time : Nat) (w : BitVec 64) (s : State), Issues n k (.edgel x a) s →
    ((s.ctx (4 * n + k)).reg a).toNat < 32768 → ((s.ctx (4 * n + k)).reg a).toNat % 8 = 0 →
    (eword s true n (((s.ctx (4 * n + k)).reg a).toNat / 8)).data = w →
    flipCount (eword s true n (((s.ctx (4 * n + k)).reg a).toNat / 8)).flips ≤ 1 →
    judgeEdge (creditsDue (w.toNat / 2 ^ 54) s) n (w.toNat / 2 ^ 54)
      ((((s.ctx (4 * n + k)).reg x).toNat + w.toNat % 2 ^ 32) % 2 ^ 64) (w.toNat / 2 ^ 48 % 16) = .accept time false →
    Answers (.edgel n k) s fun t => Wrote n k a ((s.ctx (4 * n + k)).reg a + 8) s t)
  ∧ (∀ (n k w : Nat) (s : State), mayIssue s n k = true → fetchWord s n (s.ctx (4 * n + k)).pc = some w →
    engDecode w = none → Answers (.illegalInstruction n k) s fun t => (t.ctx (4 * n + k)).state = .faulted
      ∧ (t.ctx (4 * n + k)).fault = 3 ∧ (t.ctx (4 * n + k)).detail = BitVec.ofNat 16 w
      ∧ (t.ctx (4 * n + k)).pc = (s.ctx (4 * n + k)).pc ∧ (t.ctx (4 * n + k)).regs = (s.ctx (4 * n + k)).regs
      ∧ t.evt.pend.getLsbD (16 + n) = true)

/-! ### Engines, clusters and pin edge schedulers (chapter 5) -/

/-- R191 to R194, R199, R246 to R249, R256: what happens to a context. A tick wait ends with the deadline W + DL_SLACK, or
none for 0; the first miss of a deadline is recorded, in any state that runs, with event 16 + n, and faults where
MISS_FAULT is set; in HOLD neither happens. An answer with the tag the context waits for gives it its registers and the
next instruction, or ends it IDLE where a stop waits for it, or faults it with NOC_RESP; a miss of the same cycle is
recorded beside the fault; an answer to another request leaves it waiting, but frees its tag. A posted request's count
falls when it is answered; a code other than OK sets POSTED_ERR; a context that waits for the count, or for a slot, goes
on. R203, R204, R206, R207: the life of an accepted edge: it reaches its scheduler and is stored in time order, is
released 12 ticks before its time with a credit on its way, drives the ball at its tick, where the outputs are released
(R584), and the credit comes back, contexts stalled for it issue again. None of these comes early.
It rests on choices of the model: log 125. -/
def Obligations.ContextAndEdgeEvents : Prop :=
  (∀ (n k : Nat) (s : State), k < 4 → ctxLives s n = true → (s.ctx (4 * n + k)).state = .waitTick →
    (s.ctx (4 * n + k)).target.toNat ≤ s.now → exec (.waitTickExpiry n k) s = .next (s.modCtx (4 * n + k) fun c => { c with
      pc := c.pc + 1, state := .ready, missed := false,
      deadline := if c.dlSlack = 0 then BitVec.allOnes 64 else c.target + BitVec.ofNat 64 c.dlSlack }))
  ∧ (∀ (n k : Nat) (e : Nat → Nat → Instr) (s : State), e = Instr.waitTickExpiry ∨ e = Instr.deadlineMiss →
    s.dev.mode = .hold → exec (e n k) s = .next s)
  ∧ (∀ (n k : Nat) (s : State), k < 4 → ctxLives s n = true →
    (s.ctx (4 * n + k)).state = .ready ∨ (s.ctx (4 * n + k)).state = .running ∨ (s.ctx (4 * n + k)).state = .waitNoc
      ∨ (s.ctx (4 * n + k)).state = .waitPin →
    (s.ctx (4 * n + k)).deadline.toNat < s.now → (s.ctx (4 * n + k)).deadline ≠ BitVec.allOnes 64 →
    (s.ctx (4 * n + k)).missed = false → (s.ctx (4 * n + k)).missFault = false →
    (s.route (16 + n)).lineEn = false → Answers (.deadlineMiss n k) s fun t =>
      t.ctx (4 * n + k) = { s.ctx (4 * n + k) with
        dlMiss := true, missed := true, misses := min 65535 ((s.ctx (4 * n + k)).misses + 1) }
      ∧ (∀ j, j ≠ 4 * n + k → t.ctx j = s.ctx j) ∧ t.evt.pend = s.evt.pend ||| BitVec.twoPow 384 (16 + n))
  ∧ (∀ (n k : Nat) (s : State), k < 4 → ctxLives s n = true →
    (s.ctx (4 * n + k)).state = .ready ∨ (s.ctx (4 * n + k)).state = .running ∨ (s.ctx (4 * n + k)).state = .waitNoc
      ∨ (s.ctx (4 * n + k)).state = .waitPin →
    (s.ctx (4 * n + k)).deadline.toNat < s.now → (s.ctx (4 * n + k)).deadline ≠ BitVec.allOnes 64 →
    (s.ctx (4 * n + k)).missed = false → (s.ctx (4 * n + k)).missFault = true →
    Answers (.deadlineMiss n k) s fun t => t.ctx (4 * n + k) = { s.ctx (4 * n + k) with
        state := .faulted, fault := 10, detail := 0, dlMiss := true, missed := true,
        misses := min 65535 ((s.ctx (4 * n + k)).misses + 1) }
      ∧ t.evt.pend.getLsbD (16 + n) = true)
  ∧ (∀ (n k tag qout : Nat) (data : List Byte) (kind : EngReqKind) (x : BitVec 64) (dt : List (BitVec 64)) (s : State),
    n < 96 → k < 4 → tget none (s.engine n).reqs tag = some ⟨k, false, kind, x, dt⟩ → s.dev.mode ≠ .hold →
    (s.ctx (4 * n + k)).state = .waitNoc → (s.ctx (4 * n + k)).wait = .answer → (s.ctx (4 * n + k)).waitTag = tag →
    (s.ctx (4 * n + k)).stopNow = false →
    Answers (.engineNocResponse n tag 0 qout data) s fun t => tget none (t.engine n).reqs tag = none
      ∧ (t.ctx (4 * n + k)).state = .ready ∧ (t.ctx (4 * n + k)).pc = (s.ctx (4 * n + k)).pc + 1
      ∧ ∀ r, (t.ctx (4 * n + k)).reg r = (writeAnswer kind qout data (s.ctx (4 * n + k))).reg r)
  ∧ (∀ (n k tag qout : Nat) (data : List Byte) (kind : EngReqKind) (x : BitVec 64) (dt : List (BitVec 64)) (s : State),
    n < 96 → k < 4 → tget none (s.engine n).reqs tag = some ⟨k, false, kind, x, dt⟩ → s.dev.mode ≠ .hold →
    (s.ctx (4 * n + k)).state = .waitNoc → (s.ctx (4 * n + k)).wait = .answer → (s.ctx (4 * n + k)).waitTag = tag →
    (s.ctx (4 * n + k)).stopNow = true →
    Answers (.engineNocResponse n tag 0 qout data) s fun t => tget none (t.engine n).reqs tag = none
      ∧ (t.ctx (4 * n + k)).state = .idle ∧ (t.ctx (4 * n + k)).stopNow = false
      ∧ (t.ctx (4 * n + k)).pc = (s.ctx (4 * n + k)).pc + 1
      ∧ ∀ r, (t.ctx (4 * n + k)).reg r = (writeAnswer kind qout data (s.ctx (4 * n + k))).reg r)
  ∧ (∀ (n k tag code qout : Nat) (data : List Byte) (kind : EngReqKind) (x : BitVec 64) (dt : List (BitVec 64)) (s : State),
    n < 96 → k < 4 → tget none (s.engine n).reqs tag = some ⟨k, false, kind, x, dt⟩ → s.dev.mode ≠ .hold →
    (s.ctx (4 * n + k)).state = .waitNoc → (s.ctx (4 * n + k)).wait = .answer → (s.ctx (4 * n + k)).waitTag = tag →
    code ≠ 0 → Answers (.engineNocResponse n tag code qout data) s fun t => tget none (t.engine n).reqs tag = none
      ∧ (t.ctx (4 * n + k)).state = .faulted ∧ (t.ctx (4 * n + k)).fault = 5
      ∧ (t.ctx (4 * n + k)).detail = BitVec.ofNat 16 code ∧ (t.ctx (4 * n + k)).pc = (s.ctx (4 * n + k)).pc
      ∧ (t.ctx (4 * n + k)).regs = (s.ctx (4 * n + k)).regs ∧ t.evt.pend.getLsbD (16 + n) = true
      ∧ (deadlinePassed s (s.ctx (4 * n + k)) = true → (t.ctx (4 * n + k)).dlMiss = true
        ∧ (t.ctx (4 * n + k)).misses = min 65535 ((s.ctx (4 * n + k)).misses + 1)))
  ∧ (∀ (n k tag code qout : Nat) (data : List Byte) (kind : EngReqKind) (x : BitVec 64) (dt : List (BitVec 64)) (s : State),
    n < 96 → k < 4 → tget none (s.engine n).reqs tag = some ⟨k, false, kind, x, dt⟩ →
    s.dev.mode = .hold ∨ ((s.ctx (4 * n + k)).state ≠ .waitNoc)
      ∨ ((s.ctx (4 * n + k)).wait = .answer ∧ (s.ctx (4 * n + k)).waitTag ≠ tag) →
    Answers (.engineNocResponse n tag code qout data) s fun t => tget none (t.engine n).reqs tag = none
      ∧ t.ctx (4 * n + k) = s.ctx (4 * n + k))
  ∧ (∀ (n k tag code qout : Nat) (data : List Byte) (kind : EngReqKind) (x : BitVec 64) (dt : List (BitVec 64)) (s : State),
    n < 96 → k < 4 → tget none (s.engine n).reqs tag = some ⟨k, true, kind, x, dt⟩ →
    (s.ctx (4 * n + k)).state ≠ .waitNoc → (s.ctx (4 * n + k)).state ≠ .waitEvent →
    code ≠ 0 → (s.engine n).postedErr = false → Answers (.engineNocResponse n tag code qout data) s fun t =>
      t.ctx (4 * n + k) = { s.ctx (4 * n + k) with posted := (s.ctx (4 * n + k)).posted - 1 }
      ∧ (t.engine n).postedErr = true ∧ (t.engine n).lastCode = code ∧ (t.engine n).lastCtx = k
      ∧ tget none (t.engine n).reqs tag = none ∧ t.evt.pend.getLsbD (16 + n) = true)
  ∧ (∀ (n k tag qout : Nat) (data : List Byte) (kind : EngReqKind) (x : BitVec 64) (dt : List (BitVec 64)) (s : State),
    n < 96 → k < 4 → tget none (s.engine n).reqs tag = some ⟨k, true, kind, x, dt⟩ → s.dev.mode ≠ .hold →
    Answers (.engineNocResponse n tag 0 qout data) s fun t =>
      (∀ j, j < 4 → t.ctx (4 * n + j) =
        if (s.ctx (4 * n + j)).state = .waitNoc ∧ ((s.ctx (4 * n + j)).wait = .reissue
            ∨ ((s.ctx (4 * n + j)).wait = .ownPosted ∧ j = k))
          then { s.ctx (4 * n + j) with
            state := .ready, posted := if j = k then (s.ctx (4 * n + j)).posted - 1 else (s.ctx (4 * n + j)).posted }
        else if (s.ctx (4 * n + j)).state = .waitNoc ∧ (s.ctx (4 * n + j)).wait = .fence
            ∧ (if j = k then (s.ctx (4 * n + j)).posted - 1 else (s.ctx (4 * n + j)).posted) = 0
          then { s.ctx (4 * n + j) with
            state := .ready, pc := (s.ctx (4 * n + j)).pc + 1,
            posted := if j = k then (s.ctx (4 * n + j)).posted - 1 else (s.ctx (4 * n + j)).posted }
        else { s.ctx (4 * n + j) with
          posted := if j = k then (s.ctx (4 * n + j)).posted - 1 else (s.ctx (4 * n + j)).posted })
      ∧ (t.engine n).postedErr = (s.engine n).postedErr ∧ t.evt = s.evt)
  ∧ (∀ (qout g st d : Nat) (data : List Byte) (c : Ctx) (w : Nat → BitVec 64),
    w = (fun i => BitVec.ofNat 64 (ofLe ((data.drop (8 * i)).take 8))) → g < 4 →
    (∀ r, (writeAnswer (.pop g st) qout data c).reg r = if r = st then BitVec.ofNat 64 qout
      else if (qout < 2 ∧ r / 4 = g) then w (r % 4) else c.reg r)
    ∧ (∀ r, (writeAnswer (.push st) qout data c).reg r = if r = st then BitVec.ofNat 64 qout else c.reg r)
    ∧ (∀ r, (writeAnswer (.load d) qout data c).reg r = if r = d then w 0 else c.reg r)
    ∧ (∀ r, (writeAnswer (.load4 g) qout data c).reg r = if r / 4 = g then w (r % 4) else c.reg r)
    ∧ (∀ r, (writeAnswer .store qout data c).reg r = c.reg r)
    ∧ (∀ (b : Bool) (r : Nat), (writeAnswer (.atomic b d) qout data c).reg r = if r = d then w 0 else c.reg r))
  ∧ (∀ (p at_ : Nat) (e : EdgeEv) (rest : List (Nat × EdgeEv)) (s : State), p < 960 → (s.pin p).flying = (at_, e) :: rest →
    at_ ≤ s.now → exec (.edgeEventArrive p) s = .next (s.modPin p fun x => { x with
      flying := rest, stored := insertEdge e x.stored }))
  ∧ (∀ (e : EdgeEv) (l : List EdgeEv), (insertEdge e l).Perm (e :: l)
    ∧ (l.Pairwise (fun a b => a.time ≤ b.time) → (insertEdge e l).Pairwise fun a b => a.time ≤ b.time))
  ∧ (∀ (p : Nat) (e : EdgeEv) (rest : List EdgeEv) (s : State), p < 960 → (s.pin p).stored = e :: rest →
    e.time / 16 ≤ s.now + 12 → exec (.edgeRelease p) s = .next (s.modPin p fun x => { x with
      stored := rest, released := x.released ++ [e], returning := x.returning ++ [s.now + 20] }))
  ∧ (∀ (p : Nat) (e : EdgeEv) (rest : List EdgeEv) (s : State), p < 960 → (s.pin p).released = e :: rest →
    e.time / 16 ≤ s.now → exec (.edgeFire p) s = .next (s.modPin p fun x => { x with
      released := rest,
      out := if pinsReleased s = false then x.out else if e.act = 0 then 0 else if e.act = 1 then 1
        else if e.act = 2 then 2 else if x.out = 1 then 0 else 1 }))
  ∧ (∀ (p : Nat) (s : State), p < 960 →
    ((∀ e rest, (s.pin p).flying = e :: rest → s.now < e.1) → exec (.edgeEventArrive p) s = .next s)
    ∧ ((∀ e rest, (s.pin p).stored = e :: rest → s.now + 12 < e.time / 16) → exec (.edgeRelease p) s = .next s)
    ∧ ((∀ e rest, (s.pin p).released = e :: rest → s.now < e.time / 16) → exec (.edgeFire p) s = .next s)
    ∧ ((∀ e rest, (s.pin p).returning = e :: rest → s.now < e) → exec (.edgeCreditReturn p) s = .next s))
  ∧ (∀ (p at_ : Nat) (rest : List Nat) (s : State), p < 960 → (s.pin p).returning = at_ :: rest → at_ ≤ s.now →
    (s.pin p).owner < 96 → s.dev.mode ≠ .hold → Answers (.edgeCreditReturn p) s fun t =>
      t.pin p = { s.pin p with returning := rest, credits := (s.pin p).credits + 1 }
      ∧ (∀ m, m ≠ p → t.pin m = s.pin m)
      ∧ (∀ j, t.ctx j = if j / 4 = (s.pin p).owner ∧ (s.ctx j).state = .waitPin ∧ (s.ctx j).pinWait = p
        then { s.ctx j with state := .ready } else s.ctx j)
      ∧ t = { s with eng := { s.eng with pins := t.eng.pins, ctxs := t.eng.ctxs } })
  ∧ (∀ (p at_ : Nat) (rest : List Nat) (s : State), p < 960 → (s.pin p).returning = at_ :: rest → at_ ≤ s.now →
    96 ≤ (s.pin p).owner ∨ s.dev.mode = .hold → exec (.edgeCreditReturn p) s = .next (s.modPin p fun x => { x with
      returning := rest, credits := x.credits + 1 }))

/-- R186, R187, R214: the walker of a local memory counts what it reads and moves on, wrapping at 4,096; the oldest
corrected word is written back; CLR_COUNTS clears CE and UE. Bits that flipped meanwhile are seen by the walk; with the
clocks stopped, or in HOLD, neither runs. R208, R210, R211: the table of a cluster's states, row by row, each with its
action: 11 credits requested and returned, ENG_CLUSTER following, contexts parked and resumed, the local memories wiped.
In HOLD no context changes state.
It rests on choices of the model: log 65 and 69. -/
def Obligations.ClustersAndMemories : Prop :=
  (∀ (n w : Nat) (d : Bool) (s : State), n < 96 → clusterRuns s (n / 8) = true → s.dev.mode ≠ .hold →
    w = (if d then (s.engine n).dmemWalk else (s.engine n).imemWalk) → flipKind (eword s d n w).flips = 0 →
    exec (.engMemWalk n d []) s = .next (s.modEngine n fun e => if d then { e with dmemWalk := (w + 1) % 4096 }
      else { e with imemWalk := (w + 1) % 4096 }))
  ∧ (∀ (n w : Nat) (d : Bool) (s : State), n < 96 → clusterRuns s (n / 8) = true → s.dev.mode ≠ .hold →
    w = (if d then (s.engine n).dmemWalk else (s.engine n).imemWalk) → flipKind (eword s d n w).flips = 1 →
    exec (.engMemWalk n d []) s = .next (s.modEngine n fun e =>
      if d then { e with ce := min 32767 (e.ce + 1), dmemWalk := (w + 1) % 4096,
                         dmemWb := if w ∈ e.dmemWb then e.dmemWb else e.dmemWb ++ [w] }
      else { e with ce := min 32767 (e.ce + 1), imemWalk := (w + 1) % 4096,
                    imemWb := if w ∈ e.imemWb then e.imemWb else e.imemWb ++ [w] }))
  ∧ (∀ (n w : Nat) (d : Bool) (s : State), n < 96 → clusterRuns s (n / 8) = true → s.dev.mode ≠ .hold →
    w = (if d then (s.engine n).dmemWalk else (s.engine n).imemWalk) → 2 ≤ flipKind (eword s d n w).flips →
    exec (.engMemWalk n d []) s = .next (s.modEngine n fun e =>
      if d then { e with ue := min 127 (e.ue + 1), dmemUe := true, dmemWalk := (w + 1) % 4096 }
      else { e with ue := min 127 (e.ue + 1), imemUe := true, imemWalk := (w + 1) % 4096 }))
  ∧ (∀ (n w : Nat) (d : Bool) (m : BitVec 72) (s : State), n < 96 → w < 4096 → clusterRuns s (n / 8) = true →
    s.dev.mode ≠ .hold → exec (.engMemWalk n d [(w, m)]) s
      = exec (.engMemWalk n d []) (setEword d n w { eword s d n w with flips := (eword s d n w).flips ^^^ m } s))
  ∧ (∀ (n w : Nat) (rest : List Nat) (d : Bool) (s : State), n < 96 → clusterRuns s (n / 8) = true → s.dev.mode ≠ .hold →
    (if d then (s.engine n).dmemWb else (s.engine n).imemWb) = w :: rest → flipKind (eword s d n w).flips = 1 →
    Answers (.engMemWriteback n d) s fun t =>
      t = ({ s with eng := { s.eng with dmem := t.eng.dmem, imem := t.eng.imem } }.modEngine n fun e =>
        if d then { e with dmemWb := rest } else { e with imemWb := rest })
      ∧ eword t d n w = ⟨ewordData (eword s d n w), 0⟩
      ∧ ∀ (b : Bool) (m v : Nat), v < 4096 → w < 4096 → b ≠ d ∨ m ≠ n ∨ v ≠ w → eword t b m v = eword s b m v)
  ∧ (∀ (n : Nat) (d : Bool) (u : List (Nat × BitVec 72)) (s : State), clusterRuns s (n / 8) = false ∨ s.dev.mode = .hold →
    exec (.engMemWalk n d u) s = .next s ∧ exec (.engMemWriteback n d) s = .next s)
  ∧ (∀ (n : Nat) (s : State), n < 96 → exec (.engClrCounts n) s = .next (s.modEngine n fun e => { e with ce := 0, ue := 0 }))
  ∧ (∀ (c : Nat) (s : State), c < 12 → (s.cluster c).state = .off → exec (.clusterEnable c) s = .next
    ((s.modCluster c fun x => { x with state := .waitGrant }).modSupply 0 fun u =>
      { u with newReqs := u.newReqs ++ [⟨3, c, 5, 11, 0⟩] }))
  ∧ (∀ (c : Nat) (s : State), c < 12 → (s.cluster c).state = .parking ∨ (s.cluster c).state = .draining →
    exec (.clusterEnable c) s = .next (s.modCluster c fun x => { x with pendingEnable := true })
    ∧ exec (.clusterDisable c) s = .next (finishArg 0x0705 c (· = 1) stWrong
      [BitVec.ofNat 8 (clusterState (s.cluster c).state)] (s.modCluster c fun x => { x with pendingEnable := false })))
  ∧ (∀ (c : Nat) (s : State), c < 12 → (s.cluster c).state = .wiping → (s.cluster c).disablePending = true →
    exec (.clusterEnable c) s = .next (finishArg 0x0705 c (· = 0) stWrong [2]
      (s.modCluster c fun x => { x with disablePending := false })))
  ∧ (∀ (c : Nat) (s : State), c < 12 → (s.cluster c).state = .wiping → exec (.clusterDisable c) s = .next
    (finishArg 0x0705 c (· = 1) stWrong [2] (s.modCluster c fun x => { x with disablePending := true })))
  ∧ (∀ (c : Nat) (s : State), c < 12 → (s.cluster c).state = .waitGrant → exec (.clusterDisable c) s = .next
    (finishArg 0x0705 c (· = 0) stOk [0] (finishArg 0x0705 c (· = 1) stWrong [0]
      (withdraw 3 c (s.modCluster c fun x => { x with state := .off })))))
  ∧ (∀ (c : Nat) (s : State), c < 12 → (s.cluster c).state = .on → Answers (.clusterDisable c) s fun t =>
    (t.cluster c).state = .parking ∧ (t.cluster c).serving = false ∧ (∀ m, m ≠ c → t.cluster m = s.cluster m)
    ∧ t = settle { s with eng := { s.eng with
      clusters := t.eng.clusters,
      ctxs := if s.dev.mode = .hold then s.eng.ctxs else
        tmap {} (fun i x => if i / 32 = c then (if x.state = .waitTick then
          { x with state := .parked, parkedEvent := false } else if x.state = .waitEvent then
          { x with state := .parked, parkedEvent := true } else x) else x) s.eng.ctxs } })
  ∧ (∀ (c : Nat) (s : State), c < 12 → (s.cluster c).state = .on → exec (.clusterEnable c) s = .next s)
  ∧ (∀ (c : Nat) (s : State), c < 12 → (s.cluster c).state = .off → exec (.clusterDisable c) s = .next s)
  ∧ (∀ (c : Nat) (s : State), c < 12 → (s.cluster c).state = .wiping → (s.cluster c).disablePending = false →
    Answers (.clusterWipeDone c) s fun t => (t.cluster c).state = .on ∧ (t.cluster c).serving = true
      ∧ ∀ n w, n / 8 = c → w < 4096 → eword t false n w = {} ∧ eword t true n w = {})
  ∧ (∀ (c : Nat) (s : State), c < 12 → (s.cluster c).state = .wiping → (s.cluster c).disablePending = true →
    Answers (.clusterWipeDone c) s fun t =>
      (t.cluster c).state = (if (s.cluster c).pendingEnable then .waitGrant else .off) ∧ (t.cluster c).disablePending = false
      ∧ ∀ n w, n / 8 = c → w < 4096 → eword t false n w = {} ∧ eword t true n w = {})
  ∧ (∀ (c : Nat) (s : State), c < 12 → (s.cluster c).state = .parking →
    (∀ i, i < 32 → (s.ctx (32 * c + i)).state = .idle ∨ (s.ctx (32 * c + i)).state = .faulted
      ∨ (s.ctx (32 * c + i)).state = .parked) →
    exec (.clusterParked c) s = .next (s.modCluster c fun x => { x with state := .draining, fence := true }))
  ∧ (∀ (c i : Nat) (s : State), c < 12 → i < 32 → (s.ctx (32 * c + i)).state ≠ .idle →
    (s.ctx (32 * c + i)).state ≠ .faulted → (s.ctx (32 * c + i)).state ≠ .parked → exec (.clusterParked c) s = .next s)
  ∧ (∀ (e : Nat → Instr) (c : Nat) (s : State), c < 12 → s.dev.mode ≠ .hold →
      (e = Instr.clusterParkTimeout ∧ (s.cluster c).state = .parking)
      ∨ (e = Instr.clusterDrainTimeout ∧ (s.cluster c).state = .draining) →
    Answers (e c) s fun t => t.cluster c = { s.cluster c with
        state := .on, serving := true, fence := false, pendingEnable := false, busyRefused := true }
      ∧ (∀ m, m ≠ c → t.cluster m = s.cluster m) ∧ t.evt.pend.getLsbD 10 = true
      ∧ (∀ i, i < 32 → (t.ctx (32 * c + i)).state ≠ .parked))
  ∧ (∀ (e : Nat → Instr) (c : Nat) (s : State), s.dev.mode = .hold →
    e = Instr.clusterParkTimeout ∨ e = Instr.clusterDrainTimeout ∨ e = Instr.clusterDrainIdle → exec (e c) s = .next s)
  ∧ (∀ (c : Nat) (s : State), c < 12 → (s.cluster c).state = .draining → s.dev.mode ≠ .hold →
    (∀ i, i < 8 → outstanding (s.engine (8 * c + i)) = 0) → Answers (.clusterDrainIdle c) s fun t =>
      t.cluster c = { s.cluster c with
        state := if (s.cluster c).pendingEnable then .waitGrant else .off, pendingEnable := false, disablePending := false,
        serving := false, fence := false }
      ∧ (∀ m, m ≠ c → t.cluster m = s.cluster m)
      ∧ (∀ n w, n / 8 = c → w < 4096 → eword t false n w = {} ∧ eword t true n w = {})
      ∧ ∀ i, i < 32 → (t.ctx (32 * c + i)).state = .idle)

/-- R186, R188, R194, R201, R225: the engine commands. 0x0701 loads words while every context of the engine stands, with a
PENDING response before the final one; 0x0702 starts a context; 0x0703 stops one now or asks for it; 0x0705 follows the
cluster's states; 0x0706 assigns a pin whose old owner holds its four credits, and no engine owns more than 32; and what each
refuses, in the order of R689. That both responses of a command that ends at once come in one step is the model's choice (log
150), and so is that a FAULTED context is IDLE at once (log 67).
It rests on choices of the model: log 67 and 150. -/
def Obligations.EngineCommands : Prop :=
  (∀ (q : CmdCtx) (n mem offset len src : Nat) (data : List Byte) (s : State), n < 96 → mem ≤ 1 → offset % 8 = 0 →
    offset + len ≤ 32768 → src < 2 ^ 64 → MayIssue q 0x0701 16 s → clusterServes s (n / 8) = true → allStopped s n = true →
    ReadsPlain (mbxClass q.mbx) 130 src len data s → data.length = len →
    Answers (.engLoad q n mem offset len src) s fun t =>
      RepliedBoth q 0x0701 (loadWords (decide (mem = 1)) n offset data s).1 [] s t
      ∧ TakenFrom q.mbx 0x0701 (loadWords (decide (mem = 1)) n offset data s).2 t)
  ∧ (∀ (d : Bool) (n offset w : Nat) (data : List Byte) (s : State), n < 96 → offset % 8 = 0 → data.length % 8 = 0 →
    offset + data.length ≤ 32768 → w < 4096 → (loadWords d n offset data s).1 = stOk
      ∧ eword (loadWords d n offset data s).2 d n w =
        if (offset / 8 ≤ w ∧ w < (offset + data.length) / 8)
          then ⟨BitVec.ofNat 64 (ofLe ((data.drop (8 * w - offset)).take 8)), 0⟩ else eword s d n w)
  ∧ (∀ (d : Bool) (n offset w : Nat) (data : List Byte) (s : State), n < 96 → offset % 8 = 0 → data.length < 8 → data ≠ [] →
    w = offset / 8 → w < 4096 →
    (flipKind (eword s d n w).flips < 2 → (loadWords d n offset data s).1 = stOk
      ∧ eword (loadWords d n offset data s).2 d n w = ⟨BitVec.ofNat 64 (ofLe (data
        ++ (leBytes 8 (ewordData (eword s d n w)).toNat).drop data.length)), 0⟩)
    ∧ (2 ≤ flipKind (eword s d n w).flips → (loadWords d n offset data s).1 = stIntegrity
      ∧ eword (loadWords d n offset data s).2 d n w = eword s d n w))
  ∧ (∀ (q : CmdCtx) (n mem offset len src : Nat) (s : State), n < 256 → mem < 256 → offset < 2 ^ 16 → len < 2 ^ 32 →
    src < 2 ^ 64 → MayIssue q 0x0701 16 s →
    (96 ≤ n ∨ 2 ≤ mem ∨ offset % 8 ≠ 0 ∨ 32768 < offset + len → Answers (.engLoad q n mem offset len src) s fun t =>
      Replied q 0x0701 stBadArg true [] s t ∧ TakenFrom q.mbx 0x0701 s t)
    ∧ (n < 96 → mem < 2 → offset % 8 = 0 → offset + len ≤ 32768 →
      (clusterServes s (n / 8) = false → Answers (.engLoad q n mem offset len src) s fun t =>
        Replied q 0x0701 stNotReady true [] s t ∧ TakenFrom q.mbx 0x0701 s t)
      ∧ (clusterServes s (n / 8) = true → allStopped s n = false → Answers (.engLoad q n mem offset len src) s fun t =>
        Replied q 0x0701 stWrong true [] s t ∧ TakenFrom q.mbx 0x0701 s t)))
  ∧ (∀ (q : CmdCtx) (n k pc : Nat) (dl v0 : BitVec 64) (s : State), n < 96 → k < 4 → pc < 8192 → MayIssue q 0x0702 24 s →
    clusterServes s (n / 8) = true → s.dev.mode ≠ .hold →
    (s.ctx (4 * n + k)).state = .idle ∨ (s.ctx (4 * n + k)).state = .faulted →
    Answers (.engCtxStart q n k pc dl v0) s fun t => Replied q 0x0702 stOk true [] s t
      ∧ TakenFrom q.mbx 0x0702 (s.modCtx (4 * n + k) fun c => { c with
        state := .ready, pc := BitVec.ofNat 13 pc, deadline := dl, fault := 0, detail := 0, regs := tset 0 [] 0 v0,
        misses := 0, missed := false, stopAtWait := false, stopNow := false }) t)
  ∧ (∀ (q : CmdCtx) (n k pc : Nat) (dl v0 : BitVec 64) (s : State), n < 256 → k < 256 → pc < 2 ^ 16 →
    MayIssue q 0x0702 24 s →
    (96 ≤ n ∨ 4 ≤ k ∨ 8192 ≤ pc → Answers (.engCtxStart q n k pc dl v0) s fun t =>
      Replied q 0x0702 stBadArg true [] s t ∧ TakenFrom q.mbx 0x0702 s t)
    ∧ (n < 96 → k < 4 → pc < 8192 →
      (clusterServes s (n / 8) = false → Answers (.engCtxStart q n k pc dl v0) s fun t =>
        Replied q 0x0702 stNotReady true [] s t ∧ TakenFrom q.mbx 0x0702 s t)
      ∧ (clusterServes s (n / 8) = true →
        s.dev.mode = .hold ∨ ((s.ctx (4 * n + k)).state ≠ .idle ∧ (s.ctx (4 * n + k)).state ≠ .faulted) →
        Answers (.engCtxStart q n k pc dl v0) s fun t =>
          Replied q 0x0702 stWrong true [] s t ∧ TakenFrom q.mbx 0x0702 s t)))
  ∧ (∀ (q : CmdCtx) (n k mode : Nat) (s : State), n < 96 → k < 4 → mode ≤ 1 → MayIssue q 0x0703 3 s →
    clusterServes s (n / 8) = true → (∀ m, m < 18 → (s.mailbox m).tasks = []) →
    (s.ctx (4 * n + k)).state = .idle ∨ ((s.ctx (4 * n + k)).state = .faulted ∧ s.dev.mode ≠ .hold) →
    Answers (.engCtxStop q n k mode) s fun t => RepliedBoth q 0x0703 stOk [0] s t
      ∧ TakenFrom q.mbx 0x0703 (if (s.ctx (4 * n + k)).state = .idle then s
        else s.modCtx (4 * n + k) fun c => { c with state := .idle }) t)
  ∧ (∀ (q : CmdCtx) (n k mode : Nat) (c' : Ctx → Ctx) (s : State), n < 96 → k < 4 → mode ≤ 1 → MayIssue q 0x0703 3 s →
    clusterServes s (n / 8) = true → s.dev.mode ≠ .hold → (∀ m, m < 18 → (s.mailbox m).tasks = []) →
    (mode = 0 ∧ ((s.ctx (4 * n + k)).state = .ready ∨ (s.ctx (4 * n + k)).state = .running
        ∨ (s.ctx (4 * n + k)).state = .waitNoc ∨ (s.ctx (4 * n + k)).state = .waitPin)
      ∧ c' = fun c => { c with stopAtWait := true })
    ∨ (mode = 1 ∧ (s.ctx (4 * n + k)).state = .waitNoc ∧ (s.ctx (4 * n + k)).wait = .answer
      ∧ c' = fun c => { c with stopNow := true }) →
    Answers (.engCtxStop q n k mode) s fun t =>
      Replied q 0x0703 stPending false [] s t ∧ Waits q 0x0703 (4 * n + k) 0 s t
      ∧ TakenFrom q.mbx 0x0703 (s.modCtx (4 * n + k) c') t)
  ∧ (∀ (q : CmdCtx) (n k mode : Nat) (s : State), n < 96 → k < 4 → MayIssue q 0x0703 3 s →
    clusterServes s (n / 8) = true → s.dev.mode ≠ .hold → (∀ m, m < 18 → (s.mailbox m).tasks = []) →
    s.sor.restarting = false →
    (mode ≤ 1 ∧ ((s.ctx (4 * n + k)).state = .waitTick ∨ (s.ctx (4 * n + k)).state = .waitEvent
        ∨ (s.ctx (4 * n + k)).state = .parked))
    ∨ (mode = 1 ∧ ((s.ctx (4 * n + k)).state = .ready ∨ (s.ctx (4 * n + k)).state = .running
        ∨ (s.ctx (4 * n + k)).state = .waitPin
        ∨ ((s.ctx (4 * n + k)).state = .waitNoc ∧ (s.ctx (4 * n + k)).wait ≠ .answer))) →
    Answers (.engCtxStop q n k mode) s fun t => RepliedBoth q 0x0703 stOk [0] s t
      ∧ TakenFrom q.mbx 0x0703 (s.modCtx (4 * n + k) fun c => { c with
        state := .idle, stopAtWait := false, stopNow := false }) t)
  ∧ (∀ (q : CmdCtx) (n k mode : Nat) (s : State), n < 256 → k < 256 → mode < 256 → MayIssue q 0x0703 3 s →
    (∀ m, m < 18 → (s.mailbox m).tasks = []) →
    (96 ≤ n ∨ 4 ≤ k ∨ 2 ≤ mode → Answers (.engCtxStop q n k mode) s fun t =>
      Replied q 0x0703 stBadArg true [] s t ∧ TakenFrom q.mbx 0x0703 s t)
    ∧ (n < 96 → k < 4 → mode < 2 →
      (clusterServes s (n / 8) = false → Answers (.engCtxStop q n k mode) s fun t =>
        Replied q 0x0703 stNotReady true [] s t ∧ TakenFrom q.mbx 0x0703 s t)
      ∧ (clusterServes s (n / 8) = true → (s.ctx (4 * n + k)).state ≠ .idle → s.dev.mode = .hold →
        Answers (.engCtxStop q n k mode) s fun t =>
          Replied q 0x0703 stWrong true [] s t ∧ TakenFrom q.mbx 0x0703 s t)))
  ∧ (∀ (q : CmdCtx) (n k first : Nat) (s : State), n < 256 → k < 256 → first < 256 → MayIssue q 0x0704 3 s →
    (96 ≤ n ∨ 4 ≤ k ∨ 13 ≤ first → Answers (.engCtxRead q n k first) s fun t =>
      Replied q 0x0704 stBadArg true [] s t ∧ TakenFrom q.mbx 0x0704 s t)
    ∧ (n < 96 → k < 4 → first < 13 → (s.ctx (4 * n + k)).state ≠ .idle → (s.ctx (4 * n + k)).state ≠ .parked →
      (s.ctx (4 * n + k)).state ≠ .faulted → Answers (.engCtxRead q n k first) s fun t =>
        Replied q 0x0704 stWrong true [] s t ∧ TakenFrom q.mbx 0x0704 s t))
  ∧ (∀ (q : CmdCtx) (c en : Nat) (s : State), c < 12 → MayIssue q 0x0705 2 s →
    (en = 1 ∧ (s.cluster c).state = .on) ∨ (en = 0 ∧ (s.cluster c).state = .off) →
    Answers (.engClusterEnable q c en) s fun t =>
      Replied q 0x0705 stOk true [if en = 1 then 3 else 0] s t ∧ TakenFrom q.mbx 0x0705 s t)
  ∧ (∀ (q : CmdCtx) (c : Nat) (s : State), c < 12 → MayIssue q 0x0705 2 s → s.dev.mode ≠ .hold →
    (s.cluster c).state = .off → Answers (.engClusterEnable q c 1) s fun t => Replied q 0x0705 stPending false [] s t
      ∧ Waits q 0x0705 c 1 s t ∧ TakenFrom q.mbx 0x0705 ((s.modCluster c fun x => { x with state := .waitGrant }).modSupply 0
        fun u => { u with newReqs := u.newReqs ++ [⟨3, c, 5, 11, 0⟩] }) t)
  ∧ (∀ (q : CmdCtx) (c : Nat) (s : State), c < 12 → MayIssue q 0x0705 2 s → s.dev.mode ≠ .hold →
    (∀ m, m < 18 → (s.mailbox m).tasks = []) → (s.cluster c).state = .waitGrant →
    Answers (.engClusterEnable q c 0) s fun t => RepliedBoth q 0x0705 stOk [0] s t
      ∧ TakenFrom q.mbx 0x0705 (withdraw 3 c (s.modCluster c fun x => { x with state := .off })) t)
  ∧ (∀ (q : CmdCtx) (c en : Nat) (s : State), c < 256 → en < 256 → MayIssue q 0x0705 2 s →
    (12 ≤ c ∨ 2 ≤ en → Answers (.engClusterEnable q c en) s fun t =>
      Replied q 0x0705 stBadArg true [] s t ∧ TakenFrom q.mbx 0x0705 s t)
    ∧ (c < 12 → s.dev.mode = .hold → (en = 0 ∧ (s.cluster c).state ≠ .off) ∨ (en = 1 ∧ (s.cluster c).state ≠ .on) →
      Answers (.engClusterEnable q c en) s fun t =>
        Replied q 0x0705 stWrong true [] s t ∧ TakenFrom q.mbx 0x0705 s t))
  ∧ (∀ (q : CmdCtx) (p owner ovf late : Nat) (s : State), p < 960 → ovf ≤ 1 → late ≤ 1 → MayIssue q 0x0706 5 s →
    (s.pin p).sched = true → owner < 96 → pinEast p = decide (48 ≤ owner) → pinsOwned s owner < 32 →
    clusterServes s (owner / 8) = true → 96 ≤ (s.pin p).owner ∨ (s.pin p).credits = 4 →
    Answers (.engPinAssign q p owner ovf late) s fun t => Replied q 0x0706 stOk true [] s t
      ∧ TakenFrom q.mbx 0x0706 (s.modPin p fun x => { x with
        owner := owner, ovfFault := decide (ovf = 1), lateAtOnce := decide (late = 1) }) t)
  ∧ (∀ (q : CmdCtx) (p ovf late : Nat) (s : State), p < 960 → ovf ≤ 1 → late ≤ 1 → MayIssue q 0x0706 5 s →
    (s.pin p).sched = true → (s.pin p).owner < 96 → (s.pin p).credits = 4 → clusterServes s ((s.pin p).owner / 8) = true →
    Answers (.engPinAssign q p 0xFF ovf late) s fun t => Replied q 0x0706 stOk true [] s t
      ∧ TakenFrom q.mbx 0x0706 (s.modPin p fun x => { x with
        owner := 0x7F, ovfFault := decide (ovf = 1), lateAtOnce := decide (late = 1) }) t)
  ∧ (∀ (q : CmdCtx) (p owner ovf late : Nat) (s : State), p < 960 → ovf ≤ 1 → late ≤ 1 → MayIssue q 0x0706 5 s →
    (s.pin p).sched = true → owner < 96 → pinEast p = decide (48 ≤ owner) → pinsOwned s owner < 32 →
    clusterServes s (owner / 8) = true → (s.pin p).owner < 96 → (s.pin p).credits ≠ 4 →
    Answers (.engPinAssign q p owner ovf late) s fun t => Replied q 0x0706 stWrong true [] s t ∧ TakenFrom q.mbx 0x0706 s t)
  ∧ (∀ (q : CmdCtx) (p owner ovf late : Nat) (s : State), p < 2 ^ 16 → owner < 256 → ovf < 256 → late < 256 →
    MayIssue q 0x0706 5 s →
    960 ≤ p ∨ 2 ≤ ovf ∨ 2 ≤ late ∨ (96 ≤ owner ∧ owner ≠ 255) ∨ (s.pin p).sched = false
      ∨ (owner < 96 ∧ pinEast p ≠ decide (48 ≤ owner)) ∨ (owner < 96 ∧ 32 ≤ pinsOwned s owner) →
    Answers (.engPinAssign q p owner ovf late) s fun t =>
      Replied q 0x0706 stBadArg true [] s t ∧ TakenFrom q.mbx 0x0706 s t)
  ∧ (∀ (q : CmdCtx) (p owner ovf late : Nat) (s : State), p < 960 → ovf ≤ 1 → late ≤ 1 → MayIssue q 0x0706 5 s →
    (s.pin p).sched = true → owner < 96 → pinEast p = decide (48 ≤ owner) → pinsOwned s owner < 32 →
    clusterServes s (owner / 8) = false →
    Answers (.engPinAssign q p owner ovf late) s fun t =>
      Replied q 0x0706 stNotReady true [] s t ∧ TakenFrom q.mbx 0x0706 s t)
  ∧ (∀ (q : CmdCtx) (n mem offset : Nat) (s : State), n < 256 → mem < 256 → offset < 2 ^ 16 → MayIssue q 0x0707 4 s →
    (96 ≤ n ∨ 2 ≤ mem ∨ offset % 32 ≠ 0 ∨ 32736 < offset → Answers (.engMemRead q n mem offset) s fun t =>
      Replied q 0x0707 stBadArg true [] s t ∧ TakenFrom q.mbx 0x0707 s t)
    ∧ (n < 96 → mem < 2 → offset % 32 = 0 → offset ≤ 32736 → clusterServes s (n / 8) = false →
      Answers (.engMemRead q n mem offset) s fun t =>
        Replied q 0x0707 stNotReady true [] s t ∧ TakenFrom q.mbx 0x0707 s t))
  ∧ (∀ (q : CmdCtx) (c : Nat) (s : State), 12 ≤ c → c < 256 → MayIssue q 0x0708 1 s → Answers (.engStatus q c) s fun t =>
    Replied q 0x0708 stBadArg true [] s t ∧ TakenFrom q.mbx 0x0708 s t)

/-! ### Network on chip (chapter 8) -/

/-- R22, R23, R303, R314, R315, R316: by the default routes every pier reaches every pier in at most 24 links, and packets
travel links that join two piers: the link back from the other end leads to the pier again, and a ring link passes one of
the two datelines only between hub piers 23 and 0. -/
def Obligations.DefaultPaths : Prop :=
  (∀ a b, a < 120 → b < 120 → follow b 24 a = b)
  ∧ (∀ a b, a < 120 → b < 120 → a ≠ b → ∃ q, linkTo a (firstPort a b) = some q ∧ q < 120)
  ∧ (∀ p j q, p < 120 → j < 8 → linkTo p j = some q → linkTo q (inputOf p j) = some p)
  ∧ (∀ p j q, p < 120 → j < 8 → linkTo p j = some q → (dateline p j = true ↔ (p = 119 ∧ q = 96) ∨ (p = 96 ∧ q = 119)))

/-- R307, R310, R313, R316, R319, R325, R330, R421: an injection. A management packet of another source is answered RIGHTS; a
request that names no target, crosses a 256-byte boundary or goes to an unreachable pier is answered DECODE; one held back by
the epoch, or with no room, waits; one the rights table refuses is answered RIGHTS and recorded; another enters its source pier
with OWN and NEXT read there, its units counted. A packet that its port does not have is no injection.
It rests on choices of the model: log 84, 85, 86 and 158. -/
def Obligations.NocInjection : Prop :=
  (∀ (x : Inject) (s : State), mayInject x s = true → x.opcode = 0x10 ∨ x.opcode = 0x11 →
    x.port ≠ 860 → x.port ≠ 861 → x.port ≠ 957 → exec (.nocInject x) s = .next (portAnswer x 2
      { s with noc := { s.noc with pending := tset false s.noc.pending x.port false } }))
  ∧ (∀ (x : Inject) (s : State), mayInject x s = true →
    ((x.opcode = 1 ∨ x.opcode = 2) ∧ 256 < x.addr % 256 + x.size % 256 + 1)
      ∨ ((x.opcode = 1 ∨ x.opcode = 2 ∨ x.opcode = 4 ∨ x.opcode = 5) ∧ addressPort s x.addr = none) →
    exec (.nocInject x) s = .next (portAnswer x 1
      { s with noc := { s.noc with pending := tset false s.noc.pending x.port false } }))
  ∧ (∀ (x : Inject) (d : Nat) (s : State), mayInject x s = true → x.opcode = 1 ∨ x.opcode = 2 ∨ x.opcode = 4 ∨ x.opcode = 5 →
    addressPort s x.addr = some d → d / 8 ≠ x.port / 8 → routeOwn s (x.port / 8) s.noc.epoch (d / 8) = 7 →
    exec (.nocInject x) s = .next (portAnswer x 1
      { s with noc := { s.noc with pending := tset false s.noc.pending x.port false } }))
  ∧ (∀ (x : Inject) (d : Nat) (s : State), mayInject x s = true → x.opcode ≠ 0x10 → x.opcode ≠ 0x11 →
    decoded s x s.noc.epoch = some d → heldBack s x s.noc.epoch = true
      ∨ hasRoom s (x.port / 8) (x.port % 8) (packetOf x d s.noc.epoch) = false →
    exec (.nocInject x) s = .next { s with noc := { s.noc with pending := tset false s.noc.pending x.port false } })
  ∧ (∀ (x : Inject) (d : Nat) (s : State), mayInject x s = true → x.opcode = 0x08 ∨ x.opcode = 0x09 ∨ x.opcode = 0x20 →
    decoded s x s.noc.epoch = some d → heldBack s x s.noc.epoch = false →
    hasRoom s (x.port / 8) (x.port % 8) (packetOf x d s.noc.epoch) = true →
    (tget {} s.noc.bw x.port).tx + 9 < statMax s.noc →
    Answers (.nocInject x) s fun t => t.noc.nextId = s.noc.nextId + 1
      ∧ (∃ f : Flight, tget none t.noc.flight s.noc.nextId = some f
        ∧ f.pkt = { packetOf x d s.noc.epoch with laPort := routeNext s (x.port / 8) s.noc.epoch (d / 8) }
        ∧ f.pier = x.port / 8 ∧ f.input = x.port % 8 ∧ f.exit = routeOwn s (x.port / 8) s.noc.epoch (d / 8)
        ∧ f.arrived = s.noc.cycle ∧ f.entered = s.noc.cycle)
      ∧ (∀ i, i ≠ s.noc.nextId → tget none t.noc.flight i = tget none s.noc.flight i)
      ∧ tget [] t.noc.out x.port = (if x.opcode = 0x20 then tget [] s.noc.out x.port
        else ⟨x.tag % 256, s.noc.epoch, s.noc.cycle⟩ :: tget [] s.noc.out x.port)
      ∧ (tget {} t.noc.bw x.port).tx = (tget {} s.noc.bw x.port).tx + 1 + (x.data.take 8).length
      ∧ (x.opcode = 0x20 → t.noc.replies.length + 1 = s.noc.replies.length))
  ∧ (∀ (x : Inject) (d : Nat) (rd wr ok : Bool) (u s : State), mayInject x s = true →
    (x.opcode = 1 ∧ rd = true ∧ wr = false) ∨ (x.opcode = 2 ∧ rd = false ∧ wr = true)
      ∨ ((x.opcode = 4 ∨ x.opcode = 5) ∧ rd = true ∧ wr = true) →
    decoded s x s.noc.epoch = some d → heldBack s x s.noc.epoch = false →
    hasRoom s (x.port / 8) (x.port % 8) (packetOf x d s.noc.epoch) = true →
    rightsJudge (sourceFields x.port x.src).cls (sourceFields x.port x.src).index rd wr x.addr (x.size % 256)
      { s with noc := { s.noc with pending := tset false s.noc.pending x.port false } } = (ok, u) →
    exec (.nocInject x) s = .next (if ok then enterPier x (packetOf x d s.noc.epoch) u
      else portAnswer x 2 (recordViolation (sourceFields x.port x.src).cls (sourceFields x.port x.src).index wr x.addr u)))
  ∧ (∀ (x : Inject) (s : State), mayInject x s = false → exec (.nocInject x) s = .next s)
  ∧ (∀ (x : Inject) (d : Nat) (e : Bool), x.opcode = 1 → ∃ p, p = packetOf x d e ∧ p.age = 0 ∧ p.rclass = false
    ∧ p.epoch = e ∧ p.srcPier = x.port / 8 ∧ p.srcPort = x.port % 8 ∧ p.destPier = d / 8 ∧ p.destPort = d % 8 ∧ p.vc = 0
    ∧ (x.port / 8 < 96 → x.port % 8 = 4 → p.srcClass = 3 ∧ p.srcIndex = x.port / 8)
    ∧ (x.port / 8 < 96 → x.port % 8 ≠ 4 → p.srcClass = 2 ∧ p.srcIndex = 8 * (x.port / 8 - 36) + x.src.index % 8))

/-- R309, R315, R316, R317, R320, R321, R340: one hop. The winner of the output's arbitration is of one virtual channel
and no header of it is older; it crosses with its age and its RCLASS, and takes the next port there; at a missing link
MISROUTE sets and a request is answered DECODE; at a broken one it is answered DOMAIN_OFF; other packets are dropped.
Single-bit errors of the link are corrected and counted at its receiver; a unit that shows a double-bit error is replayed.
R29, R94, R311, R318, R321, R326, R327, R330, R331: delivery, to the winner of the port's arbitration. A fence answers
requests DOMAIN_OFF and notes it; a port that does not serve answers DOMAIN_OFF; a response whose port's owner is off is
dropped; another packet is taken, its units counted: a request waits at its target, or is answered DECODE where the target
does not perform its opcode; a response ends its request, whose latency the monitors of the port put into their bins.
It rests on choices of the model: log 84, 88, 91, 92, 139, 159 and 170. -/
def Obligations.NocHopsAndDelivery : Prop :=
  (∀ (s : State) (p j id : Nat) (f : Flight) (l : List (Nat × Flight)), arbitrate s p j l = some (id, f) →
    (id, f) ∈ l ∧ ∀ e ∈ l, e.2.pkt.vc = f.pkt.vc → effectiveAge s e.2 ≤ effectiveAge s f)
  ∧ (∀ (s : State) (f : Flight), effectiveAge s f = min 255 (f.pkt.age + (s.noc.cycle - f.arrived) / 16))
  ∧ (∀ (p j q id n : Nat) (f : Flight) (l : List (BitVec 266)) (x : Packet) (s : State), nocRuns s = true → p < 120 → j < 8 →
    linkTo p j = some q → (s.pier p).linkFail.getLsbD j = false → f.pier = p → id < s.noc.nextId →
    arbitrate s p j (departing s p j) = some (id, f) →
    crossed { f.pkt with age := min 255 (effectiveAge s f + 1), rclass := f.pkt.rclass || dateline p j } l = .ok (x, n) →
    Answers (.nocHop p j l) s fun t =>
      tget none t.noc.flight id = none ∧ t.noc.nextId = s.noc.nextId + 1
      ∧ (∃ g : Flight, tget none t.noc.flight s.noc.nextId = some g ∧ g.pier = q ∧ g.input = inputOf p j
        ∧ g.exit = x.laPort ∧ g.arrived = s.noc.cycle ∧ g.entered = f.entered
        ∧ g.pkt = { x with laPort := routeNext s q x.epoch x.destPier })
      ∧ (∀ i, i ≠ id → i ≠ s.noc.nextId → tget none t.noc.flight i = tget none s.noc.flight i)
      ∧ (t.pier q).ce = (if n = 0 then (s.pier q).ce else min 65535 ((s.pier q).ce + n))
      ∧ (n = 0 → t = { s with noc := { s.noc with
        flight := t.noc.flight, nextId := t.noc.nextId, piers := t.noc.piers } })
      ∧ (n ≠ 0 → (t.nocGroup (pierGroup q)).causes.getLsbD 0 = true))
  ∧ (∀ x : Packet, crossed x [] = .ok (x, 0))
  ∧ (∀ (p j q id u : Nat) (f : Flight) (l : List (BitVec 266)) (s : State), nocRuns s = true → p < 120 → j < 8 →
    linkTo p j = some q → (s.pier p).linkFail.getLsbD j = false → f.pier = p →
    arbitrate s p j (departing s p j) = some (id, f) →
    crossed { f.pkt with age := min 255 (effectiveAge s f + 1), rclass := f.pkt.rclass || dateline p j } l = .error u →
    exec (.nocHop p j l) s = .next (linkReplay p j q u id f s))
  ∧ (∀ (p j id : Nat) (f : Flight) (l : List (BitVec 266)) (s : State), nocRuns s = true → p < 120 → j < 8 →
    linkTo p j = none → id < s.noc.nextId → arbitrate s p j (departing s p j) = some (id, f) →
    Answers (.nocHop p j l) s fun t => (t.pier p).misroute = true ∧ tget none t.noc.flight id = none
      ∧ (t.nocGroup (pierGroup p)).causes.getLsbD 3 = true)
  ∧ (∀ (p j q id : Nat) (f : Flight) (l : List (BitVec 266)) (s : State), nocRuns s = true → p < 120 → j < 8 →
    linkTo p j = some q → (s.pier p).linkFail.getLsbD j = true → arbitrate s p j (departing s p j) = some (id, f) →
    exec (.nocHop p j l) s = .next (turnAway p j 3 f.pkt (departs j id f s)))
  ∧ (∀ (p j : Nat) (l : List (BitVec 266)) (s : State), nocRuns s = false ∨ arbitrate s p j (departing s p j) = none →
    exec (.nocHop p j l) s = .next s)
  ∧ (∀ (p j code : Nat) (x : Packet) (s : State), x.vc = 0 → ∃ t, t = turnAway p j code x s
    ∧ (∃ g : Flight, tget none t.noc.flight s.noc.nextId = some g ∧ g.pier = p ∧ g.pkt.vc = 1 ∧ g.pkt.opcode = 0x20
      ∧ g.pkt.destPier = x.srcPier ∧ g.pkt.destPort = x.srcPort ∧ g.pkt.resp = code ∧ g.pkt.tag = x.tag ∧ g.pkt.data = []))
  ∧ (∀ (p j code : Nat) (x : Packet) (s : State), x.vc ≠ 0 → ∃ t, t = turnAway p j code x s
    ∧ (t.pier p).dropped = true ∧ (t.nocGroup (pierGroup p)).causes.getLsbD 4 = true ∧ t.noc.flight = s.noc.flight)
  ∧ (∀ (id k : Nat) (f : Flight) (s : State), nocRuns s = true → localPort id = true →
    arbitrate s (id / 8) (id % 8) ((heads s (id / 8)).filter fun e =>
      e.2.pkt.destPier = id / 8 && e.2.pkt.destPort = id % 8 && accepts s id e.2.pkt) = some (k, f) →
    exec (.nocDeliver id) s = .next { deliver id { f.pkt with age := min 255 (effectiveAge s f + 1) }
      (departs (id % 8) k f s) with pending := s.pending, fuse := s.fuse })
  ∧ (∀ (id : Nat) (s : State), nocRuns s = false ∨ localPort id = false → exec (.nocDeliver id) s = .next s)
  ∧ (∀ (id : Nat) (x : Packet) (s : State), x.vc ≠ 1 → fenceAt s id = true →
    deliver id x s = pierAnswer (id / 8) (id % 8) 3 x (nocCause (id / 8) 5 s))
  ∧ (∀ (id : Nat) (x : Packet) (s : State), x.vc ≠ 1 → fenceAt s id = false → shut s id = true →
    deliver id x s = pierAnswer (id / 8) (id % 8) 3 x s)
  ∧ (∀ (id : Nat) (x : Packet) (t s : State), x.vc ≠ 1 → fenceAt s id = false → shut s id = false →
    t = countRx id (1 + x.data.length) (countEj (id / 8) x.epoch s) →
    (performs id x = false → deliver id x s = answer ⟨⟨x.srcClass, x.srcIndex⟩, x.tag, 1, 0, []⟩ { t with noc := { t.noc with
      delivered := some x, waiting := t.noc.waiting ++ [(x, t.noc.cycle)] } })
    ∧ (performs id x = true → id ≠ 860 → fabricPort id = false → deliver id x s = { t with noc := { t.noc with
      delivered := some x, waiting := t.noc.waiting ++ [(x, t.noc.cycle)] } })
    ∧ (performs id x = true → fabricPort id = true → ((deliver id x s).tile (id / 8)).inbound
        = (s.tile (id / 8)).inbound ++ [⟨⟨x.srcClass, x.srcIndex⟩, x.tag⟩]
      ∧ ((deliver id x s).tile (id / 8)).inboundFree = (s.tile (id / 8)).inboundFree - (1 + x.data.length)))
  ∧ (∀ (id : Nat) (x : Packet) (s : State), x.vc = 1 → ownerOff s id = true →
    deliver id x s = dropPacket (id / 8) x (complete id x.tag s))
  ∧ (∀ (id tag : Nat) (o : OutReq) (l : List OutReq) (s : State), tget [] s.noc.out id = o :: l → o.tag = tag →
    ∃ t, t = complete id tag s ∧ tget [] t.noc.out id = l ∧ (∀ i, i ≠ id → tget [] t.noc.out i = tget [] s.noc.out i)
      ∧ ∀ m, m < 16 → t.monitor m = if (s.monitor m).en = true ∧ (s.monitor m).port = id then { s.monitor m with
          bins := tset 0 (s.monitor m).bins (latencyBin (s.noc.cycle - o.entered))
            (min (statMax s.noc) (tget 0 (s.monitor m).bins (latencyBin (s.noc.cycle - o.entered)) + 1)),
          max := max (s.monitor m).max (min (s.noc.cycle - o.entered) (2 ^ 32 - 1)) } else s.monitor m)
  ∧ (∀ l : Nat, latencyBin l ≤ 15 ∧ (latencyBin l = 0 ↔ l < 64) ∧ (latencyBin l = 15 ↔ 2 ^ 20 ≤ l)
    ∧ ∀ k, 1 ≤ k → k ≤ 14 → (latencyBin l = k ↔ 2 ^ (k + 5) ≤ l ∧ l < 2 ^ (k + 6)))

/-- R309, R323, R324, R332, R337, R338, R344, R346: links, epochs and statistics. A damaged unit is replayed and counted at its
receiver; the fourth failure of the same unit in a row ends the link, which is FATAL; SWITCH turns the epoch with the counters
of the new one cleared and is ignored while the old one is live; RETIRE ends it; a table in use is not written, and any write
to one is noted; the statistics clear.
It rests on choices of the model: log 85, 89, 93 and 117. -/
def Obligations.NocControl : Prop :=
  (∀ (p j q id u n : Nat) (f : Flight) (s : State), nocRuns s = true → p < 120 → j < 7 → linkTo p j = some q →
    (s.pier p).linkFail.getLsbD j = false → arbitrate s p j (departing s p j) = some (id, f) → u < 1 + f.pkt.data.length →
    n = (if f.failUnit = u then f.fails + 1 else 1) →
    (n < 4 → Answers (.nocLinkReplay (8 * p + j) u) s fun t =>
      (t.pier q).replay = min 65535 ((s.pier q).replay + 1)
      ∧ tget none t.noc.flight id = some { f with failUnit := u, fails := n }
      ∧ (∀ i, i ≠ id → tget none t.noc.flight i = tget none s.noc.flight i)
      ∧ (t.nocGroup (pierGroup q)).causes.getLsbD 1 = true ∧ (t.pier p).linkFail = (s.pier p).linkFail)
    ∧ (4 ≤ n → s.dev.mode = .run → Answers (.nocLinkReplay (8 * p + j) u) s fun t =>
      t.dev.mode = .hold ∧ t.dev.holdCause = 4 ∧ (t.pier p).linkFail.getLsbD j = true
      ∧ (t.nocGroup (pierGroup p)).causes.getLsbD 2 = true))
  ∧ (∀ (p j u : Nat) (s : State), j < 8 → nocRuns s = false ∨ arbitrate s p j (departing s p j) = none →
    exec (.nocLinkReplay (8 * p + j) u) s = .next s)
  ∧ (∀ (busy : List Nat) (s : State), nocRuns s = false ∨ s.noc.oldLive = true → exec (.nocEpochSwitch busy) s = .next s)
  ∧ (∀ (busy : List Nat) (s : State), nocRuns s = true → s.noc.oldLive = false →
    Answers (.nocEpochSwitch busy) s fun t => t.noc.epoch = !s.noc.epoch ∧ t.noc.oldLive = true
      ∧ (∀ p, t.pier p = if s.noc.epoch then { s.pier p with inj0 := 0, ej0 := 0 } else { s.pier p with inj1 := 0, ej1 := 0 })
      ∧ (∀ id, tget false t.noc.pending id = (busy.contains id && localPort id))
      ∧ t = { s with noc := { s.noc with
        epoch := !s.noc.epoch, oldLive := true, pending := t.noc.pending, piers := t.noc.piers } })
  ∧ (∀ s : State, exec .nocEpochRetire s = .next { s with noc := { s.noc with oldLive := false } })
  ∧ (∀ (fw e : Bool) (p d v : Nat) (s : State), e = s.noc.epoch ∨ s.noc.oldLive = true →
    writeRoute fw p e d v s = { s with noc := { s.noc with tableLive := true } })
  ∧ (∀ (p d v : Nat) (s : State), s.noc.oldLive = false → v < 64 → ∃ t, t = writeRoute true p (!s.noc.epoch) d v s
    ∧ routeOwn t p (!s.noc.epoch) d = v % 8 ∧ routeNext t p (!s.noc.epoch) d = v / 8 ∧ t.noc.tableLive = s.noc.tableLive
    ∧ writeRoute false p (!s.noc.epoch) d v s = s)
  ∧ (∀ s : State, Answers .nocClrStats s fun t => (∀ id, tget {} t.noc.bw id = {})
    ∧ (∀ m, t.monitor m = { s.monitor m with max := 0, bins := [] })
    ∧ t = { s with noc := { s.noc with bw := t.noc.bw, monitors := t.noc.monitors } })
  ∧ (∀ (m port : Nat) (en : Bool) (s : State), m < 16 → port < 1024 → exec (.nocHmCfgWrite m en port) s = .next
    (s.modMonitor m fun x => if x.port = port then { x with en } else { en, port }))

/-! ### Scratch banks (chapter 9) -/

/-- R249, R307, R350 to R353, R355, R361: the accesses to a bank that the source owns, of one unit: a read delivers its
bytes, corrected where one symbol is wrong, or POISON; a write of the whole unit stores it without reading, one of a part
merges; the atomics answer the old eight bytes and store the sum or the new value. Another source is answered RIGHTS, in HOLD
every write; with SCRATCH clear it is DOMAIN_OFF, and an access that crosses 256 bytes is DECODE. A bank serves the request
that wins its turn (R358).
It rests on choices of the model: log 160. -/
def Obligations.ScratchAccesses : Prop :=
  (∀ (r : Req) (k d : Nat) (s : State), bankGrants s r = true → s.dev.ready.scratch = true → r.addr = 0x100000000 + 32 * k →
    k < 2097152 → r.size = 32 → ownershipRefuses s (k / 8192) r.src true = none → (unitAt s k).poisoned = false →
    decodeUnit (unitAt s k).symbols = .clean d →
    exec (.scratchRead r []) s = .next (answer ⟨r.src, r.tag, 0, 0, leBytes 32 d⟩ (moveScratchPointer (k / 8192) r.src s)))
  ∧ (∀ (r : Req) (k d y : Nat) (s : State), bankGrants s r = true → s.dev.ready.scratch = true →
    r.addr = 0x100000000 + 32 * k → k < 2097152 → r.size = 32 → ownershipRefuses s (k / 8192) r.src true = none →
    (unitAt s k).poisoned = false → decodeUnit (unitAt s k).symbols = .fixed d y → s.dev.mode ≠ .hold →
    k % 8192 ∉ (s.bank (k / 8192)).writeBacks →
    exec (.scratchRead r []) s = .next (answer ⟨r.src, r.tag, 0, 0, leBytes 32 d⟩
      ((unitCorrected k 0 y (moveScratchPointer (k / 8192) r.src s)).modBank (k / 8192) fun b => { b with
        writeBacks := b.writeBacks ++ [k % 8192] })))
  ∧ (∀ (r : Req) (k : Nat) (s : State), bankGrants s r = true → s.dev.ready.scratch = true → r.addr = 0x100000000 + 32 * k →
    k < 2097152 → r.size = 32 → ownershipRefuses s (k / 8192) r.src true = none → (unitAt s k).poisoned = true →
    exec (.scratchRead r []) s = .next (answer ⟨r.src, r.tag, 5, 0, []⟩
      (bankCause (k / 8192) 2 (moveScratchPointer (k / 8192) r.src s))))
  ∧ (∀ (r : Req) (k : Nat) (s : State), bankGrants s r = true → s.dev.ready.scratch = true → r.addr = 0x100000000 + 32 * k →
    k < 2097152 → r.size = 32 → ownershipRefuses s (k / 8192) r.src true = none → (unitAt s k).poisoned = false →
    decodeUnit (unitAt s k).symbols = .lost →
    exec (.scratchRead r []) s = .next (answer ⟨r.src, r.tag, 5, 0, []⟩
      (bankCause (k / 8192) 2 (unitPoisoned k 0 (moveScratchPointer (k / 8192) r.src s)))))
  ∧ (∀ (r : Req) (k : Nat) (s : State), bankGrants s r = true → s.dev.ready.scratch = true → r.addr = 0x100000000 + 32 * k →
    k < 2097152 → r.size = 32 → r.enables = 2 ^ 32 - 1 → r.data.length = 32 →
    ownershipRefuses s (k / 8192) r.src false = none →
    exec (.scratchWrite r []) s = .next (answer ⟨r.src, r.tag, 0, 0, []⟩
      (storeUnit k (ofLe r.data) true (moveScratchPointer (k / 8192) r.src s))))
  ∧ (∀ (r : Req) (k o d : Nat) (s : State), bankGrants s r = true → s.dev.ready.scratch = true →
    r.addr = 0x100000000 + 32 * k + o → k < 2097152 → o + r.size ≤ 32 → 0 < r.size → r.size < 32 → r.src.cls ≠ 2 →
    r.enables = 2 ^ r.size - 1 → r.data.length = r.size → ownershipRefuses s (k / 8192) r.src false = none →
    (unitAt s k).poisoned = false → decodeUnit (unitAt s k).symbols = .clean d → d < 2 ^ 256 →
    exec (.scratchWrite r []) s = .next (answer ⟨r.src, r.tag, 0, 0, []⟩
      (storeUnit k (ofLe ((leBytes 32 d).take o ++ r.data ++ (leBytes 32 d).drop (o + r.size))) false
        (moveScratchPointer (k / 8192) r.src s))))
  ∧ (∀ (k d : Nat) (s : State), s.spd.injArm = false → ∃ t, t = storeUnit k d true s
    ∧ unitAt t k = ⟨unitEncode d, 0⟩ ∧ (∀ j, j ≠ k → unitAt t j = unitAt s j)
    ∧ ((unitAt s k).poisoned = false → t = { s with spd := { s.spd with units := t.spd.units, banks := t.spd.banks } }))
  ∧ (∀ (c : Req → List (Nat × BitVec 291) → Instr) (add : Bool) (r : Req) (k o d : Nat) (s : State),
    (c = Instr.scratchAtomicAdd ∧ add = true) ∨ (c = Instr.scratchAtomicSwap ∧ add = false) → bankGrants s r = true →
    s.dev.ready.scratch = true → r.addr = 0x100000000 + 32 * k + 8 * o → k < 2097152 → o < 4 → r.size = 8 →
    r.data.length = 8 → ownershipRefuses s (k / 8192) r.src false = none → (unitAt s k).poisoned = false →
    decodeUnit (unitAt s k).symbols = .clean d →
    ∀ old, old = d / 2 ^ (64 * o) % 2 ^ 64 → exec (c r []) s = .next (answer ⟨r.src, r.tag, 0, 0, leBytes 8 old⟩
      (storeUnit k (d - old * 2 ^ (64 * o) + (if add then (old + ofLe r.data) % 2 ^ 64 else ofLe r.data) * 2 ^ (64 * o)) false
        (moveScratchPointer (k / 8192) r.src s))))
  ∧ (∀ (c : Req → List (Nat × BitVec 291) → Instr) (r : Req) (k : Nat) (s : State),
    c = Instr.scratchRead ∨ c = Instr.scratchWrite → bankGrants s r = true → r.addr = 0x100000000 + 32 * k → k < 2097152 →
    r.size = 32 →
    (s.dev.ready.scratch = true → s.dev.mode ≠ .hold → r.src.cls ≠ 1 → r.src.cls ≠ 6 →
      (s.bank (k / 8192)).state ≠ .owned ∨ ownerMatches s (k / 8192) r.src = false →
      exec (c r []) s = .next (answer ⟨r.src, r.tag, 2, 0, []⟩ (bankCause (k / 8192) 3 s)))
    ∧ (s.dev.ready.scratch = true → s.dev.mode = .hold → c = Instr.scratchWrite ∨ (r.src.cls ≠ 0 ∧ r.src.cls ≠ 1) →
      exec (c r []) s = .next (answer ⟨r.src, r.tag, 2, 0, []⟩ s))
    ∧ (s.dev.ready.scratch = false → exec (c r []) s = .next (answer ⟨r.src, r.tag, 3, 0, []⟩ s)))
  ∧ (∀ (c : Req → List (Nat × BitVec 291) → Instr) (r : Req) (s : State), bankGrants s r = true →
    ((c = Instr.scratchRead ∨ c = Instr.scratchWrite) ∧ 256 < r.addr % 256 + r.size)
      ∨ ((c = Instr.scratchAtomicAdd ∨ c = Instr.scratchAtomicSwap) ∧ (r.addr % 8 ≠ 0 ∨ r.size ≠ 8)) →
    exec (c r []) s = .next (answer ⟨r.src, r.tag, 1, 0, []⟩ s))
  ∧ (∀ (c : Req → List (Nat × BitVec 291) → Instr) (r : Req) (u : List (Nat × BitVec 291)) (s : State),
    c = Instr.scratchRead ∨ c = Instr.scratchWrite ∨ c = Instr.scratchAtomicAdd ∨ c = Instr.scratchAtomicSwap →
    bankGrants s r = false → exec (c r u) s = .next s)
  ∧ (∀ (s : State) (b : Nat) (e f : Packet × Nat), bankWinner s b = some f → e ∈ waitingAt s b → f ∈ waitingAt s b
    ∧ (processorClass e.1.srcClass = false → 512 ≤ s.noc.cycle - e.2 →
      processorClass f.1.srcClass = false ∧ 512 ≤ s.noc.cycle - f.2)
    ∧ (processorClass e.1.srcClass = true →
      (processorClass f.1.srcClass = false ∧ 512 ≤ s.noc.cycle - f.2)
      ∨ (processorClass f.1.srcClass = true ∧ pastPointer (s.bank b) f ≤ pastPointer (s.bank b) e)))

/-- R354, R356, R357, R360, R362: what happens to a bank. The oldest write-back stores the corrected unit; an owner write
starts a handover, or is refused outside OWNED and for a bank of the queue manager; after the drain and, where asked, the
wipe the new owner is installed; a cleared group reads zero and is ON; the scrubber asks for a credit after each gap,
reads a unit of each bank of its group, skips the banks that are not OWNED, and gives the credit back at the end of the
group. R279, R285, R356, R371: the scratch commands that hand a bank over: each starts the handover and waits for it, and
is refused in a state that allows none, 0x0803 with REFUSED; 0x0802 is BUSY while a page of the bank is in use; and what
0x0801 to 0x0805 refuse, in the order of R689.
It rests on choices of the model: log 44. -/
def Obligations.ScratchEvents : Prop :=
  (∀ (b u d y : Nat) (rest : List Nat) (s : State), b < 256 → s.dev.mode ≠ .hold → (s.bank b).writeBacks = u :: rest →
    decodeUnit (unitAt s (b * 8192 + u)).symbols = .fixed d y → exec (.scratchWriteback b) s = .next
      (setUnit (b * 8192 + u) { unitAt s (b * 8192 + u) with symbols := unitEncode d }
        (s.modBank b fun x => { x with writeBacks := rest })))
  ∧ (∀ (b : Nat) (s : State), s.dev.mode = .hold ∨ (s.bank b).writeBacks = [] → exec (.scratchWriteback b) s = .next s)
  ∧ (∀ (b kind index : Nat) (w : Bool) (s : State), b < 256 → kind < 16 → index < 128 →
    (s.bank b).state ≠ .owned ∨ kind = 3 ∨ (s.bank b).kind = 3 →
    exec (.scratchOwnerWrite b kind index w) s = .next (s.modBank b fun x => { x with refused := true }))
  ∧ (∀ (b kind index : Nat) (w : Bool) (s : State), b < 256 → kind < 16 → index < 128 → (s.bank b).state = .owned →
    kind ≠ 3 → (s.bank b).kind ≠ 3 → (s.bank b).kind ≠ kind ∨ (s.bank b).index ≠ index ∨ w = true →
    exec (.scratchOwnerWrite b kind index w) s = .next (s.modBank b fun x => { x with
      state := .draining, wipe := w, newKind := kind, newIndex := index }))
  ∧ (∀ (b : Nat) (s : State), b < 256 → (s.bank b).kind < 16 → (s.bank b).index < 128 → (s.bank b).state = .owned →
    (s.bank b).kind ≠ 3 → exec (.scratchOwnerWrite b (s.bank b).kind (s.bank b).index false) s
      = .next (s.modBank b fun x => { x with wipe := false }))
  ∧ (∀ (b : Nat) (s : State), b < 256 → (s.bank b).state = .draining → (s.bank b).wipe = true →
    exec (.scratchDrainDone b) s = .next ((s.modBank b fun x => { x with state := .waitGrant }).modSupply 0 fun u =>
      { u with newReqs := u.newReqs ++ [⟨5, b, 1, 2, 0⟩] }))
  ∧ (∀ (b : Nat) (s : State), b < 256 → (s.bank b).state = .draining → (s.bank b).wipe = false →
    Answers (.scratchDrainDone b) s fun t => t.bank b = { s.bank b with
        state := .owned, kind := (s.bank b).newKind, index := (s.bank b).newIndex }
      ∧ (∀ m, m ≠ b → t.bank m = s.bank m) ∧ t.spd.units = s.spd.units
      ∧ t.qm.banks.getLsbD b = decide ((s.bank b).newKind = 3)
      ∧ (t.sgroup (b / 8)).causes = (s.sgroup (b / 8)).causes ||| BitVec.twoPow 5 4)
  ∧ (∀ (b : Nat) (s : State), b < 256 → (s.bank b).state = .wiping → Answers (.scratchWipeDone b) s fun t =>
      (t.bank b).state = .owned ∧ (t.bank b).kind = (s.bank b).newKind ∧ (t.bank b).index = (s.bank b).newIndex
      ∧ ∀ k, unitAt t k = if k / 8192 = b then {} else unitAt s k)
  ∧ (∀ (g : Nat) (s : State), g < 32 → (s.sgroup g).state = .clearing → Answers (.scratchGroupClearDone g) s fun t =>
      (t.sgroup g).state = .on ∧ ∀ k, unitAt t k = if k / 65536 = g then {} else unitAt s k)
  ∧ (∀ s : State, scrubMode s = true → s.spd.scrubEn = true → s.spd.burst = false → s.spd.waitGrant = false →
    exec .scratchScrubGapEnd s = .next (State.modSupply { s with spd := { s.spd with waitGrant := true } } 0 fun u =>
      { u with newReqs := u.newReqs ++ [⟨9, 1, 6, 1, 0⟩] }))
  ∧ (∀ s : State, scrubMode s = false ∨ s.spd.scrubEn = false → exec .scratchScrubGapEnd s = .next s)
  ∧ (∀ s : State, scrubMode s = true → s.spd.burst = true → s.spd.nextUnit < 8191 →
    (∀ i, i < 8 → (s.bank (8 * s.spd.group + i)).state = .owned
      ∧ ∀ x, x = unitAt s ((8 * s.spd.group + i) * 8192 + s.spd.nextUnit) →
        x.poisoned = false ∧ ∃ d, decodeUnit x.symbols = .clean d) →
    exec (.scratchScrubRead []) s = .next { s with spd := { s.spd with nextUnit := s.spd.nextUnit + 1 } })
  ∧ (∀ (u : List (Nat × BitVec 291)) (s : State), scrubMode s = true → s.spd.burst = true → s.spd.nextUnit < 8191 →
    (∀ i, i < 8 → (s.bank (8 * s.spd.group + i)).state ≠ .owned) →
    exec (.scratchScrubRead u) s = .next { s with spd := { s.spd with
      nextUnit := s.spd.nextUnit + 1, skipped := true } })
  ∧ (∀ (u : List (Nat × BitVec 291)) (s : State), scrubMode s = true → s.spd.burst = true → 8191 ≤ s.spd.nextUnit →
    (∀ i, i < 8 → (s.bank (8 * s.spd.group + i)).state ≠ .owned) → Answers (.scratchScrubRead u) s fun t =>
      t.spd = { s.spd with
        skipped := true, burst := false, group := (s.spd.group + 1) % 32,
        passes := if s.spd.group = 31 then (s.spd.passes + 1) % 2 ^ 16 else s.spd.passes }
      ∧ heldBy t 9 1 = 0)
  ∧ (∀ (u : List (Nat × BitVec 291)) (s : State), scrubMode s = false → s.spd.burst = true →
    Answers (.scratchScrubRead u) s fun t => t.spd = { s.spd with burst := false } ∧ heldBy t 9 1 = 0)
  ∧ (∀ s : State, exec .spdClrCounts s = .next { s with spd := { s.spd with ce := 0, ue := 0 } })
  ∧ (∀ (q : CmdCtx) (b : Nat) (s : State), b < 256 → MayIssue q 0x0801 1 s → s.dev.ready.scratch = true →
    s.dev.mode ≠ .hold → (s.bank b).state = .owned → (s.bank b).kind ≠ 3 →
    Answers (.scrGrantQm q b) s fun t => Replied q 0x0801 stPending false [] s t ∧ Waits q 0x0801 b 0 s t
      ∧ TakenFrom q.mbx 0x0801 (s.modBank b fun x => { x with
        state := .draining, wipe := true, newKind := 3, newIndex := 0 }) t)
  ∧ (∀ (q : CmdCtx) (b : Nat) (s : State), b < 256 → MayIssue q 0x0801 1 s →
    (s.dev.ready.scratch = false → Answers (.scrGrantQm q b) s fun t =>
      Replied q 0x0801 stNotReady true [] s t ∧ TakenFrom q.mbx 0x0801 s t)
    ∧ (s.dev.ready.scratch = true → (s.bank b).state ≠ .owned ∨ (s.bank b).kind = 3 ∨ s.dev.mode = .hold →
      Answers (.scrGrantQm q b) s fun t =>
        Replied q 0x0801 stWrong true [] s t ∧ TakenFrom q.mbx 0x0801 s t))
  ∧ (∀ (q : CmdCtx) (b kind index : Nat) (s : State), b < 256 → kind < 256 → index < 256 → ownerOk kind index = true →
    kind ≠ 3 → MayIssue q 0x0802 3 s → s.dev.ready.scratch = true → s.dev.mode ≠ .hold → (s.bank b).state = .owned →
    (s.bank b).kind = 3 → s.dev.ready.queues = false → s.dev.ready.qspill = false →
    (∀ e ∈ s.qm.queues, e.2.destroying = false ∧ e.2.resetting = false) →
    ((∀ e ∈ s.qm.used, e.1 / 64 ≠ b) → Answers (.scrReturnQm q b kind index) s fun t =>
      Replied q 0x0802 stPending false [] s t ∧ Waits q 0x0802 b 0 s t
      ∧ t.qm.banks.getLsbD b = false ∧ t.bank b = { s.bank b with
        state := .draining, wipe := true, newKind := kind, newIndex := index })
    ∧ (∀ e, e ∈ s.qm.used → e.1 / 64 = b → Answers (.scrReturnQm q b kind index) s fun t =>
      Replied q 0x0802 stBusy true [] s t ∧ t.qm.banks = s.qm.banks ∧ t.qm.returning.getLsbD b = true
      ∧ t.bank b = s.bank b))
  ∧ (∀ (q : CmdCtx) (b kind index : Nat) (s : State), b < 256 → kind < 256 → index < 256 → MayIssue q 0x0802 3 s →
    (ownerOk kind index = false ∨ kind = 3 → Answers (.scrReturnQm q b kind index) s fun t =>
      Replied q 0x0802 stBadArg true [] s t ∧ TakenFrom q.mbx 0x0802 s t)
    ∧ (ownerOk kind index = true → kind ≠ 3 →
      (s.dev.ready.scratch = false → Answers (.scrReturnQm q b kind index) s fun t =>
        Replied q 0x0802 stNotReady true [] s t ∧ TakenFrom q.mbx 0x0802 s t)
      ∧ (s.dev.ready.scratch = true → (s.bank b).state ≠ .owned ∨ (s.bank b).kind ≠ 3 ∨ s.dev.mode = .hold →
        Answers (.scrReturnQm q b kind index) s fun t =>
          Replied q 0x0802 stWrong true [] s t ∧ TakenFrom q.mbx 0x0802 s t)))
  ∧ (∀ (q : CmdCtx) (b kind index wipe : Nat) (s : State), b < 256 → kind < 256 → index < 256 → ownerOk kind index = true →
    wipe ≤ 1 → MayIssue q 0x0803 4 s → s.dev.ready.scratch = true → s.dev.mode ≠ .hold ∨ wipe = 0 →
    (s.bank b).state = .owned → kind ≠ 3 → (s.bank b).kind ≠ 3 →
    (¬ ((s.bank b).kind = kind ∧ (s.bank b).index = index ∧ wipe = 0) → Answers (.scrSetOwner q b kind index wipe) s fun t =>
      Replied q 0x0803 stPending false [] s t ∧ Waits q 0x0803 b 0 s t
      ∧ TakenFrom q.mbx 0x0803 (s.modBank b fun x => { x with
        state := .draining, wipe := decide (wipe = 1), newKind := kind, newIndex := index }) t)
    ∧ ((s.bank b).kind = kind → (s.bank b).index = index → wipe = 0 → Answers (.scrSetOwner q b kind index wipe) s fun t =>
      RepliedBoth q 0x0803 stOk [] s t ∧ TakenFrom q.mbx 0x0803 (s.modBank b fun x => { x with wipe := false }) t))
  ∧ (∀ (q : CmdCtx) (b kind index wipe : Nat) (s : State), b < 256 → kind < 256 → index < 256 → wipe < 256 →
    MayIssue q 0x0803 4 s →
    (ownerOk kind index = false ∨ 1 < wipe → Answers (.scrSetOwner q b kind index wipe) s fun t =>
      Replied q 0x0803 stBadArg true [] s t ∧ TakenFrom q.mbx 0x0803 s t)
    ∧ (ownerOk kind index = true → wipe ≤ 1 →
      (s.dev.ready.scratch = false → Answers (.scrSetOwner q b kind index wipe) s fun t =>
        Replied q 0x0803 stNotReady true [] s t ∧ TakenFrom q.mbx 0x0803 s t)
      ∧ (s.dev.ready.scratch = true → s.dev.mode = .hold → wipe = 1 → Answers (.scrSetOwner q b kind index wipe) s fun t =>
        Replied q 0x0803 stWrong true [] s t ∧ TakenFrom q.mbx 0x0803 s t)
      ∧ (s.dev.ready.scratch = true → s.dev.mode ≠ .hold ∨ wipe = 0 →
        (s.bank b).state ≠ .owned ∨ kind = 3 ∨ (s.bank b).kind = 3 → Answers (.scrSetOwner q b kind index wipe) s fun t =>
          Replied q 0x0803 stWrong true [] s t
          ∧ TakenFrom q.mbx 0x0803 (s.modBank b fun x => { x with refused := true }) t)))
  ∧ (∀ (q : CmdCtx) (g : Nat) (s : State), 32 ≤ g → g < 256 → MayIssue q 0x0804 1 s → Answers (.scrGroupStatus q g) s fun t =>
    Replied q 0x0804 stBadArg true [] s t ∧ TakenFrom q.mbx 0x0804 s t)
  ∧ (∀ (q : CmdCtx) (b u : Nat) (s : State), b < 256 → 8192 ≤ u → u < 2 ^ 16 → MayIssue q 0x0805 4 s →
    Answers (.scrReadUnit q b u) s fun t => Replied q 0x0805 stBadArg true [] s t ∧ TakenFrom q.mbx 0x0805 s t)

/-! ### DRAM controllers (chapter 10) -/

/-- R372, R375, R377, R388, R390, R393: where a device address leads, and why a channel does not serve a request: DECODE,
DOMAIN_OFF where the channel is not READY (one that drains completes what had come to its port), in HOLD for sources but
the host and Sorrel, FROZEN where a line of it lies in a frozen subchannel. A refused request changes nothing else. R377,
R381, R383, R386, R387, R389, R395: a read of one line and a write of one line, that the channel serves. A read takes the
newest queued write of the line, or the stored line through the decoder, counting what it corrects; one it cannot correct
freezes the subchannel. A write of the whole line joins the write queue unread, one of a part is merged with what a read
gives. The channel leaves precharge power-down.
It rests on choices of the model: log 31. -/
def Obligations.DramAccesses : Prop :=
  (∀ (s : State) (addr : Nat), addr < 0x10000000000 ∨ 0x18000000000 ≤ addr → dramTarget s addr = none)
  ∧ (∀ (s : State) (addr o v n c a : Nat), addr = 0x10000000000 + o → o < 0x8000000000 → v = tget 0 s.ddr.wins (o / 2 ^ 36) →
    n = 2 ^ bits v 24 2 → c = bits v 16 3 + o % 2 ^ 36 / 256 % n →
    a = bits v 0 6 * 2 ^ 30 + o % 2 ^ 36 / 256 / n * 256 + o % 256 → bit v 31 = true →
    dramTarget s addr = if a < capGiB (s.chan c) * 2 ^ 30 then some (c, a) else none)
  ∧ (∀ (r : Req) (s : State), r.size = 0 ∨ r.addr / 256 ≠ (r.addr + r.size - 1) / 256 ∨ dramTarget s r.addr = none
      ∨ (r.src.cls = 2 ∧ (r.size = 8 ∨ r.size = 32) ∧ r.addr % r.size ≠ 0) → dramRefusal r s = some 1)
  ∧ (∀ (r : Req) (c a : Nat) (s : State), r.size ≠ 0 → r.addr / 256 = (r.addr + r.size - 1) / 256 → askew r = false →
    dramTarget s r.addr = some (c, a) → s.dev.mode ≠ .hold ∨ r.src.cls = 0 ∨ r.src.cls = 1 ∨ r.src.cls = 7 →
    dramRefusal r s =
      if ((s.chan c).state ≠ .ready ∧ ¬ ((s.chan c).state = .draining ∧ pastFence s r = true))
        ∨ s.dev.ready.current = false ∨ s.dev.ready.sorrel = false then some 3
      else if (linesOf c a r.size).any (fun e => (s.sub e.1).frozen) then some 4 else none)
  ∧ (∀ (r : Req) (c a : Nat) (s : State), r.size ≠ 0 → r.addr / 256 = (r.addr + r.size - 1) / 256 → askew r = false →
    dramTarget s r.addr = some (c, a) → s.dev.mode = .hold → r.src.cls ≠ 0 → r.src.cls ≠ 1 → r.src.cls ≠ 7 →
    dramRefusal r s = some 3)
  ∧ (∀ (r : Req) (upset : List (Nat × BitVec 640)) (acts : Bool) (code : Nat) (s : State), dramRefusal r s = some code →
    exec (.dramRead r upset acts) s = .next (answer ⟨r.src, r.tag, code, 0, []⟩ s)
    ∧ exec (.dramWrite r upset acts) s = .next (answer ⟨r.src, r.tag, code, 0, []⟩ s))
  ∧ (∀ (r : Req) (c a u l : Nat) (v : BitVec 640) (s : State), dramRefusal r s = none → dramTarget s r.addr = some (c, a) →
    r.size = 64 → a % 64 = 0 → u = 2 * c + a / 64 % 2 → l = a / 128 → queued (s.sub u) l = some v →
    exec (.dramRead r [] false) s = .next (answer ⟨r.src, r.tag, 0, 0, leBytes 64 (lineData v)⟩
      (s.modChan c fun x => { x with powerDown := false })))
  ∧ (∀ (r : Req) (c a u l : Nat) (w : List Nat) (s : State), dramRefusal r s = none → dramTarget s r.addr = some (c, a) →
    r.size = 64 → a % 64 = 0 → u = 2 * c + a / 64 % 2 → l = a / 128 → queued (s.sub u) l = none →
    decodeStored s c u l = some ([], w) →
    exec (.dramRead r [] false) s = .next (answer ⟨r.src, r.tag, 0, 0, leBytes 64 (ofSymbols (w.drop 16))⟩
      (s.modChan c fun x => { x with powerDown := false })))
  ∧ (∀ (r : Req) (c a u l p : Nat) (ps w : List Nat) (s : State), dramRefusal r s = none →
    dramTarget s r.addr = some (c, a) → r.size = 64 → a % 64 = 0 → u = 2 * c + a / 64 % 2 → l = a / 128 →
    queued (s.sub u) l = none → decodeStored s c u l = some (p :: ps, w) → Answers (.dramRead r [] false) s fun t =>
      t.answers = ⟨r.src, r.tag, 0, 0, leBytes 64 (ofSymbols (w.drop 16))⟩ :: s.answers
      ∧ (t.sub u).ce = satAdd 48 (s.sub u).ce 1 ∧ (t.sub u).causes.getLsbD 0 = true ∧ (t.sub u).logValid = true
      ∧ ((s.sub u).logValid = false → (t.sub u).logKind = false ∧ (t.sub u).logLine = l)
      ∧ (t.sub u).frozen = (s.sub u).frozen ∧ (∀ m, m ≠ u → t.sub m = s.sub m) ∧ t.ddr.lines = s.ddr.lines)
  ∧ (∀ (r : Req) (c a u l : Nat) (s : State), dramRefusal r s = none → dramTarget s r.addr = some (c, a) →
    r.size = 64 → a % 64 = 0 → u = 2 * c + a / 64 % 2 → l = a / 128 → queued (s.sub u) l = none →
    decodeStored s c u l = none → Answers (.dramRead r [] false) s fun t =>
      t.answers.head? = some ⟨r.src, r.tag, 4, 0, []⟩ ∧ (t.sub u).frozen = true ∧ (t.sub u).cause = .data
      ∧ (t.sub u).ue = satAdd 16 (s.sub u).ue 1 ∧ (t.sub u).failLine = l ∧ (t.sub u).logValid = true
      ∧ (t.sub u).logKind = true ∧ (t.sub u).logLine = l ∧ (t.sub u).causes.getLsbD 1 = true
      ∧ ∀ m, m ≠ u → t.sub m = s.sub m)
  ∧ (∀ (r : Req) (c a u l : Nat) (s : State), dramRefusal r s = none → dramTarget s r.addr = some (c, a) →
    r.size = 64 → a % 64 = 0 → r.enables = 2 ^ 64 - 1 → r.data.length = 64 → u = 2 * c + a / 64 % 2 → l = a / 128 →
    (s.sub u).queue.length < 64 → Answers (.dramWrite r [] false) s fun t =>
      t.answers = ⟨r.src, r.tag, 0, 0, []⟩ :: s.answers
      ∧ t.sub u = { s.sub u with queue := (s.sub u).queue ++ [(l, lineEncode (ofLe r.data))] }
      ∧ (∀ m, m ≠ u → t.sub m = s.sub m) ∧ t.ddr.lines = s.ddr.lines)
  ∧ (∀ (r : Req) (c a u l o old : Nat) (s : State), dramRefusal r s = none → dramTarget s r.addr = some (c, a) →
    o = a % 64 → o + r.size ≤ 64 → r.size < 64 → r.enables = 2 ^ r.size - 1 → r.data.length = r.size →
    u = 2 * c + a / 64 % 2 → l = a / 128 → (s.sub u).queue.length < 64 →
    (∃ v, queued (s.sub u) l = some v ∧ old = lineData v)
      ∨ (queued (s.sub u) l = none ∧ ∃ w, decodeStored s c u l = some ([], w) ∧ old = ofSymbols (w.drop 16)) →
    Answers (.dramWrite r [] false) s fun t => t.answers = ⟨r.src, r.tag, 0, 0, []⟩ :: s.answers
      ∧ t.sub u = { s.sub u with queue := (s.sub u).queue
        ++ [(l, lineEncode (ofLe ((leBytes 64 old).take o ++ r.data ++ (leBytes 64 old).drop (o + r.size))))] }
      ∧ (∀ m, m ≠ u → t.sub m = s.sub m) ∧ t.ddr.lines = s.ddr.lines)
  ∧ (∀ (r : Req) (c a u l : Nat) (s : State), dramRefusal r s = none → dramTarget s r.addr = some (c, a) →
    a % 64 + r.size < 64 → u = 2 * c + a / 64 % 2 → l = a / 128 → queued (s.sub u) l = none →
    decodeStored s c u l = none → Answers (.dramWrite r [] false) s fun t =>
      t.answers.head? = some ⟨r.src, r.tag, 4, 0, []⟩ ∧ (t.sub u).frozen = true ∧ (t.sub u).queue = (s.sub u).queue
      ∧ ∀ m, m ≠ u → t.sub m = s.sub m)
  ∧ (∀ (x : SubCh) (l : Nat) (v : BitVec 640), queued { x with queue := x.queue ++ [(l, v)] } l = some v)

/-- R374, R382, R384, R389, R390, R395, R401, R402, R407, R412: a channel's events and the register rows. A parity alert
freezes both subchannels; a refresh is postponed at most four times; the activate counters clear, count, and trigger at
ACT_THRESH, where the row's count restarts; a mark is placed in RUN and TRIM but not taken back. R383, R400: the scrubber
of a channel: it asks for a credit after each gap, skips a frozen subchannel, leaves a line with a queued write alone and
goes on, writes back a corrected line, counts a pass at the end of the channel, where the device counts clear, and gives
the credit back at the end of a burst or where the mode or the channel stops it. A skipped line counts in the burst (log
161).
It rests on choices of the model: log 33, 34, 37 and 38. -/
def Obligations.DramEvents : Prop :=
  (∀ (c : Nat) (s : State), c < 8 → chanPowered (s.chan c) = true → Answers (.dramCaParityAlert c) s fun t =>
      ∀ u, u = 2 * c ∨ u = 2 * c + 1 → (t.sub u).frozen = true ∧ (t.sub u).cause = .caParity
        ∧ (t.sub u).causes = (s.sub u).causes ||| BitVec.twoPow 5 2)
  ∧ (∀ (c : Nat) (hot postpone : Bool) (s : State), c < 8 → chanPowered (s.chan c) = true →
    exec (.dramRefresh c hot postpone) s = .next (s.modChan c fun x =>
      if (postpone = true ∧ x.postponed < 4) then { x with hot, postponed := x.postponed + 1 }
      else { x with hot, postponed := 0, powerDown := false }))
  ∧ (∀ (c : Nat) (hot postpone : Bool) (s : State), chanPowered (s.chan c) = false →
    exec (.dramRefresh c hot postpone) s = .next s ∧ exec (.dramCaParityAlert c) s = .next s)
  ∧ (∀ s : State, Answers .dramActWindowClear s fun t => (∀ u, t.sub u = { s.sub u with rows := [] })
    ∧ t = { s with ddr := { s.ddr with subs := t.ddr.subs } })
  ∧ (∀ (c : Nat) (s : State), c < 8 → (s.chan c).state = .ready → exec (.prechargePowerDown c) s = .next
    (s.modChan c fun x => { x with powerDown := true }))
  ∧ (∀ (row : Nat) (t : List (Nat × Nat)), t.length < 16 → (∀ e ∈ t, e.1 ≠ row) → countRow row t = t ++ [(row, 1)])
  ∧ (∀ (row n : Nat) (t : List (Nat × Nat)), (t.map (·.1)).Nodup → (row, n) ∈ t →
    (row, n + 1) ∈ countRow row t ∧ (countRow row t).length = t.length ∧ ∀ e ∈ t, e.1 ≠ row → e ∈ countRow row t)
  ∧ (∀ (row : Nat) (t : List (Nat × Nat)), t.length = 16 → (∀ e ∈ t, e.1 ≠ row) →
    (countRow row t).length = 16 ∧ ∃ m, (∀ e ∈ t, m ≤ e.2) ∧ (∃ e ∈ t, e.2 = m) ∧ (row, m + 1) ∈ countRow row t)
  ∧ (∀ (c u l b : Nat) (t : List (Nat × Nat)) (s : State), b = bankOf (s.chan c) l →
    t = countRow (rowOf (s.chan c) l) (tget [] (s.sub u).rows b) → (∀ e ∈ t, e.2 < (s.chan c).actThresh) →
    ((activate c u l s).sub u).rows = tset [] (s.sub u).rows b t
      ∧ ((activate c u l s).sub u).causes = (s.sub u).causes)
  ∧ (∀ (c u l b row n : Nat) (t : List (Nat × Nat)) (s : State), b = bankOf (s.chan c) l →
    t = countRow (rowOf (s.chan c) l) (tget [] (s.sub u).rows b) → (s.chan c).rfmEn = true → 0 < (s.chan c).actThresh →
    (row, n) ∈ t → (s.chan c).actThresh ≤ n → (∀ e ∈ t, e.1 ≠ row → e.2 < (s.chan c).actThresh) →
    ((activate c u l s).sub u).rows = tset [] (s.sub u).rows b (t.map fun e => if e.1 = row then (row, 0) else e)
      ∧ ((activate c u l s).sub u).actHits = satAdd 16 (s.sub u).actHits 1
      ∧ ((activate c u l s).sub u).causes.getLsbD 4 = true)
  ∧ (∀ (c : Nat) (s : State), c < 8 → Answers (.ddrClrCounts c) s fun t =>
    (∀ u, t.sub u = if u / 2 = c then { s.sub u with ce := 0, ue := 0, chipCnt := [] } else s.sub u)
    ∧ t = { s with ddr := { s.ddr with subs := t.ddr.subs } })
  ∧ (∀ (u v : Nat) (s : State), u < 16 → s.dev.mode = .safe → exec (.ddrMarkWrite u v) s = .next (s.modSub u fun x =>
    { x with mark0 := bit v 7, chip0 := bits v 0 4, mark1 := bit v 15, chip1 := bits v 8 4 }))
  ∧ (∀ (u v : Nat) (s : State), u < 16 → s.dev.mode = .run ∨ s.dev.mode = .trim → (s.sub u).mark0 = true →
    (s.sub u).mark1 = true → bit v 7 = false → bit v 15 = false → exec (.ddrMarkWrite u v) s = .next (s.modSub u fun x => x))
  ∧ (∀ (u v : Nat) (s : State), u < 16 → s.dev.mode = .run ∨ s.dev.mode = .trim → (s.sub u).mark0 = false →
    (s.sub u).mark1 = true → bit v 7 = true → bit v 15 = false → exec (.ddrMarkWrite u v) s = .next (s.modSub u fun x =>
      { x with mark0 := true, chip0 := bits v 0 4 }))
  ∧ (∀ (c : Nat) (s : State), c < 8 → scrubMode s = true → (s.chan c).state = .ready → (s.chan c).scrubEn = true →
    (s.chan c).burst = false → (s.chan c).waitGrant = false → exec (.ddrScrubGapEnd c) s = .next
      ((s.modChan c fun x => { x with waitGrant := true }).modSupply 0 fun u =>
        { u with newReqs := u.newReqs ++ [⟨9, 2 + c, 6, 1, 0⟩] }))
  ∧ (∀ (c : Nat) (s : State), scrubMode s = false ∨ (s.chan c).scrubEn = false ∨ (s.chan c).state ≠ .ready →
    exec (.ddrScrubGapEnd c) s = .next s)
  ∧ (∀ (c : Nat) (acts : Bool) (s : State), c < 8 → (s.chan c).burst = true → scrubMode s = true →
    (s.chan c).state = .ready → (s.sub (2 * c + (s.chan c).nextLine % 2)).frozen = true →
    (s.chan c).nextLine + 1 < chanLines (s.chan c) → 2 ≤ (s.chan c).burstLeft →
    Answers (.ddrScrubRead c 0 acts) s fun t => t.chan c = { s.chan c with
      burstLeft := (s.chan c).burstLeft - 1, skipped := true, nextLine := (s.chan c).nextLine + 1 }
      ∧ (∀ m, m ≠ c → t.chan m = s.chan m) ∧ (∀ u, t.sub u = s.sub u) ∧ t.ddr.lines = s.ddr.lines)
  ∧ (∀ (c : Nat) (s : State), c < 8 → (s.chan c).burst = true → scrubMode s = true → (s.chan c).state = .ready →
    (s.sub (2 * c + (s.chan c).nextLine % 2)).frozen = false → (s.chan c).nextLine + 1 < chanLines (s.chan c) →
    2 ≤ (s.chan c).burstLeft →
    (queued (s.sub (2 * c + (s.chan c).nextLine % 2)) ((s.chan c).nextLine / 2)).isSome = true →
    Answers (.ddrScrubRead c 0 false) s fun t => t.chan c = { s.chan c with
      burstLeft := (s.chan c).burstLeft - 1, powerDown := false, nextLine := (s.chan c).nextLine + 1 }
      ∧ (∀ m, m ≠ c → t.chan m = s.chan m) ∧ ∀ u, t.sub u = s.sub u)
  ∧ (∀ (c u l p : Nat) (ps w : List Nat) (s : State), c < 8 → (s.chan c).burst = true → scrubMode s = true →
    (s.chan c).state = .ready → u = 2 * c + (s.chan c).nextLine % 2 → l = (s.chan c).nextLine / 2 →
    (s.sub u).frozen = false → queued (s.sub u) l = none → decodeStored s c u l = some (p :: ps, w) →
    (s.chan c).nextLine + 1 < chanLines (s.chan c) → 2 ≤ (s.chan c).burstLeft → Answers (.ddrScrubRead c 0 false) s fun t =>
      tget 0 t.ddr.lines (u * 2 ^ 29 + l) = lineEncode (ofSymbols (w.drop 16))
      ∧ (∀ k, k ≠ u * 2 ^ 29 + l → tget 0 t.ddr.lines k = tget 0 s.ddr.lines k)
      ∧ (t.sub u).ce = satAdd 48 (s.sub u).ce 1 ∧ (t.chan c).nextLine = (s.chan c).nextLine + 1)
  ∧ (∀ (c : Nat) (acts : Bool) (s : State), c < 8 → (s.chan c).burst = true → scrubMode s = true →
    (s.chan c).state = .ready → (s.sub (2 * c + (s.chan c).nextLine % 2)).frozen = true →
    chanLines (s.chan c) ≤ (s.chan c).nextLine + 1 → (s.chan c).burstLeft = 1 →
    Answers (.ddrScrubRead c 0 acts) s fun t => t.chan c = { s.chan c with
      burst := false, burstLeft := 0, skipped := true, nextLine := 0, passes := ((s.chan c).passes + 1) % 2 ^ 16 }
      ∧ (∀ u, t.sub u = if u / 2 = c then { s.sub u with chipCnt := [] } else s.sub u) ∧ heldBy t 9 (2 + c) = 0)
  ∧ (∀ (c : Nat) (acts : Bool) (v : BitVec 640) (s : State), c < 8 → (s.chan c).burst = true →
    scrubMode s = false ∨ (s.chan c).state ≠ .ready →
    exec (.ddrScrubRead c v acts) s = .next (giveBackAll 9 (2 + c) (s.modChan c fun x =>
      { x with burst := false, burstLeft := 0 })))
  ∧ (∀ (c : Nat) (acts : Bool) (v : BitVec 640) (s : State), (s.chan c).burst = false →
    exec (.ddrScrubRead c v acts) s = .next s)

/-- R391, R393, R396, R397, R399: the channel's states. INIT leads to SWEEP where one is asked for and else to FILLING; a
sweep keeps what it found or the board's values, and fails to OFF; the fill makes READY with every line zero data; a drain,
once no request waits at the port, performs the queues and ends OFF with the credits returned; COAST leads to self-refresh; an
unfreeze writes what its mode says and lifts the freeze.
It rests on choices of the model: log 31 and 35. -/
def Obligations.ChannelStates : Prop :=
  (∀ (c : Nat) (s : State), c < 8 → (s.chan c).state = .init → exec (.ddrInitDone c) s = .next (s.modChan c fun x =>
    { x with state := if x.sweep.isSome then .sweep else .filling }))
  ∧ (∀ (c width nibble : Nat) (found : List (Nat × Nat)) (s : State), c < 8 → (s.chan c).state = .sweep →
    width < 65536 → nibble < 10 → exec (.ddrSweepDone c false found width nibble) s = .next (s.modChan c fun x => { x with
      state := .filling, sweepWidth := width, sweepNibble := nibble,
      training := if x.sweep = some true then found.foldl (fun t e => tset 0 t e.1 (e.2 &&& trainingMask e.1)) x.training
        else x.boardTraining }))
  ∧ (∀ (c width nibble : Nat) (found : List (Nat × Nat)) (s : State), c < 8 → (s.chan c).state = .sweep →
    (s.chan c).pendingEnable = false → Answers (.ddrSweepDone c true found width nibble) s fun t =>
      t.chan c = { s.chan c with state := .off, sweep := none, powerDown := false } ∧ heldBy t 6 c = 0
      ∧ ∀ m, m ≠ c → t.chan m = s.chan m)
  ∧ (∀ (c : Nat) (s : State), c < 8 → (s.chan c).state = .filling → s.dev.ready.clock = true → Answers (.ddrFillDone c) s fun t =>
      t.chan c = { s.chan c with state := .ready, sweep := none, nextLine := 0 } ∧ (∀ m, m ≠ c → t.chan m = s.chan m)
      ∧ ∀ u l, l < 2 ^ 29 → tget 0 t.ddr.lines (u * 2 ^ 29 + l) = if u / 2 = c then 0 else tget 0 s.ddr.lines (u * 2 ^ 29 + l))
  ∧ (∀ (c : Nat) (s : State), c < 8 → (s.chan c).state = .draining → (s.chan c).pendingEnable = false →
    (∀ e ∈ s.noc.waiting, 8 * e.1.destPier + e.1.destPort ≠ dramPort c) →
    s.dev.ready.clock = true → Answers (.ddrDrainDone c) s fun t => t.chan c = { s.chan c with state := .off, powerDown := false }
      ∧ (t.sub (2 * c)).queue = [] ∧ (t.sub (2 * c + 1)).queue = [] ∧ heldBy t 6 c = 0)
  ∧ (∀ (c : Nat) (e : Packet × Nat) (s : State), e ∈ s.noc.waiting → 8 * e.1.destPier + e.1.destPort = dramPort c →
    exec (.ddrDrainDone c) s = .next s)
  ∧ (∀ (c : Nat) (s : State), c < 8 → (s.chan c).state = .ready → s.dev.ready.clock = false → (derive s).clock = false →
    (s.sub (2 * c)).frozen = false → (s.sub (2 * c + 1)).frozen = false → Answers (.ddrSelfRefreshEntered c) s fun t =>
      t.chan c = { s.chan c with state := .selfRefresh, powerDown := false } ∧ (∀ m, m ≠ c → t.chan m = s.chan m)
      ∧ (t.sub (2 * c)).queue = [] ∧ (t.sub (2 * c + 1)).queue = [])
  ∧ (∀ (u mode : Nat) (s : State), u < 16 → (s.sub u).unfreezing = some mode → mode ≤ 1 → (s.sub u).queue = [] →
    Answers (.ddrUnfreezeDone u) s fun t => (t.sub u).frozen = false ∧ (t.sub u).cause = .none
      ∧ (t.sub u).unfreezing = none ∧ ∀ k, tget 0 t.ddr.lines k =
        if mode = 1 ∧ k = u * 2 ^ 29 + (s.sub u).failLine then 0 else tget 0 s.ddr.lines k)
  ∧ (∀ (u : Nat) (s : State), u < 16 → (s.sub u).unfreezing = some 2 → Answers (.ddrUnfreezeDone u) s fun t =>
      (t.sub u).frozen = false ∧ (t.sub u).queue = [] ∧ ∀ l, l < 2 ^ 29 → tget 0 t.ddr.lines (u * 2 ^ 29 + l) = 0)
  ∧ (∀ (u : Nat) (s : State), (s.sub u).unfreezing = none → exec (.ddrUnfreezeDone u) s = .next s)
  ∧ (∀ (c : Nat) (s : State), (s.chan c).state = .off → exec (.ddrInitDone c) s = .next s
    ∧ exec (.ddrFillDone c) s = .next s ∧ exec (.ddrDrainDone c) s = .next s ∧ exec (.ddrSelfRefreshEntered c) s = .next s)

/-- R382, R391, R393, R399, R412, R419: the DRAM commands: enabling and disabling in SAFE, the unfreeze of a frozen
subchannel in SAFE or HOLD, the sweep, and the mark of a device; and what each refuses, in the order of R689.
It rests on choices of the model: log 35 and 39. -/
def Obligations.DramCommands : Prop :=
  (∀ (q : CmdCtx) (c : Nat) (s : State), c < 8 → MayIssue q 0x0901 2 s → (s.chan c).populated = true →
    s.sec.scm.keyFail = false → s.dev.mode = .safe →
    ((s.chan c).state = .ready → Answers (.ddrChEnable q c 1) s fun t =>
      Replied q 0x0901 stOk true [5] s t ∧ TakenFrom q.mbx 0x0901 s t)
    ∧ ((s.chan c).state = .off → s.sec.scm.keyReady = false → Answers (.ddrChEnable q c 1) s fun t =>
      Replied q 0x0901 stPending false [] s t ∧ Waits q 0x0901 c 1 s t
      ∧ TakenFrom q.mbx 0x0901 (s.modChan c fun x => { x with pendingEnable := true }) t)
    ∧ ((s.chan c).state = .off → s.sec.scm.keyReady = true → Answers (.ddrChEnable q c 1) s fun t =>
      Replied q 0x0901 stPending false [] s t ∧ Waits q 0x0901 c 1 s t ∧ (t.chan c).state = .waitGrant
      ∧ (t.chan c).pendingEnable = false ∧ (t.supply 2).newReqs = (s.supply 2).newReqs ++ [⟨6, c, 1, 22, 0⟩])
    ∧ ((s.chan c).state = .off → (∀ m, m < 18 → (s.mailbox m).tasks = []) → Answers (.ddrChEnable q c 0) s fun t =>
      Replied q 0x0901 stOk true [0] s t
      ∧ TakenFrom q.mbx 0x0901 (s.modChan c fun x => { x with sweep := none, pendingEnable := false }) t)
    ∧ ((s.chan c).state = .waitGrant → (∀ m, m < 18 → (s.mailbox m).tasks = []) → Answers (.ddrChEnable q c 0) s fun t =>
      RepliedBoth q 0x0901 stOk [0] s t
      ∧ TakenFrom q.mbx 0x0901 (withdraw 6 c (s.modChan c fun x => { x with sweep := none, state := .off })) t)
    ∧ ((s.chan c).state = .ready → (∀ m, m < 18 → (s.mailbox m).tasks = []) → s.dev.ready.clock = true →
      Answers (.ddrChEnable q c 0) s fun t => Replied q 0x0901 stPending false [] s t ∧ Waits q 0x0901 c 0 s t
        ∧ t.chan c = { s.chan c with state := .draining, sweep := none } ∧ ∀ m, m ≠ c → t.chan m = s.chan m))
  ∧ (∀ (q : CmdCtx) (c en : Nat) (s : State), c < 256 → en < 256 → MayIssue q 0x0901 2 s →
    (8 ≤ c ∨ 2 ≤ en ∨ (s.chan c).populated = false → Answers (.ddrChEnable q c en) s fun t =>
      Replied q 0x0901 stBadArg true [] s t ∧ TakenFrom q.mbx 0x0901 s t)
    ∧ (c < 8 → en < 2 → (s.chan c).populated = true →
      (s.sec.scm.keyFail = true → Answers (.ddrChEnable q c en) s fun t =>
        Replied q 0x0901 stNotReady true [] s t ∧ TakenFrom q.mbx 0x0901 s t)
      ∧ (s.sec.scm.keyFail = false → s.dev.mode ≠ .safe → Answers (.ddrChEnable q c en) s fun t =>
        Replied q 0x0901 stWrong true [] s t ∧ TakenFrom q.mbx 0x0901 s t)))
  ∧ (∀ (q : CmdCtx) (c : Nat) (s : State), 8 ≤ c → c < 256 → MayIssue q 0x0902 1 s → Answers (.ddrChStatus q c) s fun t =>
    Replied q 0x0902 stBadArg true [] s t ∧ TakenFrom q.mbx 0x0902 s t)
  ∧ (∀ (q : CmdCtx) (u mode : Nat) (s : State), u < 16 → mode ≤ 2 → MayIssue q 0x0903 2 s → (s.sub u).frozen = true →
    (s.sub u).cause ≠ .caParity ∨ mode = 2 → s.dev.mode = .safe ∨ s.dev.mode = .hold →
    ((s.sub u).unfreezing = none → Answers (.ddrUnfreeze q u mode) s fun t =>
      Replied q 0x0903 stPending false [] s t ∧ Waits q 0x0903 u mode s t
      ∧ TakenFrom q.mbx 0x0903 (s.modSub u fun x => { x with unfreezing := some mode }) t)
    ∧ ((s.sub u).unfreezing.isSome = true → Answers (.ddrUnfreeze q u mode) s fun t =>
      Replied q 0x0903 stBusy true [] s t ∧ TakenFrom q.mbx 0x0903 s t))
  ∧ (∀ (q : CmdCtx) (u mode : Nat) (s : State), u < 256 → mode < 256 → MayIssue q 0x0903 2 s →
    (16 ≤ u ∨ 3 ≤ mode ∨ ((s.sub u).cause = .caParity ∧ mode ≠ 2) → Answers (.ddrUnfreeze q u mode) s fun t =>
      Replied q 0x0903 stBadArg true [] s t ∧ TakenFrom q.mbx 0x0903 s t)
    ∧ (u < 16 → mode < 3 → (s.sub u).cause ≠ .caParity ∨ mode = 2 →
      (s.sub u).frozen = false ∨ (s.dev.mode ≠ .safe ∧ s.dev.mode ≠ .hold) → Answers (.ddrUnfreeze q u mode) s fun t =>
        Replied q 0x0903 stWrong true [] s t ∧ TakenFrom q.mbx 0x0903 s t))
  ∧ (∀ (q : CmdCtx) (c keep : Nat) (s : State), c < 8 → keep ≤ 1 → MayIssue q 0x0904 2 s → (s.chan c).populated = true →
    s.sec.scm.keyFail = false → s.dev.mode = .safe →
    ((s.chan c).state = .ready → s.dev.ready.clock = true → Answers (.ddrSweep q c keep) s fun t =>
      Replied q 0x0904 stPending false [] s t ∧ Waits q 0x0904 c keep s t
      ∧ t.chan c = { s.chan c with sweep := some (decide (keep = 1)), state := .draining, pendingEnable := true }
      ∧ ∀ m, m ≠ c → t.chan m = s.chan m)
    ∧ ((s.chan c).state = .off → s.sec.scm.keyReady = true → Answers (.ddrSweep q c keep) s fun t =>
      Replied q 0x0904 stPending false [] s t ∧ Waits q 0x0904 c keep s t ∧ (t.chan c).state = .waitGrant
      ∧ (t.chan c).sweep = some (decide (keep = 1)))
    ∧ ((s.chan c).state ≠ .ready → (s.chan c).state ≠ .off → Answers (.ddrSweep q c keep) s fun t =>
      Replied q 0x0904 stBusy true [] s t ∧ TakenFrom q.mbx 0x0904 s t))
  ∧ (∀ (q : CmdCtx) (c keep : Nat) (s : State), c < 256 → keep < 256 → MayIssue q 0x0904 2 s →
    (8 ≤ c ∨ 2 ≤ keep ∨ (s.chan c).populated = false → Answers (.ddrSweep q c keep) s fun t =>
      Replied q 0x0904 stBadArg true [] s t ∧ TakenFrom q.mbx 0x0904 s t)
    ∧ (c < 8 → keep < 2 → (s.chan c).populated = true →
      (s.sec.scm.keyFail = true → Answers (.ddrSweep q c keep) s fun t =>
        Replied q 0x0904 stNotReady true [] s t ∧ TakenFrom q.mbx 0x0904 s t)
      ∧ (s.sec.scm.keyFail = false → s.dev.mode ≠ .safe → Answers (.ddrSweep q c keep) s fun t =>
        Replied q 0x0904 stWrong true [] s t ∧ TakenFrom q.mbx 0x0904 s t)))
  ∧ (∀ (q : CmdCtx) (u rank chip : Nat) (s : State), u < 16 → rank < 2 → chip ≤ 9 → MayIssue q 0x0905 3 s →
    rank < (s.chan (u / 2)).ranks → (s.dev.mode ≠ .run ∧ s.dev.mode ≠ .trim) ∨ markOf (s.sub u) rank = none →
    Answers (.ddrMarkChip q u rank chip) s fun t => Replied q 0x0905 stOk true [] s t
      ∧ TakenFrom q.mbx 0x0905 (s.modSub u fun x => if rank = 0 then { x with mark0 := true, chip0 := chip }
        else { x with mark1 := true, chip1 := chip }) t)
  ∧ (∀ (q : CmdCtx) (u rank : Nat) (s : State), u < 16 → rank < 2 → MayIssue q 0x0905 3 s → rank < (s.chan (u / 2)).ranks →
    s.dev.mode = .safe → Answers (.ddrMarkChip q u rank 0xFF) s fun t => Replied q 0x0905 stOk true [] s t
      ∧ TakenFrom q.mbx 0x0905 (s.modSub u fun x => if rank = 0 then { x with mark0 := false }
        else { x with mark1 := false }) t)
  ∧ (∀ (q : CmdCtx) (u rank chip k : Nat) (s : State), u < 16 → rank < 2 → chip ≤ 9 ∨ chip = 0xFF → MayIssue q 0x0905 3 s →
    rank < (s.chan (u / 2)).ranks → markOf (s.sub u) rank = some k → k ≠ chip → s.dev.mode = .run ∨ s.dev.mode = .trim →
    Answers (.ddrMarkChip q u rank chip) s fun t => Replied q 0x0905 stWrong true [] s t ∧ TakenFrom q.mbx 0x0905 s t)
  ∧ (∀ (q : CmdCtx) (u rank chip : Nat) (s : State), u < 256 → rank < 256 → chip < 256 → MayIssue q 0x0905 3 s →
    16 ≤ u ∨ (s.chan (u / 2)).ranks ≤ rank ∨ (10 ≤ chip ∧ chip ≠ 0xFF) → Answers (.ddrMarkChip q u rank chip) s fun t =>
      Replied q 0x0905 stBadArg true [] s t ∧ TakenFrom q.mbx 0x0905 s t)

/-! ### Lanes, Ethernet ports and the host port (chapter 12, R495 to R501) -/

/-- R448, R450: line coding. A character has ten bits and keeps the running disparity, or turns it and leans its way; a
receiver at the same disparity takes its value back; what a PAM4 sender makes of bits, a receiver of the same setting
takes back. R450, R454 to R457, R459, R460: the receive stream. A byte or character of a running lane is stored; a
gathered block is written where it fits, else dropped, counted and OVERRUN; a flush writes the complete units; a write
performed and answered OK moves RX_WPTR and another answer stops the stream, what it had gathered discarded and counted
(that the failed write holds RX_WPTR for good is log 162); RX_RPTR is written but not ahead of RX_WPTR.
It rests on choices of the model: log 79, 83 and 162. -/
def Obligations.ReceiveStreams : Prop :=
  (∀ (k : Bool) (v : Nat) (pos : Bool), v < 256 → (k = true → validK v = true) →
    (∃ c, c = encode8b10b k v pos ∧ c.length = 10
      ∧ (onesOf c = 5 ∧ disparityOf c pos = pos ∨ onesOf c = (if pos then 4 else 6) ∧ disparityOf c pos = !pos))
    ∧ decode8b10b (encode8b10b k v pos) pos = ⟨k, v, false, false⟩)
  ∧ (∀ (inv pre : Bool) (b : List Nat) (last : Nat), (∀ x ∈ b, x < 2) → b.length % 2 = 0 → last < 4 →
    (pam4Receive inv pre (pam4Send inv pre b last).1 last).1 = b)
  ∧ (∀ (l v n : Nat) (s : State), streamLane s l = true → laneMode s l = 2 → (s.lane l).rxEn = true →
    (s.lane l).rxLock = true → (s.lane l).los = false → (s.lane l).coding = 0 → (s.lane l).prbs = 0 →
    (s.lane l).rxInv = false → v < 256 → n = 256 - (s.lane l).rxNext % 256 → ∀ b, b = (s.lane l).rxBuf ++ [BitVec.ofNat 8 v] →
    ((s.lane l).rxStopped = true → exec (.laneRxCharacter l v) s = .next (s.modLane l fun y =>
        { y with dropBytes := min (y.dropBytes + 1) (2 ^ 32 - 1) }))
    ∧ ((s.lane l).rxStopped = false → b.length < n →
        exec (.laneRxCharacter l v) s = .next (s.modLane l fun y => { y with rxBuf := b }))
    ∧ ((s.lane l).rxStopped = false → b.length = n → (s.lane l).rxOut.length < 8 →
        (s.lane l).freeRun = true ∨ ringFill ((s.lane l).rxNext + n) (s.lane l).rxRptr ≤ 2 ^ (s.lane l).rxSize →
        exec (.laneRxCharacter l v) s = .next (s.modLane l fun y => { y with
          rxBuf := [], rxNext := (y.rxNext + n) % 2 ^ 32,
          rxOut := y.rxOut ++ [⟨y.rxBase + y.rxNext % 2 ^ y.rxSize, b, n, false⟩] }))
    ∧ ((s.lane l).rxStopped = false → b.length = n → (s.lane l).rxOut.length < 8 → (s.lane l).freeRun = false →
        2 ^ (s.lane l).rxSize < ringFill ((s.lane l).rxNext + n) (s.lane l).rxRptr →
        exec (.laneRxCharacter l v) s = .next (raiseEvent (192 + l / 4) (s.modLane l fun y => { y with
          rxBuf := [], overrun := true, dropBytes := min (y.dropBytes + n) (2 ^ 32 - 1) }))))
  ∧ (∀ (l v : Nat) (s : State), streamLane s l = false ∨ (s.lane l).rxEn = false ∨ (s.lane l).rxLock = false
      ∨ (s.lane l).los = true → exec (.laneRxCharacter l v) s = .next s)
  ∧ (∀ (l v c : Nat) (k : Bool) (s : State), streamLane s l = true → laneMode s l = 2 → (s.lane l).rxEn = true →
    (s.lane l).rxLock = true → (s.lane l).los = false → (s.lane l).coding = 1 → (s.lane l).prbs = 0 → (s.lane l).align = 0 →
    (s.lane l).format = 0 → (s.lane l).rxInv = false → (s.lane l).rxStopped = false →
    (s.lane l).rxBuf.length + 2 < 256 - (s.lane l).rxNext % 256 →
    decode8b10b (natList 10 v) (s.lane l).rxDisp = ⟨k, c, false, false⟩ →
    exec (.laneRxCharacter l v) s = .next (s.modLane l fun y => { y with
      rxBuf := y.rxBuf ++ [BitVec.ofNat 8 c, if k then 1 else 0], rxOdd := !y.rxOdd, flagged := y.flagged <<< 1,
      rxDisp := disparityOf (natList 10 v) y.rxDisp }))
  ∧ (∀ (l u : Nat) (s : State), streamLane s l = true → (s.lane l).rxEn = true → (s.lane l).rxFlush ≠ 0 →
    (s.lane l).rxStopped = false → (s.lane l).rxOut.length < 8 → (s.lane l).freeRun = true → (s.lane l).rxNext % 32 = 0 →
    (s.lane l).rxNext < 2 ^ 32 → (s.lane l).rxBuf.length < 256 - (s.lane l).rxNext % 256 →
    u = (s.lane l).rxBuf.length / 32 * 32 → 0 < u → exec (.laneRxFlushTimer l) s = .next (s.modLane l fun y => { y with
      rxBuf := y.rxBuf.drop u, rxNext := (y.rxNext + u) % 2 ^ 32,
      rxOut := y.rxOut ++ [⟨y.rxBase + y.rxNext % 2 ^ y.rxSize, y.rxBuf.take u, u, false⟩] }))
  ∧ (∀ (l : Nat) (s : State), (s.lane l).rxFlush = 0 ∨ (s.lane l).rxStopped = true ∨ (s.lane l).rxEn = false →
    exec (.laneRxFlushTimer l) s = .next s)
  ∧ (∀ (l code other : Nat) (data : List Byte) (r : RxWrite) (rest : List RxWrite) (u s : State), l < 80 →
    (s.lane l).rxOut = r :: rest → r.answered = false → (∀ w ∈ rest, w.answered = false) →
    moverWrite r.addr r.data other s = (code, u) →
    (code = 0 → (s.lane l).rxBuf = [] → exec (.laneStreamResponse l false 0 other data) s = .next (u.modLane l fun y =>
      { y with rxOut := rest, rxWptr := (y.rxWptr + r.moves) % 2 ^ 32,
               rxRptr := if y.freeRun then (y.rxWptr + r.moves) % 2 ^ 32 else y.rxRptr }))
    ∧ (code ≠ 0 → exec (.laneStreamResponse l false 0 other data) s = .next (raiseEvent (192 + l / 4) (u.modLane l fun y =>
      { y with rxOut := rest.map fun w => { w with moves := 0 }, streamErr := true, errCode := code, rxStopped := true,
               rxBuf := [], dropBytes := min (y.dropBytes + y.rxBuf.length) (2 ^ 32 - 1) }))))
  ∧ (∀ (l v : Nat) (s : State), l < 80 → v < 2 ^ 32 →
    ((s.lane l).freeRun = true → exec (.laneRxRptrWrite l v) s = .next s)
    ∧ ((s.lane l).freeRun = false → ringFill v (s.lane l).rxRptr ≤ ringFill (s.lane l).rxWptr (s.lane l).rxRptr →
        exec (.laneRxRptrWrite l v) s = .next (s.modLane l fun y => { y with rxRptr := v }))
    ∧ ((s.lane l).freeRun = false → ringFill (s.lane l).rxWptr (s.lane l).rxRptr < ringFill v (s.lane l).rxRptr →
        exec (.laneRxRptrWrite l v) s = .next (raiseEvent (192 + l / 4) (s.modLane l fun y => { y with ptrErr := true }))))

/-- R454, R455, R458, R459, R460, R482: the transmit stream. A write of TX_WPTR ahead of the read position has the ring read;
the answer fills the buffer, unless the stream was restarted since; each byte or character leaves with TX_RPTR; an empty ring
sends idle, K28.5 where IDLE_K is no valid K character; LANE_CFG changes only while both directions are off, and enabling
starts a direction afresh.
It rests on choices of the model: log 78. -/
def Obligations.TransmitStreams : Prop :=
  (∀ (l v n : Nat) (s : State), streamLane s l = true → (s.lane l).txEn = true → (s.lane l).txStopped = false →
    (s.lane l).prbs = 0 → (s.lane l).txBuf = [] → (s.lane l).txOut = [] → (s.lane l).txNext = (s.lane l).txRptr →
    (s.lane l).txNext < 2 ^ 32 → v < 2 ^ 32 → n = ringFill v (s.lane l).txRptr → 0 < n →
    n ≤ 256 - (s.lane l).txNext % 256 → n ≤ 2 ^ (s.lane l).txSize →
    exec (.laneTxWptrWrite l v) s = .next (s.modLane l fun y => { y with
      txWptr := v, txNext := (y.txNext + n) % 2 ^ 32,
      txOut := [⟨y.txBase + y.txNext % 2 ^ y.txSize, n, none, false⟩] }))
  ∧ (∀ (l v : Nat) (s : State), l < 80 → v < 2 ^ 32 → 2 ^ (s.lane l).txSize < ringFill v (s.lane l).txRptr →
    exec (.laneTxWptrWrite l v) s = .next (raiseEvent (192 + l / 4) (s.modLane l fun y => { y with ptrErr := true })))
  ∧ (∀ (l code other : Nat) (r : TxRead) (d data : List Byte) (u s : State), l < 80 → (s.lane l).txOut = [r] →
    r.data = none → (s.lane l).txStopped = false → (s.lane l).txWptr = (s.lane l).txNext →
    moverRead r.addr r.len (other, data) s = ((code, d), u) →
    (code = 0 → exec (.laneStreamResponse l true 0 other data) s = .next (u.modLane l fun y =>
      { y with txOut := [], txBuf := if r.old then y.txBuf else y.txBuf ++ d.take r.len }))
    ∧ (code ≠ 0 → exec (.laneStreamResponse l true 0 other data) s = .next (raiseEvent (192 + l / 4) (u.modLane l fun y =>
      { y with txOut := [], streamErr := true, errCode := code, txStopped := true }))))
  ∧ (∀ (l : Nat) (b c : Byte) (rest : List Byte) (s : State), streamLane s l = true → laneMode s l = 2 →
    (s.lane l).txEn = true → (s.lane l).prbs = 0 → (s.lane l).txInv = false → (s.lane l).txWptr = (s.lane l).txNext →
    ((s.lane l).coding = 0 → (s.lane l).txStopped = false → (s.lane l).txBuf = b :: rest →
      exec (.laneTxCharacter l) s = .next (s.modLane l fun y => { y with
        txBuf := rest, txRptr := (y.txRptr + 1) % 2 ^ 32, txOutput := b.toNat }))
    ∧ ((s.lane l).coding = 0 → (s.lane l).txStopped = true ∨ (s.lane l).txBuf = [] →
      exec (.laneTxCharacter l) s = .next (s.modLane l fun y => { y with
        txOutput := y.txIdle / 256 ^ y.idlePos % 256, idlePos := (y.idlePos + 1) % 4 }))
    ∧ ((s.lane l).coding = 1 → (s.lane l).format = 1 → (s.lane l).txStopped = false → (s.lane l).txBuf = b :: rest →
      exec (.laneTxCharacter l) s = .next (s.modLane l fun y => { y with
        txBuf := rest, txRptr := (y.txRptr + 1) % 2 ^ 32, txOutput := listNat (encode8b10b false b.toNat y.txDisp),
        txDisp := disparityOf (encode8b10b false b.toNat y.txDisp) y.txDisp }))
    ∧ ((s.lane l).coding = 1 → (s.lane l).format = 0 → (s.lane l).txStopped = false → (s.lane l).txBuf = b :: c :: rest →
      ∀ (k : Bool) (w : Nat), k = c.getLsbD 0 → w = (if k = true ∧ validK b.toNat = false then 0xBC else b.toNat) →
      exec (.laneTxCharacter l) s = .next (s.modLane l fun y => { y with
        txBuf := rest, txRptr := (y.txRptr + 2) % 2 ^ 32, txOutput := listNat (encode8b10b k w y.txDisp),
        txDisp := disparityOf (encode8b10b k w y.txDisp) y.txDisp }))
    ∧ ((s.lane l).coding = 1 → (s.lane l).txStopped = true ∨ (s.lane l).txBuf = [] →
      ∀ w, w = (if validK (s.lane l).idleK then (s.lane l).idleK else 0xBC) →
      exec (.laneTxCharacter l) s = .next (s.modLane l fun y => { y with
        txOutput := listNat (encode8b10b true w y.txDisp), txDisp := disparityOf (encode8b10b true w y.txDisp) y.txDisp })))
  ∧ (∀ (l : Nat) (s : State), streamLane s l = false ∨ (s.lane l).txEn = false → exec (.laneTxCharacter l) s = .next s)
  ∧ (∀ (l v : Nat) (s : State), l < 80 → v < 2 ^ 32 → (s.lane l).txEn = false → (s.lane l).rxEn = false →
    Answers (.laneCfgWrite l v) s fun t => ∃ y, t.lane l = y ∧ y.txEn = bit v 31 ∧ y.rxEn = bit v 30 ∧ y.txInv = bit v 29
      ∧ y.rxInv = bit v 28 ∧ y.txPrecode = bit v 27 ∧ y.rxPrecode = bit v 26 ∧ y.coding = bits v 24 2 ∧ y.format = bits v 22 2
      ∧ y.align = bits v 20 2 ∧ y.prbs = bits v 18 2 ∧ y.freeRun = bit v 17 ∧ y.alignK = bits v 8 8 ∧ y.idleK = bits v 0 8
      ∧ (bit v 31 = true → y.txDisp = false) ∧ (bit v 30 = true → y.rxDisp = false ∧ y.aligned = false)
      ∧ (∀ m, m ≠ l → t.lane m = s.lane m) ∧ t = { s with lan := { s.lan with lanes := t.lan.lanes } })
  ∧ (∀ (l v : Nat) (s : State), l < 80 → v < 2 ^ 32 → (s.lane l).txEn = true ∨ (s.lane l).rxEn = true →
    laneCfgWord (laneWithCfg v (s.lane l)) ≠ laneCfgWord (s.lane l) →
    exec (.laneCfgWrite l v) s = .next (raiseEvent (192 + l / 4) (s.modLane l fun y => { y with ptrErr := true })))

/-- R447, R463, R464, R466, R467, R474, R479, R515, R523: signals and quads. Losing the signal of the nominated port's first
lane ends its tests, and trips the monitor where it is the clock in use; each transition of a quad with its credits; writes to a
PCIe quad change nothing, and in HOLD none of the others moves; LANE_QCFG is written in OFF only.
It rests on choices of the model: log 81. -/
def Obligations.QuadTransitions : Prop :=
  (∀ (l : Nat) (s : State), l < 80 → ¬ (16 ≤ l ∧ l < 48 ∧ l % 4 = 0 ∧ s.clk.recovPort = (l - 16) / 4) →
    exec (.laneLos l) s = .next (s.modLane l fun y => { y with los := true })
    ∧ exec (.laneRxLockLost l) s = .next (s.modLane l fun y => { y with rxLock := false }))
  ∧ (∀ (c : Nat → Instr) (f : Lane → Lane) (p : Nat) (s : State), p < 8 → s.clk.recovPort = p →
    (c = Instr.laneLos ∧ f = fun y => { y with los := true })
      ∨ (c = Instr.laneRxLockLost ∧ f = fun y => { y with rxLock := false }) →
    (s.clk.source ≠ 2 ∨ s.clk.lock = false → exec (c (16 + 4 * p)) s = .next (State.modLane { s with clk := { s.clk with
      recov := {}, tests := s.clk.tests.filter fun t => decide (t.src ≠ Source.recov) } } (16 + 4 * p) f))
    ∧ (s.clk.source = 2 → s.clk.lock = true → exec (c (16 + 4 * p)) s
      = .next { clockTrip 3 (s.modLane (16 + 4 * p) f) with pending := s.pending, fuse := s.fuse }))
  ∧ (∀ (l : Nat) (s : State), l < 80 → exec (.laneSignalReturn l) s = .next (s.modLane l fun y => { y with los := false }))
  ∧ (∀ (l : Nat) (s : State), l < 80 → quadServes s (l / 4) = true → (s.lane l).los = false →
    exec (.laneRxLock l) s = .next (s.modLane l fun y => { y with
      rxLock := true, aligned := false, rxOdd := false, flagged := 0, rxDisp := false, rxLast := 0 }))
  ∧ (∀ (l : Nat) (s : State), quadServes s (l / 4) = false ∨ (s.lane l).los = true → exec (.laneRxLock l) s = .next s)
  ∧ (∀ (q : Nat) (s : State), isPcie s q = true ∨ s.dev.mode = .hold → exec (.laneQcmdEnable q) s = .next s
    ∧ exec (.laneQcmdDisable q) s = .next s ∧ exec (.laneQcmdSleep q) s = .next s ∧ exec (.laneQcmdWake q) s = .next s)
  ∧ (∀ (q : Nat) (s : State), isPcie s q = false → s.dev.mode = .hold → exec (.quadWakeDone q) s = .next s
    ∧ exec (.quadDrainIdle q) s = .next s ∧ exec (.quadDrainTimeout q) s = .next s)
  ∧ (∀ (q n : Nat) (s : State), q < 20 → isPcie s q = false → s.dev.mode ≠ .hold →
    n = (if (s.quad q).qmode = 3 ∨ (s.quad q).qmode = 4 then 14 else 10) →
    ((s.quad q).state = .off → (s.quad q).qmode ≠ 4 ∨ (s.port (q - 4)).badFec = false →
      exec (.laneQcmdEnable q) s = .next
        ((s.modQuad q fun y => { y with state := .waitGrant, fromDeep := false }).modSupply 1 fun u =>
          { u with newReqs := u.newReqs ++ [⟨7, q, 3, n, 0⟩] }))
    ∧ ((s.quad q).state = .off → (s.quad q).qmode = 4 → (s.port (q - 4)).badFec = true →
      exec (.laneQcmdEnable q) s = .next s)
    ∧ ((s.quad q).state = .deep → (s.quad q).qmode ≠ 4 ∨ (s.port (q - 4)).badFec = false →
      exec (.laneQcmdWake q) s = .next
        ((s.modQuad q fun y => { y with state := .waitGrant, fromDeep := true }).modSupply 1 fun u =>
          { u with newReqs := u.newReqs ++ [⟨7, q, 3, n - 2, 0⟩] }))
    ∧ ((s.quad q).state = .draining → exec (.laneQcmdEnable q) s = .next
        (s.modQuad q fun y => { y with pendingEnable := true }))
    ∧ ((s.quad q).state ≠ .off → (s.quad q).state ≠ .draining → exec (.laneQcmdEnable q) s = .next s)
    ∧ (∀ (c : Nat → Instr) (d : Bool), (s.quad q).state = .on →
      (c = Instr.laneQcmdDisable ∧ d = false) ∨ (c = Instr.laneQcmdSleep ∧ d = true) → Answers (c q) s fun t =>
        t.quad q = { s.quad q with state := .draining, toDeep := d } ∧ (∀ m, m ≠ q → t.quad m = s.quad m)
        ∧ (∀ l, l / 4 = q → t.lane l = { s.lane l with rxBuf := [] }) ∧ (∀ l, l / 4 ≠ q → t.lane l = s.lane l)
        ∧ t = { s with lan := { s.lan with quads := t.lan.quads, lanes := t.lan.lanes } })
    ∧ ((s.quad q).state = .waitGrant ∨ (s.quad q).state = .deep → Answers (.laneQcmdDisable q) s fun t =>
      (t.quad q).state = .off ∧ heldBy t 7 q = 0 ∧ (∀ m, m ≠ q → t.quad m = s.quad m) ∧ t.lan.lanes = s.lan.lanes)
    ∧ ((s.quad q).state = .draining → Answers (.laneQcmdDisable q) s fun t =>
      t.quad q = { s.quad q with pendingEnable := false, toDeep := false, trimSlept := false }
      ∧ ∀ m, m ≠ q → t.quad m = s.quad m)
    ∧ ((s.quad q).state ≠ .on → exec (.laneQcmdSleep q) s = .next s)
    ∧ ((s.quad q).state ≠ .deep → exec (.laneQcmdWake q) s = .next s))
  ∧ (∀ (q : Nat) (s : State), quadMoves s q = true → (s.quad q).state = .waking → (s.quad q).refLost = false →
    Answers (.quadWakeDone q) s fun t => t.quad q = { s.quad q with state := .on, trimSlept := false }
      ∧ (∀ m, m ≠ q → t.quad m = s.quad m) ∧ (∀ i, i < 4 → (s.lane (4 * q + i)).rxEn = true →
        (t.lane (4 * q + i)).aligned = false ∧ (t.lane (4 * q + i)).rxDisp = false))
  ∧ (∀ (q : Nat) (s : State), (s.quad q).state ≠ .waking ∨ (s.quad q).refLost = true → exec (.quadWakeDone q) s = .next s)
  ∧ (∀ (q : Nat) (s : State), quadMoves s q = true → (s.quad q).state = .draining → quadQuiet s q = true →
    (s.quad q).qmode = 4 → (s.port (q - 4)).linkUp = false →
    (s.quad q).pendingEnable = false → s.sor.modeChange = none → Answers (.quadDrainIdle q) s fun t =>
      (t.quad q).state = (if (s.quad q).toDeep then .deep else .off) ∧ ((s.quad q).toDeep = false → heldBy t 7 q = 0))
  ∧ (∀ (q : Nat) (s : State), quadMoves s q = true → (s.quad q).state = .draining → quadQuiet s q = true →
    (s.quad q).qmode ≠ 4 → s.sor.modeChange = none →
    ((s.quad q).pendingEnable = false → Answers (.quadDrainIdle q) s fun t =>
      (t.quad q).state = (if (s.quad q).toDeep then .deep else .off) ∧ ((s.quad q).toDeep = false → heldBy t 7 q = 0)
      ∧ ∀ i, i < 4 → t.lane (4 * q + i) = { s.lane (4 * q + i) with rxLock := false, aligned := false, rxBuf := [] })
    ∧ ((s.quad q).pendingEnable = true → Answers (.quadDrainIdle q) s fun t =>
      (t.quad q).state = .waitGrant ∧ (t.quad q).pendingEnable = false ∧ (t.quad q).fromDeep = (s.quad q).toDeep))
  ∧ (∀ (q : Nat) (s : State), quadMoves s q = true → (s.quad q).state = .draining → quadQuiet s q = false →
    s.sor.modeChange = none →
    Answers (.quadDrainTimeout q) s fun t => t.quad q = { s.quad q with
        state := .on, pendingEnable := false, busyRefused := true, trimSlept := false }
      ∧ (∀ m, m ≠ q → t.quad m = s.quad m) ∧ t.evt.pend.getLsbD (192 + q) = true)
  ∧ (∀ (q : Nat) (s : State), (quadQuiet s q = false → exec (.quadDrainIdle q) s = .next s)
    ∧ (quadQuiet s q = true → exec (.quadDrainTimeout q) s = .next s))
  ∧ (∀ (q : Nat) (s : State), q < 20 →
    ((s.quad q).state = .waking ∨ (s.quad q).state = .on →
      exec (.quadRefLost q) s = .next (raiseEvent (192 + q) (s.modQuad q fun y => { y with refLost := true })))
    ∧ ((s.quad q).state ≠ .waking → (s.quad q).state ≠ .on → exec (.quadRefLost q) s = .next s))
  ∧ (∀ (q : Nat) (s : State), q < 20 → (s.quad q).refLost = true → isPcie s q = true ∨ quadRefOk s q = true →
    exec (.quadRefReturn q) s = .next (s.modQuad q fun y => { y with
      refLost := false, state := if y.state = .on ∧ quadMoves s q = true then .waking else y.state }))
  ∧ (∀ (q v : Nat) (s : State), q < 20 → v < 2 ^ 32 →
    (isPcie s q = false → (s.quad q).state = .off → quadModeOk q (bits v 25 3) (bits v 0 22) = true →
      exec (.laneQcfgWrite q v) s = .next (s.modQuad q fun y => { y with
        qmode := bits v 25 3, keepInTrim := bit v 24,
        baud := if bits v 25 3 = 4 then speedBaud (s.port (q - 4)).speed else bits v 0 22 }))
    ∧ (isPcie s q = true ∨ (s.quad q).state ≠ .off ∨ quadModeOk q (bits v 25 3) (bits v 0 22) = false →
      exec (.laneQcfgWrite q v) s = .next (s.modQuad q fun y => { y with refused := true })))

/-- R445, R463, R468, R474, R479, R484, R485, R488: the lane commands. A quad's mode is set in OFF; an enable waits for its
grant, an action on a PCIe quad or in HOLD is WRONG_STATE, one for the state it stands in is OK (log 73); a stream that runs is
not set; 0x0A04 restarts a stream, what it had outstanding moving nothing; a port takes a speed only with a FEC it allows; and
what each refuses, in the order of R689.
It rests on choices of the model: log 73 and 74. -/
def Obligations.LaneCommands : Prop :=
  (∀ (q : CmdCtx) (quad m baud keep : Nat) (s : State), quad < 20 → m < 8 → baud < 2 ^ 22 → keep ≤ 1 →
    quadModeOk quad m baud = true → MayIssue q 0x0A01 9 s → s.dev.ready.lanes = true →
    (isPcie s quad = false → (s.quad quad).state = .off → Answers (.laneQuadSet q quad m baud keep) s fun t =>
      Replied q 0x0A01 stOk true [] s t ∧ TakenFrom q.mbx 0x0A01 (s.modQuad quad fun y => { y with
        qmode := m, baud := if m = 4 then speedBaud (s.port (quad - 4)).speed else baud,
        keepInTrim := decide (keep = 1) }) t)
    ∧ (isPcie s quad = true ∨ (s.quad quad).state ≠ .off → Answers (.laneQuadSet q quad m baud keep) s fun t =>
      Replied q 0x0A01 stWrong true [] s t ∧ TakenFrom q.mbx 0x0A01 s t))
  ∧ (∀ (q : CmdCtx) (quad m baud keep : Nat) (s : State), quad < 256 → m < 256 → baud < 2 ^ 32 → keep < 256 →
    MayIssue q 0x0A01 9 s →
    (20 ≤ quad ∨ 2 ≤ keep ∨ quadModeOk quad m baud = false → Answers (.laneQuadSet q quad m baud keep) s fun t =>
      Replied q 0x0A01 stBadArg true [] s t ∧ TakenFrom q.mbx 0x0A01 s t)
    ∧ (quad < 20 → keep < 2 → quadModeOk quad m baud = true → s.dev.ready.lanes = false →
      Answers (.laneQuadSet q quad m baud keep) s fun t =>
        Replied q 0x0A01 stNotReady true [] s t ∧ TakenFrom q.mbx 0x0A01 s t))
  ∧ (∀ (q : CmdCtx) (quad : Nat) (s : State), quad < 20 → MayIssue q 0x0A02 2 s → s.dev.ready.lanes = true →
    isPcie s quad = false → s.dev.mode ≠ .hold → (s.quad quad).state = .off → (s.quad quad).qmode = 2 →
    Answers (.laneQuadPower q quad 1) s fun t => Replied q 0x0A02 stPending false [] s t ∧ Waits q 0x0A02 quad 1 s t
      ∧ TakenFrom q.mbx 0x0A02 ((s.modQuad quad fun y => { y with state := .waitGrant, fromDeep := false }).modSupply 1
        fun u => { u with newReqs := u.newReqs ++ [⟨7, quad, 3, 10, 0⟩] }) t)
  ∧ (∀ (q : CmdCtx) (quad a : Nat) (s : State), quad < 20 → a < 4 → MayIssue q 0x0A02 2 s → s.dev.ready.lanes = true →
    isPcie s quad = false → s.dev.mode ≠ .hold →
    ((s.quad quad).state = (if a = 0 then .off else if a = 2 then .deep else .on) →
      Answers (.laneQuadPower q quad a) s fun t =>
        RepliedBoth q 0x0A02 stOk [BitVec.ofNat 8 (quadState (s.quad quad).state)] s t ∧ TakenFrom q.mbx 0x0A02 s t)
    ∧ ((a = 1 ∨ a = 3) → (s.quad quad).state = .waking → Answers (.laneQuadPower q quad a) s fun t =>
      Replied q 0x0A02 stPending false [] s t ∧ Waits q 0x0A02 quad a s t ∧ TakenFrom q.mbx 0x0A02 s t)
    ∧ ((a = 0 ∨ a = 2) → (s.quad quad).state = .on → Answers (.laneQuadPower q quad a) s fun t =>
      Replied q 0x0A02 stPending false [] s t ∧ Waits q 0x0A02 quad a s t
      ∧ t.quad quad = { s.quad quad with state := .draining, toDeep := decide (a = 2) })
    ∧ (a = 0 → (s.quad quad).state = .waitGrant → (∀ m, m < 18 → (s.mailbox m).tasks = []) →
      Answers (.laneQuadPower q quad a) s fun t => RepliedBoth q 0x0A02 stOk [0] s t ∧ (t.quad quad).state = .off)
    ∧ ((a = 2 ∧ (s.quad quad).state = .off) ∨ (a = 3 ∧ (s.quad quad).state = .off)
        ∨ (a = 0 ∧ (s.quad quad).state = .waking) ∨ (a = 1 ∧ (s.quad quad).state = .deep) →
      Answers (.laneQuadPower q quad a) s fun t =>
        Replied q 0x0A02 stWrong true [BitVec.ofNat 8 (quadState (s.quad quad).state)] s t ∧ TakenFrom q.mbx 0x0A02 s t))
  ∧ (∀ (q : CmdCtx) (quad a : Nat) (s : State), quad < 256 → a < 256 → MayIssue q 0x0A02 2 s →
    (20 ≤ quad ∨ 4 ≤ a → Answers (.laneQuadPower q quad a) s fun t =>
      Replied q 0x0A02 stBadArg true [] s t ∧ TakenFrom q.mbx 0x0A02 s t)
    ∧ (quad < 20 → a < 4 →
      (s.dev.ready.lanes = false → Answers (.laneQuadPower q quad a) s fun t =>
        Replied q 0x0A02 stNotReady true [] s t ∧ TakenFrom q.mbx 0x0A02 s t)
      ∧ (s.dev.ready.lanes = true → isPcie s quad = true ∨ s.dev.mode = .hold → Answers (.laneQuadPower q quad a) s fun t =>
        Replied q 0x0A02 stWrong true [] s t ∧ TakenFrom q.mbx 0x0A02 s t)))
  ∧ (∀ (q : CmdCtx) (l dir base size flush free : Nat) (s : State), l < 80 → dir ≤ 1 → free ≤ 1 → 12 ≤ size → size ≤ 30 →
    flush < 256 → base < 2 ^ 64 → base % 2 ^ size = 0 → MayIssue q 0x0A03 19 s →
    (s.dev.ready.lanes = true → (s.quad (l / 4)).state ≠ .on
        ∨ (if dir = 1 then (s.lane l).txEn else (s.lane l).rxEn) = false →
      Answers (.laneStreamSet q l dir base size flush free) s fun t =>
      Replied q 0x0A03 stOk true [] s t ∧ TakenFrom q.mbx 0x0A03 (s.modLane l fun y =>
        if dir = 1 then { y with txBase := base, txSize := size }
        else { y with rxBase := base, rxSize := size, rxFlush := flush, freeRun := decide (free = 1) }) t)
    ∧ (s.dev.ready.lanes = true → (s.quad (l / 4)).state = .on →
      (if dir = 1 then (s.lane l).txEn else (s.lane l).rxEn) = true →
      Answers (.laneStreamSet q l dir base size flush free) s fun t =>
        Replied q 0x0A03 stWrong true [] s t ∧ TakenFrom q.mbx 0x0A03 s t)
    ∧ (s.dev.ready.lanes = false → Answers (.laneStreamSet q l dir base size flush free) s fun t =>
        Replied q 0x0A03 stNotReady true [] s t ∧ TakenFrom q.mbx 0x0A03 s t))
  ∧ (∀ (q : CmdCtx) (l dir base size flush free : Nat) (s : State), l < 256 → dir < 256 → base < 2 ^ 64 → size < 256 →
    flush < 256 → free < 256 → MayIssue q 0x0A03 19 s →
    80 ≤ l ∨ 2 ≤ dir ∨ 2 ≤ free ∨ size < 12 ∨ 30 < size ∨ base % 2 ^ size ≠ 0 →
    Answers (.laneStreamSet q l dir base size flush free) s fun t =>
      Replied q 0x0A03 stBadArg true [] s t ∧ TakenFrom q.mbx 0x0A03 s t)
  ∧ (∀ (q : CmdCtx) (l : Nat) (s : State), l < 80 → MayIssue q 0x0A04 2 s → s.dev.ready.lanes = true →
    (s.lane l).txEn = false →
    (Answers (.laneStreamRestart q l 0) s fun t =>
      Replied q 0x0A04 stOk true [] s t ∧ TakenFrom q.mbx 0x0A04 (s.modLane l fun y => { y with
        streamErr := false, errs := 0, rxStopped := false, rxWptr := 0, rxRptr := 0, rxNext := 0, rxBuf := [],
        aligned := false, rxOdd := false, flagged := 0, rxDisp := false, rxLast := 0,
        rxOut := y.rxOut.map fun r => { r with moves := 0 } }) t)
    ∧ (Answers (.laneStreamRestart q l 1) s fun t =>
      Replied q 0x0A04 stOk true [] s t ∧ TakenFrom q.mbx 0x0A04 (s.modLane l fun y => { y with
        streamErr := false, errs := 0, txStopped := false, txWptr := 0, txRptr := 0, txNext := 0, txBuf := [],
        txDisp := false, txLast := 0, idlePos := 0, txOut := y.txOut.map fun r => { r with old := true } }) t))
  ∧ (∀ (q : CmdCtx) (l dir : Nat) (s : State), l < 256 → dir < 256 → MayIssue q 0x0A04 2 s →
    (80 ≤ l ∨ 2 ≤ dir → Answers (.laneStreamRestart q l dir) s fun t =>
      Replied q 0x0A04 stBadArg true [] s t ∧ TakenFrom q.mbx 0x0A04 s t)
    ∧ (l < 80 → dir < 2 → s.dev.ready.lanes = false → Answers (.laneStreamRestart q l dir) s fun t =>
      Replied q 0x0A04 stNotReady true [] s t ∧ TakenFrom q.mbx 0x0A04 s t))
  ∧ (∀ (q : CmdCtx) (p speed fec flags : Nat) (mac : BitVec 48) (s : State), p < 256 → speed < 256 → fec < 256 → flags < 256 →
    MayIssue q 0x0A05 15 s →
    (8 ≤ p ∨ fecAllowed speed fec = false → Answers (.ethPortSet q p speed fec mac flags) s fun t =>
      Replied q 0x0A05 stBadArg true [] s t ∧ TakenFrom q.mbx 0x0A05 s t)
    ∧ (p < 8 → fecAllowed speed fec = true →
      (s.dev.ready.lanes = false → Answers (.ethPortSet q p speed fec mac flags) s fun t =>
        Replied q 0x0A05 stNotReady true [] s t ∧ TakenFrom q.mbx 0x0A05 s t)
      ∧ (s.dev.ready.lanes = true → (s.quad (4 + p)).state ≠ .off → Answers (.ethPortSet q p speed fec mac flags) s fun t =>
        Replied q 0x0A05 stWrong true [] s t ∧ TakenFrom q.mbx 0x0A05 s t)
      ∧ (s.dev.ready.lanes = true → (s.quad (4 + p)).state = .off → Answers (.ethPortSet q p speed fec mac flags) s fun t =>
        Replied q 0x0A05 stOk true [] s t ∧ TakenFrom q.mbx 0x0A05 ((s.modPort p fun x => { x with
            speed, fec, mac, promisc := bit flags 0, mcastEn := bit flags 1, ptpSorrel := bit flags 2, badFec := false }).modQuad
          (4 + p) fun y => { y with qmode := 4, baud := speedBaud speed }) t)))
  ∧ (∀ (q : CmdCtx) (p : Nat) (s : State), p < 256 → MayIssue q 0x0A06 1 s →
    (8 ≤ p → Answers (.ethPortStatus q p) s fun t => Replied q 0x0A06 stBadArg true [] s t ∧ TakenFrom q.mbx 0x0A06 s t)
    ∧ (p < 8 → s.dev.ready.lanes = false → Answers (.ethPortStatus q p) s fun t =>
      Replied q 0x0A06 stNotReady true [] s t ∧ TakenFrom q.mbx 0x0A06 s t))
  ∧ (∀ (q : CmdCtx) (l : Nat) (s : State), l < 256 → MayIssue q 0x0A07 1 s →
    (80 ≤ l → Answers (.laneStatus q l) s fun t => Replied q 0x0A07 stBadArg true [] s t ∧ TakenFrom q.mbx 0x0A07 s t)
    ∧ (l < 80 → s.dev.ready.lanes = false → Answers (.laneStatus q l) s fun t =>
      Replied q 0x0A07 stNotReady true [] s t ∧ TakenFrom q.mbx 0x0A07 s t))

/-- R468, R469, R470, R471, R472, R479, R485, R497, R498, R500: the Ethernet ports. Frames of a wrong length, a bad FCS or pause
frames are counted and dropped, frames for another are dropped, a frame for the port becomes a record; a transmit record,
read from the ring, becomes a frame, after the transparent clock's copies; a record that cannot be read or has a bad length
stops the stream; a one-step request on another frame sets TS_BAD; a capture where asked; a link that comes up or is lost; a
held copy leaves with its residence time added where asked.
It rests on choices of the model: log 76 and 77. -/
def Obligations.EthernetPorts : Prop :=
  (∀ (p sub : Nat) (w f : List Byte) (s : State), portPasses s p = true → f = w.take (w.length - 4) →
    (w.length < 64 ∨ 9600 < w.length → exec (.ethRxFrame p sub w) s = .next (portCount p 3 1 s))
    ∧ (64 ≤ w.length → w.length ≤ 9600 → ofLe (w.drop (w.length - 4)) ≠ fcsOf f →
      exec (.ethRxFrame p sub w) s = .next (portCount p 2 1 s))
    ∧ (64 ≤ w.length → w.length ≤ 9600 → ofLe (w.drop (w.length - 4)) = fcsOf f → etherType f = 0x8808 →
      exec (.ethRxFrame p sub w) s = .next (portCount p 5 1 s))
    ∧ (64 ≤ w.length → w.length ≤ 9600 → ofLe (w.drop (w.length - 4)) = fcsOf f → etherType f ≠ 0x8808 → ptpAt f = none →
      (s.port p).promisc = false → BitVec.ofNat 48 (ofLe (f.take 6)) ≠ (s.port p).mac →
      isMulticast f = false ∨ (s.port p).mcastEn = false →
      isBroadcast f = false → exec (.ethRxFrame p sub w) s = .next s))
  ∧ (∀ (p sub : Nat) (w : List Byte) (s : State), portPasses s p = false → exec (.ethRxFrame p sub w) s = .next s)
  ∧ (∀ (p sub n : Nat) (w f : List Byte) (s : State), portPasses s p = true → f = w.take (w.length - 4) → 64 ≤ w.length →
    w.length ≤ 9600 → ofLe (w.drop (w.length - 4)) = fcsOf f → etherType f ≠ 0x8808 → ptpAt f = none →
    addressed (s.port p) f = true → n = 32 + (f.length + 31) / 32 * 32 →
    (s.lane (16 + 4 * p)).rxEn = true → (s.lane (16 + 4 * p)).rxStopped = false → (s.lane (16 + 4 * p)).freeRun = false →
    (s.lane (16 + 4 * p)).rxSize ≤ 30 →
    ((s.lane (16 + 4 * p)).rxOut.length = 8 → ringFill ((s.lane (16 + 4 * p)).rxNext + (s.lane (16 + 4 * p)).rxBuf.length)
        (s.lane (16 + 4 * p)).rxRptr + n ≤ 2 ^ (s.lane (16 + 4 * p)).rxSize → Answers (.ethRxFrame p sub w) s fun t =>
      (t.lane (16 + 4 * p)).rxBuf = (s.lane (16 + 4 * p)).rxBuf ++ (leBytes 2 f.length
        ++ leBytes 2 ((if isMulticast f = true ∧ isBroadcast f = false then 2 else 0) + (if isBroadcast f then 4 else 0))
        ++ leBytes 4 (s.port p).recordNo.toNat ++ leBytes 8 s.now ++ leBytes 16 0) ++ f ++ List.replicate (n - 32 - f.length) 0
      ∧ (t.lane (16 + 4 * p)).rxOut = (s.lane (16 + 4 * p)).rxOut ∧ (∀ m, m ≠ 16 + 4 * p → t.lane m = s.lane m)
      ∧ (t.port p).recordNo = (s.port p).recordNo + 1
      ∧ tget 0 (t.port p).counters 0 = satAdd 48 (tget 0 (s.port p).counters 0) 1
      ∧ tget 0 (t.port p).counters 1 = satAdd 48 (tget 0 (s.port p).counters 1) f.length)
    ∧ (2 ^ (s.lane (16 + 4 * p)).rxSize < ringFill ((s.lane (16 + 4 * p)).rxNext + (s.lane (16 + 4 * p)).rxBuf.length)
        (s.lane (16 + 4 * p)).rxRptr + n → exec (.ethRxFrame p sub w) s = .next (portCount p 4 1 s)))
  ∧ (∀ (p sub code c len n : Nat) (rec_ head : List Byte) (x : Lane) (u s : State), portPasses s p = true →
    noCopies s p = true → x = s.lane (16 + 4 * p) → x.txEn = true → x.txStopped = false → x.txWptr ≠ x.txRptr →
    32 ≤ ringFill x.txWptr x.txRptr → readRing x code rec_ (pieces 2 x.txRptr 32) s = ((c, head), u) →
    len = ofLe (head.take 2) → n = 32 + (len + 31) / 32 * 32 →
    (c ≠ 0 → exec (.ethTxRecord p sub code rec_) s = .next (streamStops (16 + 4 * p) c true u))
    ∧ (c = 0 → len < 60 ∨ 9596 < len → exec (.ethTxRecord p sub code rec_) s = .next (streamStops (16 + 4 * p) 7 true u))
    ∧ (c = 0 → 60 ≤ len → len ≤ 9596 → ringFill x.txWptr x.txRptr < n → exec (.ethTxRecord p sub code rec_) s = .next u)
    ∧ (∀ (body : List Byte) (v : State), c = 0 → 60 ≤ len → len ≤ 9596 → n ≤ ringFill x.txWptr x.txRptr →
      readRing x code (rec_.drop 32) (pieces 40 (x.txRptr + 32) (n - 32)) u = ((0, body), v) →
      (bit (ofLe ((head.drop 2).take 1)) 0 = false → bit (ofLe ((head.drop 2).take 1)) 1 = false →
        exec (.ethTxRecord p sub code rec_) s = .next (portCount p 7 (body.take len).length (portCount p 6 1
          ((v.modLane (16 + 4 * p) fun y => { y with
            txRptr := (y.txRptr + n) % 2 ^ 32, txNext := (y.txRptr + n) % 2 ^ 32 }).modPort p fun z =>
              { z with sent := body.take len }))))
      ∧ (bit (ofLe ((head.drop 2).take 1)) 0 = false → bit (ofLe ((head.drop 2).take 1)) 1 = true →
        ptpAt (body.take len) = none → Answers (.ethTxRecord p sub code rec_) s fun t =>
          t.tim.tsBad = true ∧ t.evt.pend.getLsbD 223 = true ∧ (t.port p).sent = body.take len)))
  ∧ (∀ (p sub code : Nat) (rec_ : List Byte) (s : State), noCopies s p = false ∨ portPasses s p = false →
    exec (.ethTxRecord p sub code rec_) s = .next s)
  ∧ (∀ (l code : Nat) (s : State), streamStops l code true s = raiseEvent (192 + l / 4) (s.modLane l fun y =>
    { y with streamErr := true, errCode := code, txStopped := true }))
  ∧ (∀ (p sub : Nat) (f : List Byte) (s : State), portPasses s p = true → s.dev.ready.sorrel = true →
    ((s.port p).tsFifo.length < 16 → Answers (.ptpFrameSend p sub f true) s fun t => (t.port p).sent = f
      ∧ (∃ e : TsEntry, (t.port p).tsFifo = (s.port p).tsFifo ++ [e] ∧ e.tick = s.now ∧ e.sub = sub % 16)
      ∧ tget 0 (t.port p).counters 6 = satAdd 48 (tget 0 (s.port p).counters 6) 1 ∧ t.lan.lanes = s.lan.lanes)
    ∧ (16 ≤ (s.port p).tsFifo.length → Answers (.ptpFrameSend p sub f true) s fun t => (t.port p).sent = f
      ∧ (t.port p).tsFifo = (s.port p).tsFifo ∧ t.tim.tsOvf = true ∧ t.evt.pend.getLsbD 223 = true)
    ∧ exec (.ptpFrameSend p sub f false) s = .next (portCount p 7 f.length (portCount p 6 1 (s.modPort p fun x =>
      { x with sent := f }))))
  ∧ (∀ (p sub : Nat) (c : TcCopy) (s : State), portPasses s p = true → s.tim.copies.find? (fun c => c.port = p) = some c →
    (c.correct = false → Answers (.tcCopySend p sub) s fun t => (t.port p).sent = c.frame ∧ t.tim.copies = s.tim.copies.erase c)
    ∧ (∀ o k, c.correct = true → ptpAt c.frame = some (o, k) → Answers (.tcCopySend p sub) s fun t =>
      (t.port p).sent = addCorrection c.frame o k ((16 * s.now + sub % 16 - c.ingress) * 8192 / 3)
      ∧ t.tim.copies = s.tim.copies.erase c))
  ∧ (∀ (p sub : Nat) (s : State), noCopies s p = true → exec (.tcCopySend p sub) s = .next s)
  ∧ (∀ (p : Nat) (s : State), p < 8 → quadServes s (4 + p) = true → (s.quad (4 + p)).qmode = 4 →
    Answers (.ethLinkUp p) s fun t => t.port p = { s.port p with
        linkUp := true, localFault := false, remoteFault := false, fecLock := decide ((s.port p).fec ≠ 0) }
      ∧ t.lan.lanes = s.lan.lanes ∧ t.lan.quads = s.lan.quads)
  ∧ (∀ (p : Nat) (loc rem : Bool) (s : State), p < 8 →
    ((s.port p).linkUp = true → s.clk.recovPort ≠ p →
      Answers (.ethLinkLoss p loc rem) s fun t => t.port p = { s.port p with
          linkUp := false, fecLock := false, linkLost := true, localFault := loc, remoteFault := rem }
        ∧ (∀ c ∈ t.tim.copies, c.port ≠ p) ∧ t.evt.pend.getLsbD (212 + p) = true)
    ∧ ((s.port p).linkUp = false → exec (.ethLinkLoss p loc rem) s = .next s))
  ∧ (∀ (p v : Nat) (s : State), p < 8 → v < 2 ^ 32 →
    ((s.quad (4 + p)).state ≠ .off → exec (.ethCfgWrite p v) s = .next (s.modPort p fun x => { x with cfgErr := true }))
    ∧ ((s.quad (4 + p)).state = .off → exec (.ethCfgWrite p v) s = .next ((s.modPort p fun x => { x with
        ptpSorrel := bit v 10, mcastEn := bit v 9, promisc := bit v 8, fec := bits v 4 2, speed := bits v 0 4,
        badFec := !fecAllowed (bits v 0 4) (bits v 4 2),
        cfgErr := x.cfgErr || !fecAllowed (bits v 0 4) (bits v 4 2) }).modQuad (4 + p) fun y =>
          if y.qmode = 4 then { y with baud := speedBaud (bits v 0 4) } else y)))

/-- R475, R476, R478, R487, R598: the host port. A request is split at every 256-byte boundary; each piece takes a free
tag with the translated address; a read's completion is given when no piece of a lower address is outstanding, a write's
failure is recorded; while Sorrel restarts a request is aborted; the link comes up with its width and rate; link down and
the resets end the port, mark what is in the network to be discarded, and change no quad. R11, R12, R14, R15, R119, R323,
R360, R600, R687: accesses of BAR0. Without power nothing is done. An access of another size or alignment changes nothing
and the host's is answered DECODE; 64 bits go as two words, the lower first; RW takes its value, W1C loses the bits
written 1, RO keeps; an FW field takes Sorrel's value, and from the host it keeps its own, with CONFLICT where the bits
differ; a host write in Sorrel's cycle is discarded with CONFLICT. A SCRUB_EN that clears withdraws the request of a burst
that waits; a host's write to a route table in use sets TABLE_LIVE. A LO register read latches its HI for the source port.
It rests on choices of the model: log 82, 103 and 124. -/
def Obligations.HostPortAndRegisters : Prop :=
  (∀ (f len i : Nat) (write : Bool) (data : List Byte) (s : State), s.dev.ready.pcie = true → 0 < len → f % 256 + len ≤ 256 →
    f + len ≤ 0x10000000 → s.lan.pci.reqs.length < 256 → freeHostTag s.lan.pci = some i → data.length = len →
    exec (.pcieHostRequest f len write data) s = .next { s with lan := { s.lan with pci := { s.lan.pci with
      count := s.lan.pci.count + 1,
      reqs := tset none s.lan.pci.reqs i (some ⟨f, barAddress s f, len, write, data, false, s.lan.pci.count + 1,
        if write && waitsPosted f then postedTags s.lan.pci else []⟩) } } })
  ∧ (∀ (f len : Nat) (p : List (Nat × Nat)), 0 < len → len ≤ 4096 → p = pieces 17 f len →
    p.head?.map (·.1) = some f ∧ p.foldl (fun a e => a + e.2) 0 = len
    ∧ ∀ e ∈ p, 0 < e.2 ∧ e.1 / 256 = (e.1 + e.2 - 1) / 256)
  ∧ (∀ (f len : Nat) (write : Bool) (data : List Byte) (s : State), hostShut s = false →
    s.dev.ready.pcie = false ∨ 0x10000000 < f + len ∨ 256 ≤ s.lan.pci.reqs.length →
    exec (.pcieHostRequest f len write data) s = .next s)
  ∧ (∀ (f : Nat) (s : State), (f < 0x04000000 → barAddress s f = f)
    ∧ (0x04000000 ≤ f → f < 0x08000000 → barAddress s f = 0x100000000 + (f - 0x04000000))
    ∧ (0x08000000 ≤ f → barAddress s f = (s.lan.pci.aper.toNat + (f - 0x08000000)) % 2 ^ 64))
  ∧ (∀ (f len : Nat) (data : List Byte) (s : State), hostShut s = true →
    exec (.pcieHostRequest f len false data) s = .next
      { s with lan := { s.lan with pci := { s.lan.pci with completions := HostCpl.aborted f :: s.lan.pci.completions } } }
    ∧ exec (.pcieHostRequest f len true data) s = .next (hostWriteFailed 3 f s))
  ∧ (∀ (t code : Nat) (data : List Byte) (r : HostReq) (s : State), tget none s.lan.pci.reqs t = some r → r.discard = false →
    s.qm.bells = [] → s.lan.pci.held = [] →
    (∀ i q, i ≠ t → tget none s.lan.pci.reqs i = some q → q.req = r.req → r.offset < q.offset) →
    (r.write = false → (hostAnswer t code data s).lan.pci.completions = (if code = 0 then HostCpl.success r.offset data
      else if code = 1 then HostCpl.unsupported r.offset else if code = 2 ∨ code = 3 then HostCpl.aborted r.offset
      else HostCpl.poisoned r.offset r.len) :: s.lan.pci.completions)
    ∧ (r.write = true → code = 0 → (hostAnswer t code data s).lan.pci.completions = s.lan.pci.completions)
    ∧ (r.write = true → code ≠ 0 → s.lan.pci.hostWrErr = false → ∃ u, u = hostAnswer t code data s
      ∧ u.lan.pci.hostWrErr = true ∧ u.lan.pci.errCode = code ∧ u.lan.pci.errOffset = r.offset
      ∧ u.evt.pend.getLsbD 220 = true)
    ∧ tget none (hostAnswer t code data s).lan.pci.reqs t = none)
  ∧ (∀ (width rate : Nat) (s : State), width < 32 → rate < 8 → (s.quad 0).state = .on → isPcie s 0 = true →
    Answers (.pcieLinkUp width rate) s fun t => t.lan = { s.lan with pci := { s.lan.pci with
      linkUp := true, memEnabled := true, linkWidth := width, linkRate := rate } })
  ∧ (∀ (c : Instr) (down rst : Bool) (s : State), (c = .pcieLinkDown ∧ down = true ∧ rst = false)
      ∨ ((c = .pciePerst ∨ c = .pcieHotReset) ∧ down = true ∧ rst = true) ∨ (c = .pcieFlr ∧ down = false ∧ rst = true) →
    Answers c s fun t => t.lan.pci.memEnabled = false ∧ t.lan.pci.linkUp = (s.lan.pci.linkUp && !down)
      ∧ t.lan.pci.held = []
      ∧ (∀ i, tget none t.lan.pci.reqs i = (tget none s.lan.pci.reqs i).map fun x => { x with discard := true })
      ∧ t.lan.pci.msixTable = (if rst then [] else s.lan.pci.msixTable) ∧ t.lan.quads = s.lan.quads
      ∧ t.dev.ready.pcie = false ∧ t.dev.mode = s.dev.mode)
  ∧ (∀ (m : Master) (off size v : Nat) (same : Bool) (s : State), s.dev.powered = false →
    exec (.registerWrite m off size v same) s = .next s)
  ∧ (∀ (src : Initiator) (tag off size v : Nat) (same : Bool) (s : State), s.dev.powered = true →
    (size ≠ 4 ∧ size ≠ 8) ∨ off % size ≠ 0 ∨ 2 ^ 26 < off + size →
    exec (.registerWrite (.host src tag) off size v same) s = .next (answer ⟨src, tag, rDecode, 0, []⟩ s)
    ∧ exec (.registerWrite .sorrel off size v same) s = .next s)
  ∧ (∀ (src : Initiator) (tag off v : Nat) (s : State), off % 8 = 0 → off + 8 ≤ 2 ^ 26 → s.dev.powered = true →
    exec (.registerWrite (.host src tag) off 8 v false) s = .next { answer ⟨src, tag, rOk, 0, []⟩
      (hostPut (off + 4) (v / 2 ^ 32 % 2 ^ 32) (hostPut off (v % 2 ^ 32) s)) with pending := s.pending, fuse := s.fuse })
  ∧ (∀ (src : Initiator) (tag off v : Nat) (s : State), off % 4 = 0 → off + 4 ≤ 2 ^ 26 → s.dev.powered = true →
    exec (.registerWrite (.host src tag) off 4 v true) s = .next (answer ⟨src, tag, rOk, 0, []⟩
      (raiseEvent 11 { s with dev := { s.dev with
        conflict := true, conflictOffset := if s.dev.conflict then s.dev.conflictOffset else off } })))
  ∧ (∀ (v : Nat) (s : State), s.dev.powered = true → v < 2 ^ 32 →
    (s.sor.running = true →
      exec (.registerWrite .sorrel 0x00201000 4 v false) s = .next { s with gov := { s.gov with grantEn := bit v 0 } })
    ∧ (s.sor.running = false → exec (.registerWrite .sorrel 0x00201000 4 v false) s = .next s))
  ∧ (∀ (src : Initiator) (tag v : Nat) (s : State), s.dev.powered = true → v < 2 ^ 32 →
    (bit v 0 = s.gov.grantEn → exec (.registerWrite (.host src tag) 0x00201000 4 v false) s
      = .next (answer ⟨src, tag, rOk, 0, []⟩ s))
    ∧ (bit v 0 ≠ s.gov.grantEn → exec (.registerWrite (.host src tag) 0x00201000 4 v false) s
      = .next (answer ⟨src, tag, rOk, 0, []⟩ (raiseEvent 11 { s with dev := { s.dev with
          conflict := true, conflictOffset := if s.dev.conflict then s.dev.conflictOffset else 0x00201000 } })))
    ∧ exec (.registerWrite (.host src tag) 0x00201008 4 v false) s
      = .next (answer ⟨src, tag, rOk, 0, []⟩ { s with gov := { s.gov with waitWarn := v % 2 ^ 16 } })
    ∧ exec (.registerWrite (.host src tag) 0x00000018 4 v false) s
      = .next (answer ⟨src, tag, rOk, 0, []⟩ { s with dev := { s.dev with lost := s.dev.lost &&& ~~~ BitVec.ofNat 32 v } })
    ∧ exec (.registerWrite (.host src tag) 0x00004004 4 v false) s
      = .next (answer ⟨src, tag, rOk, 0, []⟩ { s with evt := { s.evt with
          pend := s.evt.pend &&& ~~~ BitVec.ofNat 384 (v * 2 ^ 32) } })
    ∧ exec (.registerWrite (.host src tag) 0x00000000 4 v false) s = .next (answer ⟨src, tag, rOk, 0, []⟩ s))
  ∧ (∀ (src : Initiator) (tag gap : Nat) (s : State), s.dev.powered = true → gap < 2 ^ 8 →
    (s.fab.scrub.waitGrant = true → exec (.registerWrite (.host src tag) 0x01009000 4 gap false) s = .next
      { answer ⟨src, tag, rOk, 0, []⟩ (settle { s with
          fab := { s.fab with scrub := { s.fab.scrub with waitGrant := false, en := false, gap } }
          gov := (withdraw kScrub 0 s).gov }) with pending := s.pending, fuse := s.fuse })
    ∧ (s.spd.waitGrant = true → exec (.registerWrite (.host src tag) 0x00C00000 4 gap false) s = .next
      { answer ⟨src, tag, rOk, 0, []⟩ (settle { s with
          spd := { s.spd with waitGrant := false, scrubEn := false, gap }
          gov := (withdraw kScrub 1 s).gov }) with pending := s.pending, fuse := s.fuse }))
  ∧ (∀ (src : Initiator) (tag p i : Nat) (s : State), s.dev.powered = true → p < 120 → i < 30 → s.noc.epoch = false →
    Answers (.registerWrite (.host src tag) (0x00410000 + 0x100 * p + 4 * i) 4
      (readReg s (0x00410000 + 0x100 * p + 4 * i)) false) s fun t =>
        t = answer ⟨src, tag, rOk, 0, []⟩ { s with noc := { s.noc with tableLive := true } })
  ∧ (∀ (src : Initiator) (tag off : Nat) (s : State),
    (pairAt s off = none → exec (.latchedLoRead src tag off) s = .next s)
    ∧ ∀ hi d : Nat, pairAt s off = some (hi, d) → exec (.latchedLoRead src tag off) s = .next
      (answer ⟨src, tag, rOk, 0, leBytes 4 (readReg s off)⟩ { s with dev := { s.dev with
        hiLatch := tset none s.dev.hiLatch (latchKey (sourcePort src) off) (some hi) } }))
  ∧ (∀ s : State, pairAt s 0x24 = some (s.dev.holdTick.toNat / 2 ^ 32 % 2 ^ 32, 0)
    ∧ readReg s 0x24 = s.dev.holdTick.toNat % 2 ^ 32)
  ∧ (∀ (port off hi d : Nat) (s : State), 4 ≤ off → pairAt s off = none → pairAt s (off - 4) = some (hi, d) →
    (∀ h, tget none s.dev.hiLatch (latchKey port (off - 4)) = some h → regRead port off s = (h, s))
    ∧ (tget none s.dev.hiLatch (latchKey port (off - 4)) = none → regRead port off s = (d, s)))

/-! ### Registers, mailboxes, Sorrel and the device (chapters 1, 17, 20 and 21) -/

/-- R603, R612, R613: the slot counts of a mailbox. A doorbell that makes more than 16 slots, or a head past the response
tail, is discarded with PTR_ERR; RESYNC discards the untaken commands and leaves those taken; ENC_V1 changes only in an
idle mailbox; another number than 0 to 17 is no mailbox. R602, R614, R615: the sideband and JTAG reach mailboxes 16 and
17: a frame of whole words is served, another is ignored whole; a read of part of a word is ignored too; MBXACC writes a
word, or reads one for the next Capture-DR, and passes over an offset that is not a word's.
It rests on choices of the model: log 97 and 98. -/
def Obligations.MailboxAccesses : Prop :=
  (∀ (m tail : Nat) (s : State), m < 18 → tail < 2 ^ 16 →
    ((tail + 2 ^ 16 - (s.mailbox m).cmdHead) % 2 ^ 16 ≤ 16 → exec (.mbxDoorbell m tail) s = .next
      (s.modMailbox m fun b => { b with cmdTail := tail }))
    ∧ (16 < (tail + 2 ^ 16 - (s.mailbox m).cmdHead) % 2 ^ 16 → exec (.mbxDoorbell m tail) s = .next
      (s.modMailbox m fun b => { b with ptrErr := true })))
  ∧ (∀ (m head : Nat) (s : State), m < 18 → head < 2 ^ 16 →
    ((head + 2 ^ 16 - (s.mailbox m).rspHead) % 2 ^ 16 ≤ ((s.mailbox m).rspTail + 2 ^ 16 - (s.mailbox m).rspHead) % 2 ^ 16 →
      exec (.mbxRspHeadWrite m head) s = .next (s.modMailbox m fun b => { b with rspHead := head }))
    ∧ (((s.mailbox m).rspTail + 2 ^ 16 - (s.mailbox m).rspHead) % 2 ^ 16 < (head + 2 ^ 16 - (s.mailbox m).rspHead) % 2 ^ 16 →
      exec (.mbxRspHeadWrite m head) s = .next (s.modMailbox m fun b => { b with ptrErr := true })))
  ∧ (∀ (m : Nat) (s : State), m < 18 → exec (.mbxResync m) s = .next
    (s.modMailbox m fun b => { b with cmdHead := (s.mailbox m).cmdTail }))
  ∧ (∀ (m : Nat) (v : Bool) (s : State), m < 18 → (s.mailbox m).encV1 ≠ v →
    ((s.mailbox m).cmdHead = (s.mailbox m).cmdTail → (s.mailbox m).tasks = [] → exec (.mbxEncV1Write m v) s = .next
      (s.modMailbox m fun b => { b with encV1 := v, expectSeq := if v then b.expectSeq % 2 ^ 8 else b.expectSeq }))
    ∧ ((s.mailbox m).cmdHead ≠ (s.mailbox m).cmdTail ∨ (s.mailbox m).tasks ≠ [] → exec (.mbxEncV1Write m v) s = .next
      (s.modMailbox m fun b => { b with ptrErr := true })))
  ∧ (∀ (m n : Nat) (v : Bool) (s : State), 18 ≤ m → exec (.mbxDoorbell m n) s = .next s ∧ exec (.mbxRspHeadWrite m n) s = .next s
    ∧ exec (.mbxResync m) s = .next s ∧ exec (.mbxEncV1Write m v) s = .next s)
  ∧ (∀ (o k : Nat) (s : State), o < 2 ^ 12 → o % 4 = 0 → exec (.spiFrame 0x0B o (4 * k) []) s = .next
    { s with sor := { s.sor with sideband := (List.range k).map fun i => mbxRead s 16 ((o + 4 * i) % 2 ^ 12) } })
  ∧ (∀ (o n : Nat) (data : List Byte) (s : State), o % 4 ≠ 0 ∨ data.length % 4 ≠ 0 →
    exec (.spiFrame 0x02 o n data) s = .next s ∧ exec (.i2cFrame 0x5C true o n data) s = .next s)
  ∧ (∀ (o n : Nat) (data : List Byte) (s : State), o % 4 ≠ 0 ∨ n % 4 ≠ 0 →
    exec (.spiFrame 0x0B o n data) s = .next s ∧ exec (.i2cFrame 0x5C false o n data) s = .next s)
  ∧ (∀ (dr : BitVec 45) (s : State), (dr.toNat / 2 ^ 32 % 2 ^ 12) % 4 ≠ 0 → exec (.jtagMbxacc dr) s = .next s)
  ∧ (∀ (op addr o n : Nat) (w : Bool) (data : List Byte) (s : State), op ≠ 0x02 → op ≠ 0x0B → addr ≠ 0x5C →
    exec (.spiFrame op o n data) s = .next s ∧ exec (.i2cFrame addr w o n data) s = .next s)
  ∧ (∀ (n tail : Nat) (s : State), tail < 2 ^ 16 → (tail + 2 ^ 16 - (s.mailbox 16).cmdHead) % 2 ^ 16 ≤ 16 →
    exec (.spiFrame 0x02 0x008 n (leBytes 4 tail)) s = .next (s.modMailbox 16 fun b => { b with cmdTail := tail })
    ∧ exec (.i2cFrame 0x5C true 0x008 n (leBytes 4 tail)) s = .next (s.modMailbox 16 fun b => { b with cmdTail := tail }))
  ∧ (∀ (dr : BitVec 45) (s : State), (dr.toNat / 2 ^ 32 % 2 ^ 12) % 4 = 0 → dr.getLsbD 44 = false →
    exec (.jtagMbxacc dr) s = .next { s with sor := { s.sor with
      jtagData := BitVec.ofNat 32 (mbxRead s 17 (dr.toNat / 2 ^ 32 % 2 ^ 12)) } })
  ∧ (∀ (dr : BitVec 45) (s : State), dr.toNat / 2 ^ 32 % 2 ^ 12 = 0x014 → dr.getLsbD 44 = true → dr.toNat % 2 ^ 32 < 2 ^ 16 →
    (dr.toNat % 2 ^ 32 + 2 ^ 16 - (s.mailbox 17).rspHead) % 2 ^ 16
      ≤ ((s.mailbox 17).rspTail + 2 ^ 16 - (s.mailbox 17).rspHead) % 2 ^ 16 →
    exec (.jtagMbxacc dr) s = .next (s.modMailbox 17 fun b => { b with rspHead := dr.toNat % 2 ^ 32 }))

/-- R603, R605, R606, R607, R610, R611, R612, R622: taking a command. The command that an opcode row posts is the one that Sorrel
takes from the ring; SEQ out of order is BAD_ARG with SEQ_ERR and EXPECT_SEQ unchanged; a field that must be zero, or too long a
payload, is BAD_ARG with EXPECT_SEQ unchanged; an opcode that is not defined is UNSUPPORTED, and one the debug mailbox may not
issue is RIGHTS; while Sorrel may take no command there, or the ring holds no whole message, or it is another mailbox's turn,
none is taken. A deadline that passes is answered TIMEOUT with LATE, once, and before it has passed nothing is; a waiting command
is answered where its object finishes.
It rests on choices of the model: log 8, 100 and 179. -/
def Obligations.CommandTaking : Prop :=
  (∀ (q : CmdCtx) (st : Staged) (data : List Byte) (s : State), canTake q.mbx s = true → ownTurn q.mbx s = true →
    (s.mailbox q.mbx).encV1 = false → (s.mailbox q.mbx).cmdHead = (s.mailbox q.mbx).cmdTail →
    (s.mailbox q.mbx).cmdTail < 2 ^ 16 → data.length ≤ 240 → q.seq < 2 ^ 16 → q.tag < 2 ^ 32 → q.deadline < 2 ^ 32 →
    s.sor.holdNext = false → exec (.mbxTakeCommand q.mbx st) (postCommand q 0x0E01 data s) = exec (.diagEcho q data) s)
  ∧ (∀ (q : CmdCtx) (op len : Nat) (zeroOk : Bool) (st : Staged) (s : State), canTake q.mbx s = true →
    wholeMessage q.mbx s = true → ownTurn q.mbx s = true → headOf q.mbx s = (q, op, len, zeroOk) →
    (s.mailbox q.mbx).encV1 = false → op / 256 ≠ 6 → op ≠ 0x0703 → s.sor.holdNext = false →
    q.seq ≠ (s.mailbox q.mbx).expectSeq ∨ zeroOk = false ∨ 240 < len → Answers (.mbxTakeCommand q.mbx st) s fun t =>
      (t.mailbox q.mbx).expectSeq = (s.mailbox q.mbx).expectSeq ∧ (t.mailbox q.mbx).tasks = (s.mailbox q.mbx).tasks
      ∧ (t.mailbox q.mbx).cmdHead = ((s.mailbox q.mbx).cmdHead + slotsOf false len) % 2 ^ 16
      ∧ (t.mailbox q.mbx).rspTail = ((s.mailbox q.mbx).rspTail + 1) % 2 ^ 16
      ∧ ringLoad (t.mailbox q.mbx).rspRing (64 * ((s.mailbox q.mbx).rspTail % 16)) 16
        = responseBytes false s (takenTask q op s) stBadArg true (decide (q.seq ≠ (s.mailbox q.mbx).expectSeq)) false []
      ∧ (∀ m, m ≠ q.mbx → t.mailbox m = s.mailbox m) ∧ TakenFrom q.mbx op s t)
  ∧ (∀ (q : CmdCtx) (op len : Nat) (st : Staged) (s : State), canTake q.mbx s = true → wholeMessage q.mbx s = true →
    ownTurn q.mbx s = true → headOf q.mbx s = (q, op, len, true) → (s.mailbox q.mbx).encV1 = false →
    q.seq = (s.mailbox q.mbx).expectSeq → len ≤ 240 → s.sor.holdNext = false →
    op / 256 = 0 ∨ 15 ≤ op / 256 ∨ (q.mbx = 17 ∧ (op = 0x0D04 ∨ op = 0x0D05)) → Answers (.mbxTakeCommand q.mbx st) s fun t =>
      (t.mailbox q.mbx).expectSeq = ((s.mailbox q.mbx).expectSeq + 1) % 2 ^ 16
      ∧ (t.mailbox q.mbx).cmdHead = ((s.mailbox q.mbx).cmdHead + slotsOf false len) % 2 ^ 16
      ∧ (t.mailbox q.mbx).rspTail = ((s.mailbox q.mbx).rspTail + 1) % 2 ^ 16
      ∧ ringLoad (t.mailbox q.mbx).rspRing (64 * ((s.mailbox q.mbx).rspTail % 16)) 16
        = responseBytes false s (takenTask q op s) (if op / 256 = 13 then stRights else stUnsupported) true false false []
      ∧ (∀ m, m ≠ q.mbx → t.mailbox m = s.mailbox m) ∧ TakenFrom q.mbx op s t)
  ∧ (∀ (m : Nat) (st : Staged) (s : State), canTake m s = false ∨ wholeMessage m s = false ∨ ownTurn m s = false →
    exec (.mbxTakeCommand m st) s = .next s)
  ∧ (∀ (m seq : Nat) (k : Task) (s : State), m < 18 → s.dev.ready.sorrel = true → s.sor.restarting = false →
    (s.mailbox m).tasks.find? (fun t => t.seq = seq && decide (t.deadline ≠ 0)
      && decide (t.deadline * msTicks ≤ s.now - t.taken)) = some k → Answers (.mbxDeadline m seq) s fun t =>
      (t.mailbox m).tasks = (s.mailbox m).tasks.erase k ∧ (t.mailbox m).rspTail = ((s.mailbox m).rspTail + 1) % 2 ^ 16
      ∧ ringLoad (t.mailbox m).rspRing (64 * ((s.mailbox m).rspTail % 16)) (if (s.mailbox m).encV1 then 8 else 16)
        = responseBytes (s.mailbox m).encV1 s k stTimeout true false true []
      ∧ (∀ j, j ≠ m → t.mailbox j = s.mailbox j) ∧ t = { s with mbx := t.mbx })
  ∧ (∀ (m seq : Nat) (s : State), (s.mailbox m).tasks.find? (fun t => t.seq = seq && decide (t.deadline ≠ 0)
      && decide (t.deadline * msTicks ≤ s.now - t.taken)) = none → exec (.mbxDeadline m seq) s = .next s)
  ∧ (∀ (op obj st m : Nat) (k : Task) (data : List Byte) (s : State), m < 18 → s.sor.restarting = false →
    (∀ j, j < 18 → (s.mailbox j).tasks.filter (fun t => t.opcode = op && t.obj = obj) = if j = m then [k] else []) →
    finish op obj st data s = finalResponse m k st false data s)

/-- R477, R618, R619, R620: events and vectors. A user event sets its pending bit and another number is discarded; an
acknowledgement arms a vector; an asserted and armed vector is sent and disarmed, stays pending where it may not go, and
one that is neither is not sent, unless it was left pending and may go by now. R597, R598, R612, R628: Sorrel. A mismatch
clears SORREL, PCIE and EVENTS and enters HOLD with cause 3; the restart sets SORREL with event 12 and answers every taken
command, TIMEOUT with LATE or, of the operations that HOLD stops, WRONG_STATE; a millisecond counts. The heartbeat is read
only.
It rests on choices of the model: log 99, 100, 101 and 165. -/
def Obligations.EventsAndSorrel : Prop :=
  (∀ (n : Nat) (s : State), 336 ≤ n → n < 384 → Answers (.evtRaise n) s fun t =>
    t.evt.pend = s.evt.pend ||| BitVec.twoPow 384 n ∧ t = { s with evt := t.evt, eng := t.eng }
      ∧ ((s.route n).sorrelEn = true → s.dev.ready.sorrel = true → t.evt.log = ((s.now, n) :: s.evt.log).take 256)
      ∧ ((s.route n).lineEn = false → t.eng = s.eng))
  ∧ (∀ (n : Nat) (s : State), n < 512 → n < 336 ∨ 384 ≤ n → exec (.evtRaise n) s = .next s)
  ∧ (∀ (v : Nat) (s : State), v < 64 → exec (.evtVecAck v) s = .next { s with evt := { s.evt with
    armed := s.evt.armed ||| BitVec.twoPow 64 v } })
  ∧ (∀ (v : Nat) (s : State), v < 64 → asserted s v = true → s.evt.armed.getLsbD v = true → mayMessage s v = true →
    exec (.msixSend v) s = .next { s with
      evt := { s.evt with armed := s.evt.armed &&& ~~~ BitVec.twoPow 64 v, sent := v :: s.evt.sent },
      lan := { s.lan with pci := { s.lan.pci with pba := s.lan.pci.pba &&& ~~~ BitVec.twoPow 64 v } } })
  ∧ (∀ (v : Nat) (s : State), v < 64 → asserted s v = true → s.evt.armed.getLsbD v = true → mayMessage s v = false →
    exec (.msixSend v) s = .next { s with
      evt := { s.evt with armed := s.evt.armed &&& ~~~ BitVec.twoPow 64 v },
      lan := { s.lan with pci := { s.lan.pci with pba := s.lan.pci.pba ||| BitVec.twoPow 64 v } } })
  ∧ (∀ (v : Nat) (s : State), v < 64 → asserted s v = false ∨ s.evt.armed.getLsbD v = false →
    s.lan.pci.pba.getLsbD v = false → exec (.msixSend v) s = .next s)
  ∧ (∀ (v : Nat) (s : State), v < 64 → asserted s v = false ∨ s.evt.armed.getLsbD v = false →
    s.lan.pci.pba.getLsbD v = true → mayMessage s v = true → exec (.msixSend v) s = .next { s with
      evt := { s.evt with sent := v :: s.evt.sent },
      lan := { s.lan with pci := { s.lan.pci with pba := s.lan.pci.pba &&& ~~~ BitVec.twoPow 64 v } } })
  ∧ (∀ (v : Nat) (s : State), 64 ≤ v → exec (.msixSend v) s = .next s)
  ∧ (∀ (ue : Bool) (s : State), s.sor.running = true → s.dev.mode ≠ .off → s.dev.mode ≠ .hold →
    Answers (.sorrelLockstepMismatch ue) s fun t => t.sor.running = false ∧ t.sor.restarting = true
      ∧ t.sor.mismatches = s.sor.mismatches + 1 ∧ t.sor.sramUe = (if ue then s.sor.sramUe + 1 else s.sor.sramUe)
      ∧ t.dev.mode = .hold ∧ t.dev.holdCause = 3 ∧ t.dev.ready.sorrel = false ∧ t.dev.ready.pcie = false
      ∧ t.dev.ready.events = false ∧ t.lan = s.lan)
  ∧ (∀ (ue : Bool) (s : State), s.sor.running = false → exec (.sorrelLockstepMismatch ue) s = .next s)
  ∧ (∀ s : State, s.sor.restarting = false → exec .sorrelRestartDone s = .next s)
  ∧ (∀ s : State, s.sor.restarting = true → Answers .sorrelRestartDone s fun t => t.sor.running = true
      ∧ t.sor.restarting = false ∧ t.sor.restarts = s.sor.restarts + 1 ∧ t.evt.pend.getLsbD 12 = true
      ∧ (∀ m, m < 18 → (t.mailbox m).tasks = []) ∧ t.dev.mode = s.dev.mode)
  ∧ (∀ (m : Nat) (k : Task) (s : State), s.sor.restarting = true → m < 18 → (s.mailbox m).tasks = [k] →
    (s.dev.mode ≠ .hold → Answers .sorrelRestartDone s fun t =>
      ringLoad (t.mailbox m).rspRing (64 * ((s.mailbox m).rspTail % 16)) (if (s.mailbox m).encV1 then 8 else 16)
        = responseBytes (s.mailbox m).encV1 s k stTimeout true false true [])
    ∧ (s.dev.mode = .hold → k.opcode ∈ [0x0504, 0x0505, 0x0506, 0x0602, 0x0703] → Answers .sorrelRestartDone s fun t =>
      ringLoad (t.mailbox m).rspRing (64 * ((s.mailbox m).rspTail % 16)) (if (s.mailbox m).encV1 then 8 else 16)
        = responseBytes (s.mailbox m).encV1 s k stWrong true false false []))
  ∧ (∀ (ce : Nat) (s : State), exec (.devHeartbeat ce) s = .next { s with
      dev := { s.dev with heartbeat := if s.dev.ready.sorrel then s.dev.heartbeat + 1 else s.dev.heartbeat },
      sor := { s.sor with
        uptimeMs := if s.sor.uptimeOn then s.sor.uptimeMs + 1 else s.sor.uptimeMs,
            sramCe := s.sor.sramCe + BitVec.ofNat 32 ce } })
  ∧ (∀ s : State, readReg s 0x1C = s.dev.heartbeat.toNat) ∧ State.reset.dev.heartbeat = 0
  ∧ (∀ (src : Initiator) (tag v : Nat) (s : State), v < 2 ^ 32 → s.dev.powered = true →
    exec (.registerWrite (.host src tag) 0x1C 4 v false) s = .next (answer ⟨src, tag, rOk, 0, []⟩ s))

/-- R11, R531, R621, R622, R623, R652, R653, R690: the device and diagnostics commands. TRIM is entered from RUN at once with the ratios
aimed at CLK_TRIM_DIV, RUN from TRIM waits for the return ramp's credits; another target or mode is refused; HOLD follows the
answer; a reset waits its millisecond and then restarts as CFG_RESTART_N does; memory and registers are read and written by R11
and the rights of the mailbox's class; events are raised.
It rests on choices of the model: log 96, 102, 104 and 124. -/
def Obligations.DeviceCommands : Prop :=
  (∀ (q : CmdCtx) (target : Nat) (s : State), target < 256 → MayIssue q 0x0102 1 s →
    (target ≠ 3 → target ≠ 4 → Answers (.devModeSet q target) s fun t =>
      Replied q 0x0102 stBadArg true [] s t ∧ TakenFrom q.mbx 0x0102 s t)
    ∧ ((target = 4 ∧ s.dev.mode ≠ .run) ∨ (target = 3 ∧ s.dev.mode ≠ .trim) → Answers (.devModeSet q target) s fun t =>
      Replied q 0x0102 stWrong true [] s t ∧ TakenFrom q.mbx 0x0102 s t)
    ∧ ((target = 4 ∧ s.dev.mode = .run) ∨ (target = 3 ∧ s.dev.mode = .trim) → s.sor.modeChange ≠ none →
      Answers (.devModeSet q target) s fun t => Replied q 0x0102 stBusy true [] s t ∧ TakenFrom q.mbx 0x0102 s t)
    ∧ (target = 4 → s.dev.mode = .run → s.sor.modeChange = none → s.clk.phase = .running →
      Answers (.devModeSet q target) s fun t => t.dev.mode = .trim ∧ ∀ d, d < 4 → (t.clk.div d).target = (s.clk.div d).trim)
    ∧ (target = 4 → s.dev.mode = .run → s.sor.modeChange = none → s.clk.phase = .running → s.clk.lock = true →
      s.clk.coast = false → s.clk.rampWait = false → s.clk.rampHolds = false → s.lan.quads = [] →
      (∀ d, d < 4 → (s.clk.div d).ratio = (s.clk.div d).trim) →
      Answers (.devModeSet q target) s fun t => t.dev.mode = .trim ∧ t.sor.modeChange = none)
    ∧ (target = 3 → s.dev.mode = .trim → s.sor.modeChange = none → s.clk.phase = .running → s.clk.rampHolds = false →
      s.clk.rampWait = false → (∀ k, k < 20 → (s.quad k).trimSlept = false) → Answers (.devModeSet q target) s fun t =>
        Replied q 0x0102 stPending false [] s t ∧ Waits q 0x0102 0 0 s t ∧ TakenFrom q.mbx 0x0102
          (({ s with
              sor := { s.sor with modeChange := some ⟨true⟩ },
              clk := { s.clk with
                div0 := stopRamp s.clk.div0, div1 := stopRamp s.clk.div1, div2 := stopRamp s.clk.div2,
                div3 := stopRamp s.clk.div3, rampWait := true } } : State).modSupply 0
            fun u => { u with newReqs := u.newReqs ++ [⟨8, 0, 2, 32, 0⟩] }) t))
  ∧ (∀ (q : CmdCtx) (s : State), MayIssue q 0x0103 0 s → s.dev.mode ≠ .off → s.dev.mode ≠ .hold →
    Answers (.devHold q) s fun t => t.dev.mode = .hold ∧ t.dev.holdCause = 1 ∧ t.dev.holdCauses = 1 ∧ t.sor.holdNext = false
      ∧ ((s.mailbox q.mbx).tasks = [] →
        ringLoad (t.mailbox q.mbx).rspRing (64 * ((s.mailbox q.mbx).rspTail % 16)) (if (s.mailbox q.mbx).encV1 then 8 else 16)
          = responseBytes (s.mailbox q.mbx).encV1 s (takenTask q 0x0103 s) stOk true false false []))
  ∧ (∀ (q : CmdCtx) (m : Nat) (s : State), 17 < m → m < 256 → MayIssue q 0x0105 1 s → Answers (.mbxStatus q m) s fun t =>
    Replied q 0x0105 stBadArg true [] s t ∧ TakenFrom q.mbx 0x0105 s t)
  ∧ (∀ (q : CmdCtx) (s : State), MayIssue q 0x0104 0 s → Answers (.devReset q) s fun t =>
    Replied q 0x0104 stPending false [] s t ∧ Waits q 0x0104 0 0 s t
      ∧ TakenFrom q.mbx 0x0104 { s with sor := { s.sor with restart := some .reset } } t)
  ∧ (∀ s : State, s.sor.restart = none → exec .restartDelayExpiry s = .next s)
  ∧ (∀ s : State, s.sor.restart = some .reset ∨ s.sor.restart = some .restart → s.dev.mode ≠ .off → s.dev.cfgMode < 8 →
    exec .restartDelayExpiry s = exec (.cfgRestart s.dev.cfgMode s.dev.pullCfgN) s)
  ∧ (∀ s : State, s.sor.restart = some .lifecycle → Answers .restartDelayExpiry s fun t =>
    t.sec.lcs.blowing = s.sec.lcs.blowing ∧ t.fuse = s.fuse ∧ (∀ m, (t.mailbox m).tasks = []))
  ∧ (∀ (q : CmdCtx) (addr size : Nat) (data : List Byte) (s : State), addr < 2 ^ 64 → size = 4 ∨ size = 8 ∨ size = 32 →
    addr % size = 0 → 2 ^ 26 ≤ addr → data.length = size → MayIssue q 0x0E02 9 s →
    ReadsPlain (mbxClass q.mbx) 2 addr size data s → Answers (.diagRead q addr size) s fun t =>
      Replied q 0x0E02 stOk true data s t ∧ TakenFrom q.mbx 0x0E02 s t)
  ∧ (∀ (q : CmdCtx) (addr size : Nat) (data : List Byte) (s : State), addr < 2 ^ 64 → size < 256 →
    (size ≠ 4 ∧ size ≠ 8 ∧ size ≠ 32) ∨ addr % size ≠ 0 →
    (MayIssue q 0x0E02 9 s → Answers (.diagRead q addr size) s fun t =>
      Replied q 0x0E02 stBadArg true [] s t ∧ TakenFrom q.mbx 0x0E02 s t)
    ∧ (MayIssue q 0x0E03 (16 + data.length) s → Answers (.diagWrite q addr size data) s fun t =>
      Replied q 0x0E03 stBadArg true [] s t ∧ TakenFrom q.mbx 0x0E03 s t))
  ∧ (∀ (q : CmdCtx) (addr size : Nat) (data : List Byte) (s w : State), addr < 2 ^ 64 → size = 4 ∨ size = 8 ∨ size = 32 →
    addr % size = 0 → 2 ^ 26 ≤ addr → data.length = size → MayIssue q 0x0E03 (16 + size) s → w.sor = s.sor → w.tim = s.tim →
    w.mbx = s.mbx → w.sec = s.sec → w.pending = s.pending → w.fuse = s.fuse →
    (∀ (m : List (Nat × Mailbox)) (u : Sorrel) (a : Lcs), deviceWrite (mbxClass q.mbx) 2 addr data
        { s with mbx := m, sor := u, sec := { s.sec with lcs := a } }
      = (rOk, { w with mbx := m, sor := u, sec := { s.sec with lcs := a } })) →
    Answers (.diagWrite q addr size data) s fun t => Replied q 0x0E03 stOk true [] s t ∧ TakenFrom q.mbx 0x0E03 w t)
  ∧ (∀ (q : CmdCtx) (addr size : Nat) (data : List Byte) (s : State), addr % size = 0 → addr + size ≤ 2 ^ 26 →
    MayIssue q 0x0E02 9 s → size = 4 ∨ size = 8 ∨ size = 32 →
    (∀ (m : List (Nat × Mailbox)) (u : Sorrel) (a : Lcs),
      rightsJudge (mbxClass q.mbx) 0 true false addr (size - 1) { s with mbx := m, sor := u, sec := { s.sec with lcs := a } }
        = (true, { s with mbx := m, sor := u, sec := { s.sec with lcs := a } })) →
    (size = 32 → Answers (.diagRead q addr size) s fun t =>
      Replied q 0x0E02 stBadArg true [] s t ∧ TakenFrom q.mbx 0x0E02 s t)
    ∧ (size ≠ 32 → (∀ (m : List (Nat × Mailbox)) (u : Sorrel) (a : Lcs),
        regReadBytes (sourcePort ⟨1, 0⟩) addr size { s with mbx := m, sor := u, sec := { s.sec with lcs := a } }
          = (data, { s with mbx := m, sor := u, sec := { s.sec with lcs := a } })) → data.length = size →
      Answers (.diagRead q addr size) s fun t =>
        Replied q 0x0E02 stOk true data s t ∧ TakenFrom q.mbx 0x0E02 s t))
  ∧ (∀ (q : CmdCtx) (addr size : Nat) (data : List Byte) (s : State), addr % size = 0 → addr + size ≤ 2 ^ 26 →
    size = 4 ∨ size = 8 ∨ size = 32 → data.length = size → MayIssue q 0x0E03 (16 + size) s →
    (∀ (m : List (Nat × Mailbox)) (u : Sorrel) (a : Lcs),
      rightsJudge (mbxClass q.mbx) 0 false true addr (size - 1) { s with mbx := m, sor := u, sec := { s.sec with lcs := a } }
        = (true, { s with mbx := m, sor := u, sec := { s.sec with lcs := a } })) →
    (size = 32 → Answers (.diagWrite q addr size data) s fun t =>
      Replied q 0x0E03 stBadArg true [] s t ∧ TakenFrom q.mbx 0x0E03 s t)
    ∧ (size = 4 → addr = 0x00201008 → Answers (.diagWrite q addr size data) s fun t =>
      Replied q 0x0E03 stOk true [] s t
        ∧ TakenFrom q.mbx 0x0E03 { s with gov := { s.gov with waitWarn := ofLe data % 2 ^ 16 } } t))
  ∧ (∀ (q : CmdCtx) (n : Nat) (s : State), n < 2 ^ 16 → MayIssue q 0x0E04 2 s →
    (n ≤ 383 → lifecycle s.fuse ≠ 2 ∨ 335 < n → Answers (.diagRaise q n) s fun t =>
      Replied q 0x0E04 stOk true [] s t ∧ TakenFrom q.mbx 0x0E04 (raiseEvent n s) t)
    ∧ (383 < n → Answers (.diagRaise q n) s fun t => Replied q 0x0E04 stBadArg true [] s t ∧ TakenFrom q.mbx 0x0E04 s t)
    ∧ (n ≤ 335 → lifecycle s.fuse = 2 → Answers (.diagRaise q n) s fun t =>
      Replied q 0x0E04 stRights true [] s t ∧ TakenFrom q.mbx 0x0E04 s t))
end

