-- ==== Sys2Proof/Laws/Tables.lean ====
section
/-! SUPPORT. The laws of the sparse tables: a read after a write to the same key gives the value written, a write leaves
every other key alone, and every write keeps the canonical form. -/

namespace Sys2Proof.Machine

theorem tget_dropLe_gt {α : Type} (d : α) (k i : Nat) (h : k < i) (t : List (Nat × α)) :
    tget d (dropLe k t) i = tget d t i := by
  induction t with
  | nil => rfl
  | cons e t ih =>
    obtain ⟨j, w⟩ := e
    by_cases hj : j ≤ k
    · have h1 : ¬ i < j := by omega
      have h2 : ¬ i = j := by omega
      simp [dropLe, hj, tget, h1, h2, ih]
    · simp [dropLe, hj]

theorem tget_dropLe_le {α : Type} (d : α) (k i : Nat) (h : i ≤ k) (t : List (Nat × α)) :
    tget d (dropLe k t) i = d := by
  induction t with
  | nil => rfl
  | cons e t ih =>
    obtain ⟨j, w⟩ := e
    by_cases hj : j ≤ k
    · simp [dropLe, hj, ih]
    · have h1 : i < j := by omega
      simp [dropLe, hj, tget, h1]

/-- A read after a write. -/
theorem tget_tset {α : Type} [DecidableEq α] (d : α) (t : List (Nat × α)) (k : Nat) (v : α) (i : Nat) :
    tget d (tset d t k v) i = if i = k then v else tget d t i := by
  induction t with
  | nil =>
    by_cases hv : v = d
    · subst hv; simp [tset, tget]
    · by_cases hi : i = k
      · simp [tset, tget, hv, hi]
      · simp [tset, tget, hv, hi]
  | cons e t ih =>
    obtain ⟨j, w⟩ := e
    by_cases hjk : j < k
    · rw [tset, if_pos hjk, tget, ih, tget]
      by_cases hi : i = k
      · subst hi
        rw [if_neg (by omega : ¬ i < j), if_neg (by omega : ¬ i = j)]
        simp
      · simp [hi]
    · rw [tset, if_neg hjk]
      by_cases hv : v = d
      · subst hv
        rw [if_pos rfl]
        by_cases hi : i ≤ k
        · rw [tget_dropLe_le _ _ _ hi]
          by_cases hik : i = k
          · simp [hik]
          · have h1 : i < j := by omega
            rw [if_neg hik, tget, if_pos h1]
        · rw [tget_dropLe_gt _ _ _ (by omega), if_neg (by omega)]
      · rw [if_neg hv, tget]
        by_cases hi : i < k
        · have h1 : i < j := by omega
          rw [if_pos hi, if_neg (by omega), tget, if_pos h1]
        · rw [if_neg hi]
          by_cases hik : i = k
          · rw [if_pos hik, if_pos hik]
          · rw [if_neg hik, if_neg hik, tget_dropLe_gt _ _ _ (by omega)]

@[simp] theorem tget_tset_self {α : Type} [DecidableEq α] (d : α) (t : List (Nat × α)) (k : Nat) (v : α) :
    tget d (tset d t k v) k = v := by simp [tget_tset]

theorem tget_tset_ne {α : Type} [DecidableEq α] (d : α) (t : List (Nat × α)) (k i : Nat) (v : α) (h : i ≠ k) :
    tget d (tset d t k v) i = tget d t i := by simp [tget_tset, h]

@[simp] theorem tget_nil {α : Type} (d : α) (i : Nat) : tget d ([] : List (Nat × α)) i = d := rfl

theorem tget_tmod {α : Type} [DecidableEq α] (d : α) (t : List (Nat × α)) (k : Nat) (f : α → α) (i : Nat) :
    tget d (tmod d t k f) i = if i = k then f (tget d t k) else tget d t i := by simp [tmod, tget_tset]

@[simp] theorem tget_tmod_self {α : Type} [DecidableEq α] (d : α) (t : List (Nat × α)) (k : Nat) (f : α → α) :
    tget d (tmod d t k f) k = f (tget d t k) := by simp [tget_tmod]

theorem tget_tmod_ne {α : Type} [DecidableEq α] (d : α) (t : List (Nat × α)) (k i : Nat) (f : α → α) (h : i ≠ k) :
    tget d (tmod d t k f) i = tget d t i := by simp [tget_tmod, h]

/-- Rising from a higher bound is rising from a lower one. -/
theorem risingFrom_mono {α : Type} (a b : Nat) (h : a ≤ b) (t : List (Nat × α)) (hr : risingFrom b t = true) :
    risingFrom a t = true := by
  cases t with
  | nil => rfl
  | cons e t =>
    obtain ⟨j, w⟩ := e
    simp only [risingFrom, Bool.and_eq_true, decide_eq_true_eq] at hr ⊢
    exact ⟨by omega, hr.2⟩

theorem risingFrom_dropLe {α : Type} (k a : Nat) (t : List (Nat × α)) (hr : risingFrom a t = true) :
    risingFrom (max a (k + 1)) (dropLe k t) = true := by
  induction t generalizing a with
  | nil => rfl
  | cons e t ih =>
    obtain ⟨j, w⟩ := e
    simp only [risingFrom, Bool.and_eq_true, decide_eq_true_eq] at hr
    by_cases hj : j ≤ k
    · simp only [dropLe, hj, if_true]
      have := ih (j + 1) hr.2
      exact risingFrom_mono _ _ (by omega) _ this
    · simp only [dropLe, hj, if_false, risingFrom, Bool.and_eq_true, decide_eq_true_eq]
      exact ⟨by omega, hr.2⟩

theorem all_dropLe {α : Type} (k : Nat) (p : Nat × α → Bool) (t : List (Nat × α)) (h : t.all p = true) :
    (dropLe k t).all p = true := by
  induction t with
  | nil => rfl
  | cons e t ih =>
    obtain ⟨j, w⟩ := e
    simp only [List.all_cons, Bool.and_eq_true] at h
    by_cases hj : j ≤ k
    · simp only [dropLe, hj, if_true]; exact ih h.2
    · simp only [dropLe, hj, if_false, List.all_cons, Bool.and_eq_true]; exact h

theorem risingFrom_tset {α : Type} [DecidableEq α] (d : α) (k a : Nat) (v : α) (t : List (Nat × α))
    (hk : a ≤ k) (hr : risingFrom a t = true) : risingFrom a (tset d t k v) = true := by
  induction t generalizing a with
  | nil =>
    by_cases hv : v = d
    · simp [tset, hv, risingFrom]
    · simp [tset, hv, risingFrom, hk]
  | cons e t ih =>
    obtain ⟨j, w⟩ := e
    have hr0 := hr
    simp only [risingFrom, Bool.and_eq_true, decide_eq_true_eq] at hr
    by_cases hjk : j < k
    · simp only [tset, hjk, if_true, risingFrom, Bool.and_eq_true, decide_eq_true_eq]
      exact ⟨hr.1, ih (j + 1) (by omega) hr.2⟩
    · have hd := risingFrom_dropLe k a _ hr0
      by_cases hv : v = d
      · simp only [tset, hjk, if_false, hv, if_true]
        exact risingFrom_mono _ _ (by omega) _ hd
      · simp only [tset, hjk, if_false, hv, risingFrom, Bool.and_eq_true, decide_eq_true_eq]
        exact ⟨hk, risingFrom_mono _ _ (by omega) _ hd⟩

theorem all_tset {α : Type} [DecidableEq α] (d : α) (k : Nat) (v : α) (t : List (Nat × α))
    (h : t.all (fun e => decide (e.2 ≠ d)) = true) : (tset d t k v).all (fun e => decide (e.2 ≠ d)) = true := by
  induction t with
  | nil =>
    by_cases hv : v = d
    · simp [tset, hv]
    · simp [tset, hv]
  | cons e t ih =>
    obtain ⟨j, w⟩ := e
    have h0 := h
    simp only [List.all_cons, Bool.and_eq_true] at h
    by_cases hjk : j < k
    · simp only [tset, hjk, if_true, List.all_cons, Bool.and_eq_true]; exact ⟨h.1, ih h.2⟩
    · by_cases hv : v = d
      · simp only [tset, hjk, if_false, hv, if_true]; exact all_dropLe _ _ _ h0
      · simp only [tset, hjk, if_false, hv, List.all_cons, Bool.and_eq_true]
        exact ⟨by simpa using hv, all_dropLe _ _ _ h0⟩

/-- A write keeps the canonical form. -/
theorem wf_tset {α : Type} [DecidableEq α] (d : α) (t : List (Nat × α)) (k : Nat) (v : α) (h : Tbl.wf d t = true) :
    Tbl.wf d (tset d t k v) = true := by
  simp only [Tbl.wf, Bool.and_eq_true] at h ⊢
  exact ⟨risingFrom_tset d k 0 v t (Nat.zero_le _) h.1, all_tset d k v t h.2⟩

theorem wf_tmod {α : Type} [DecidableEq α] (d : α) (t : List (Nat × α)) (k : Nat) (f : α → α) (h : Tbl.wf d t = true) :
    Tbl.wf d (tmod d t k f) = true := wf_tset d t k _ h

theorem risingFrom_tmapFrom {α : Type} [DecidableEq α] (d : α) (f : Nat → α → α) (a : Nat) (t : List (Nat × α)) :
    risingFrom a (tmapFrom d f a t) = true := by
  induction t generalizing a with
  | nil => rfl
  | cons e t ih =>
    obtain ⟨j, w⟩ := e
    by_cases hj : j < a
    · simp only [tmapFrom, hj, if_true]; exact ih a
    · by_cases hv : f j w = d
      · simp only [tmapFrom, hj, hv, if_false, if_true]; exact risingFrom_mono _ _ (by omega) _ (ih (j + 1))
      · simp only [tmapFrom, hj, hv, if_false, risingFrom, Bool.and_eq_true, decide_eq_true_eq]
        exact ⟨by omega, ih (j + 1)⟩

theorem all_tmapFrom {α : Type} [DecidableEq α] (d : α) (f : Nat → α → α) (a : Nat) (t : List (Nat × α)) :
    (tmapFrom d f a t).all (fun e => decide (e.2 ≠ d)) = true := by
  induction t generalizing a with
  | nil => rfl
  | cons e t ih =>
    obtain ⟨j, w⟩ := e
    by_cases hj : j < a
    · simp only [tmapFrom, hj, if_true]; exact ih a
    · by_cases hv : f j w = d
      · simp only [tmapFrom, hj, hv, if_false, if_true]; exact ih _
      · simp only [tmapFrom, hj, hv, if_false, List.all_cons, Bool.and_eq_true]; exact ⟨by simpa using hv, ih _⟩

/-- A mapped table is canonical, whatever it was. -/
theorem wf_tmap {α : Type} [DecidableEq α] (d : α) (f : Nat → α → α) (t : List (Nat × α)) : Tbl.wf d (tmap d f t) = true := by
  simp only [Tbl.wf, Bool.and_eq_true]
  exact ⟨risingFrom_tmapFrom d f 0 t, all_tmapFrom d f 0 t⟩

/-- Below the first key a rising table reads its default. -/
theorem tget_below {α : Type} (d : α) (a i : Nat) (t : List (Nat × α)) (h : risingFrom a t = true) (hi : i < a) :
    tget d t i = d := by
  cases t with
  | nil => rfl
  | cons e t =>
    obtain ⟨j, w⟩ := e
    simp only [risingFrom, Bool.and_eq_true, decide_eq_true_eq] at h
    simp [tget, show i < j by omega]

theorem tget_tmapFrom {α : Type} [DecidableEq α] (d : α) (f : Nat → α → α) (a i : Nat) (t : List (Nat × α)) (hi : a ≤ i)
    (hd : f i d = d) : tget d (tmapFrom d f a t) i = f i (tget d t i) := by
  induction t generalizing a with
  | nil => simp [tmapFrom, hd]
  | cons e t ih =>
    obtain ⟨j, w⟩ := e
    by_cases hj : j < a
    · simp only [tmapFrom, hj, if_true, ih a hi, tget]
      simp [show ¬ i < j by omega, show ¬ i = j by omega]
    · rcases Nat.lt_trichotomy i j with hlt | heq | hgt
      · have hb := tget_below d (j + 1) i _ (risingFrom_tmapFrom d f (j + 1) t) (by omega)
        by_cases hv : f j w = d
        · simp only [tmapFrom, hj, hv, if_false, if_true, hb, tget, hlt, hd]
        · simp only [tmapFrom, hj, hv, if_false, tget, hlt, if_true, hd]
      · subst heq
        have hb := tget_below d (i + 1) i _ (risingFrom_tmapFrom d f (i + 1) t) (by omega)
        by_cases hv : f i w = d
        · simp [tmapFrom, hj, hv, hb, tget]
        · simp [tmapFrom, hj, hv, tget]
      · have hb := ih (j + 1) (by omega)
        by_cases hv : f j w = d
        · simp only [tmapFrom, hj, hv, if_false, if_true, hb, tget]
          simp [show ¬ i < j by omega, show ¬ i = j by omega]
        · simp only [tmapFrom, hj, hv, if_false, hb, tget]
          simp [show ¬ i < j by omega, show ¬ i = j by omega]

/-- What a mapped table reads as at every key. -/
theorem tget_tmap {α : Type} [DecidableEq α] (d : α) (f : Nat → α → α) (t : List (Nat × α)) (i : Nat) (hd : f i d = d) :
    tget d (tmap d f t) i = f i (tget d t i) := tget_tmapFrom d f 0 i t (Nat.zero_le _) hd

/-- What a table reads as after a drop. -/
theorem tget_tdrop {α : Type} [DecidableEq α] (d : α) (p : Nat → Bool) (t : List (Nat × α)) (i : Nat) :
    tget d (tdrop d p t) i = if p i then d else tget d t i := by
  unfold tdrop; rw [tget_tmap _ _ _ _ (by split <;> rfl)]

/-- Writing a key twice is writing it once. -/
theorem tset_tset {α : Type} [DecidableEq α] (d : α) (t : List (Nat × α)) (k : Nat) (u v : α) :
    tset d (tset d t k u) k v = tset d t k v := by
  have hdrop : ∀ t : List (Nat × α), tset d (dropLe k t) k v = if v = d then dropLe k t else (k, v) :: dropLe k t := by
    intro t
    induction t with
    | nil => simp [dropLe, tset]
    | cons e t ih =>
      obtain ⟨j, w⟩ := e
      by_cases h : j ≤ k
      · simp only [dropLe, h, if_true]; exact ih
      · simp [dropLe, h, tset, show ¬ j < k by omega]
  have hidem : ∀ t : List (Nat × α), dropLe k (dropLe k t) = dropLe k t := by
    intro t
    induction t with
    | nil => rfl
    | cons e t ih =>
      obtain ⟨j, w⟩ := e
      by_cases h : j ≤ k
      · simp only [dropLe, h, if_true]; exact ih
      · simp [dropLe, h]
  induction t with
  | nil =>
    by_cases hu : u = d
    · simp [tset, hu]
    · by_cases hv : v = d <;> simp [tset, hu, hv, dropLe]
  | cons e t ih =>
    obtain ⟨j, w⟩ := e
    by_cases h : j < k
    · simp only [tset, h, if_true, ih]
    · by_cases hu : u = d
      · simp only [tset, h, hu, if_false, if_true]
        rw [hdrop]
      · by_cases hv : v = d
        · simpa [tset, h, hu, hv, dropLe] using hidem ((j, w) :: t)
        · simpa [tset, h, hu, hv, dropLe] using hidem ((j, w) :: t)

/-- Two canonical tables that read alike at every key are equal. -/
theorem tbl_ext {α : Type} [DecidableEq α] (d : α) (a : Nat) (t u : List (Nat × α))
    (ht : risingFrom a t = true) (hu : risingFrom a u = true)
    (nt : t.all (fun e => decide (e.2 ≠ d)) = true) (nu : u.all (fun e => decide (e.2 ≠ d)) = true)
    (h : ∀ i, tget d t i = tget d u i) : t = u := by
  induction t generalizing a u with
  | nil =>
    cases u with
    | nil => rfl
    | cons e u =>
      obtain ⟨j, w⟩ := e
      have := h j
      simp [tget] at this nu
      exact absurd this.symm nu.1
  | cons e t ih =>
    obtain ⟨j, w⟩ := e
    simp only [risingFrom, Bool.and_eq_true, decide_eq_true_eq] at ht
    simp only [List.all_cons, Bool.and_eq_true, decide_eq_true_eq] at nt
    cases u with
    | nil =>
      have := h j
      simp [tget] at this
      exact absurd this nt.1
    | cons e' u =>
      obtain ⟨j', w'⟩ := e'
      simp only [risingFrom, Bool.and_eq_true, decide_eq_true_eq] at hu
      simp only [List.all_cons, Bool.and_eq_true, decide_eq_true_eq] at nu
      have hjj : j = j' := by
        rcases Nat.lt_trichotomy j j' with hlt | heq | hgt
        · have := h j
          simp [tget, hlt] at this
          exact absurd this nt.1
        · exact heq
        · have := h j'
          simp [tget, hgt] at this
          exact absurd this.symm nu.1
      subst hjj
      have hw : w = w' := by simpa [tget] using h j
      subst hw
      congr 1
      refine ih (j + 1) u ht.2 hu.2 nt.2 nu.2 ?_
      intro i
      by_cases hi : i ≤ j
      · rw [tget_below d (j + 1) i t ht.2 (by omega), tget_below d (j + 1) i u hu.2 (by omega)]
      · have := h i
        simpa [tget, show ¬ i < j by omega, show ¬ i = j by omega] using this

end Sys2Proof.Machine
end

