-- ==== Sys2Proof/Laws/State.lean ====
section
/-! SUPPORT. For every update of one object: what it reads afterwards, and that every other object and unit is as it was.
No later proof unfolds a record update. -/

namespace Sys2Proof.Machine

variable (s : State) (i j : Nat)

/-! ### modTile -/

theorem modTile_tile (g : Tile → Tile) : (s.modTile i g).tile j = if j = i then g (s.tile i) else s.tile j := by
  simp [State.modTile, State.tile, tget_tmod]
@[simp] theorem modTile_tile_self (g : Tile → Tile) : (s.modTile i g).tile i = g (s.tile i) := by simp [modTile_tile]
theorem modTile_tile_ne (g : Tile → Tile) (h : j ≠ i) : (s.modTile i g).tile j = s.tile j := by simp [modTile_tile, h]
@[simp] theorem modTile_field_dev (g : Tile → Tile) : (s.modTile i g).dev = s.dev := rfl
@[simp] theorem modTile_field_clk (g : Tile → Tile) : (s.modTile i g).clk = s.clk := rfl
@[simp] theorem modTile_field_gov (g : Tile → Tile) : (s.modTile i g).gov = s.gov := rfl
@[simp] theorem modTile_field_tim (g : Tile → Tile) : (s.modTile i g).tim = s.tim := rfl
@[simp] theorem modTile_field_sor (g : Tile → Tile) : (s.modTile i g).sor = s.sor := rfl
@[simp] theorem modTile_field_mbx (g : Tile → Tile) : (s.modTile i g).mbx = s.mbx := rfl
@[simp] theorem modTile_field_evt (g : Tile → Tile) : (s.modTile i g).evt = s.evt := rfl
@[simp] theorem modTile_field_lan (g : Tile → Tile) : (s.modTile i g).lan = s.lan := rfl
@[simp] theorem modTile_field_spn (g : Tile → Tile) : (s.modTile i g).spn = s.spn := rfl
@[simp] theorem modTile_field_boot (g : Tile → Tile) : (s.modTile i g).boot = s.boot := rfl
@[simp] theorem modTile_field_eng (g : Tile → Tile) : (s.modTile i g).eng = s.eng := rfl
@[simp] theorem modTile_field_qm (g : Tile → Tile) : (s.modTile i g).qm = s.qm := rfl
@[simp] theorem modTile_field_noc (g : Tile → Tile) : (s.modTile i g).noc = s.noc := rfl
@[simp] theorem modTile_field_spd (g : Tile → Tile) : (s.modTile i g).spd = s.spd := rfl
@[simp] theorem modTile_field_ddr (g : Tile → Tile) : (s.modTile i g).ddr = s.ddr := rfl
@[simp] theorem modTile_field_sec (g : Tile → Tile) : (s.modTile i g).sec = s.sec := rfl
@[simp] theorem modTile_field_fuse (g : Tile → Tile) : (s.modTile i g).fuse = s.fuse := rfl
@[simp] theorem modTile_field_answers (g : Tile → Tile) : (s.modTile i g).answers = s.answers := rfl
@[simp] theorem modTile_field_told (g : Tile → Tile) : (s.modTile i g).told = s.told := rfl
@[simp] theorem modTile_field_free (g : Tile → Tile) : (s.modTile i g).free = s.free := rfl
@[simp] theorem modTile_field_pending (g : Tile → Tile) : (s.modTile i g).pending = s.pending := rfl
@[simp] theorem modTile_pll (g : Tile → Tile) : (s.modTile i g).pll j = s.pll j := rfl
@[simp] theorem modTile_bmem (g : Tile → Tile) : (s.modTile i g).bmem j = s.bmem j := rfl
@[simp] theorem modTile_quad (g : Tile → Tile) : (s.modTile i g).quad j = s.quad j := rfl
@[simp] theorem modTile_lane (g : Tile → Tile) : (s.modTile i g).lane j = s.lane j := rfl
@[simp] theorem modTile_port (g : Tile → Tile) : (s.modTile i g).port j = s.port j := rfl
@[simp] theorem modTile_slot (g : Tile → Tile) : (s.modTile i g).slot j = s.slot j := rfl
@[simp] theorem modTile_pers (g : Tile → Tile) : (s.modTile i g).pers j = s.pers j := rfl
@[simp] theorem modTile_engine (g : Tile → Tile) : (s.modTile i g).engine j = s.engine j := rfl
@[simp] theorem modTile_ctx (g : Tile → Tile) : (s.modTile i g).ctx j = s.ctx j := rfl
@[simp] theorem modTile_cluster (g : Tile → Tile) : (s.modTile i g).cluster j = s.cluster j := rfl
@[simp] theorem modTile_pin (g : Tile → Tile) : (s.modTile i g).pin j = s.pin j := rfl
@[simp] theorem modTile_queue (g : Tile → Tile) : (s.modTile i g).queue j = s.queue j := rfl
@[simp] theorem modTile_page (g : Tile → Tile) : (s.modTile i g).page j = s.page j := rfl
@[simp] theorem modTile_qgroup (g : Tile → Tile) : (s.modTile i g).qgroup j = s.qgroup j := rfl
@[simp] theorem modTile_pier (g : Tile → Tile) : (s.modTile i g).pier j = s.pier j := rfl
@[simp] theorem modTile_nocGroup (g : Tile → Tile) : (s.modTile i g).nocGroup j = s.nocGroup j := rfl
@[simp] theorem modTile_monitor (g : Tile → Tile) : (s.modTile i g).monitor j = s.monitor j := rfl
@[simp] theorem modTile_bank (g : Tile → Tile) : (s.modTile i g).bank j = s.bank j := rfl
@[simp] theorem modTile_sgroup (g : Tile → Tile) : (s.modTile i g).sgroup j = s.sgroup j := rfl
@[simp] theorem modTile_chan (g : Tile → Tile) : (s.modTile i g).chan j = s.chan j := rfl
@[simp] theorem modTile_sub (g : Tile → Tile) : (s.modTile i g).sub j = s.sub j := rfl
@[simp] theorem modTile_supply (g : Tile → Tile) : (s.modTile i g).supply j = s.supply j := rfl
@[simp] theorem modTile_mailbox (g : Tile → Tile) : (s.modTile i g).mailbox j = s.mailbox j := rfl
@[simp] theorem modTile_route (g : Tile → Tile) : (s.modTile i g).route j = s.route j := rfl

/-! ### modPll -/

theorem modPll_pll (g : Pll → Pll) : (s.modPll i g).pll j = if j = i then g (s.pll i) else s.pll j := by
  simp [State.modPll, State.pll, tget_tmod]
@[simp] theorem modPll_pll_self (g : Pll → Pll) : (s.modPll i g).pll i = g (s.pll i) := by simp [modPll_pll]
theorem modPll_pll_ne (g : Pll → Pll) (h : j ≠ i) : (s.modPll i g).pll j = s.pll j := by simp [modPll_pll, h]
@[simp] theorem modPll_field_dev (g : Pll → Pll) : (s.modPll i g).dev = s.dev := rfl
@[simp] theorem modPll_field_clk (g : Pll → Pll) : (s.modPll i g).clk = s.clk := rfl
@[simp] theorem modPll_field_gov (g : Pll → Pll) : (s.modPll i g).gov = s.gov := rfl
@[simp] theorem modPll_field_tim (g : Pll → Pll) : (s.modPll i g).tim = s.tim := rfl
@[simp] theorem modPll_field_sor (g : Pll → Pll) : (s.modPll i g).sor = s.sor := rfl
@[simp] theorem modPll_field_mbx (g : Pll → Pll) : (s.modPll i g).mbx = s.mbx := rfl
@[simp] theorem modPll_field_evt (g : Pll → Pll) : (s.modPll i g).evt = s.evt := rfl
@[simp] theorem modPll_field_lan (g : Pll → Pll) : (s.modPll i g).lan = s.lan := rfl
@[simp] theorem modPll_field_spn (g : Pll → Pll) : (s.modPll i g).spn = s.spn := rfl
@[simp] theorem modPll_field_boot (g : Pll → Pll) : (s.modPll i g).boot = s.boot := rfl
@[simp] theorem modPll_field_eng (g : Pll → Pll) : (s.modPll i g).eng = s.eng := rfl
@[simp] theorem modPll_field_qm (g : Pll → Pll) : (s.modPll i g).qm = s.qm := rfl
@[simp] theorem modPll_field_noc (g : Pll → Pll) : (s.modPll i g).noc = s.noc := rfl
@[simp] theorem modPll_field_spd (g : Pll → Pll) : (s.modPll i g).spd = s.spd := rfl
@[simp] theorem modPll_field_ddr (g : Pll → Pll) : (s.modPll i g).ddr = s.ddr := rfl
@[simp] theorem modPll_field_sec (g : Pll → Pll) : (s.modPll i g).sec = s.sec := rfl
@[simp] theorem modPll_field_fuse (g : Pll → Pll) : (s.modPll i g).fuse = s.fuse := rfl
@[simp] theorem modPll_field_answers (g : Pll → Pll) : (s.modPll i g).answers = s.answers := rfl
@[simp] theorem modPll_field_told (g : Pll → Pll) : (s.modPll i g).told = s.told := rfl
@[simp] theorem modPll_field_free (g : Pll → Pll) : (s.modPll i g).free = s.free := rfl
@[simp] theorem modPll_field_pending (g : Pll → Pll) : (s.modPll i g).pending = s.pending := rfl
@[simp] theorem modPll_tile (g : Pll → Pll) : (s.modPll i g).tile j = s.tile j := rfl
@[simp] theorem modPll_bmem (g : Pll → Pll) : (s.modPll i g).bmem j = s.bmem j := rfl
@[simp] theorem modPll_quad (g : Pll → Pll) : (s.modPll i g).quad j = s.quad j := rfl
@[simp] theorem modPll_lane (g : Pll → Pll) : (s.modPll i g).lane j = s.lane j := rfl
@[simp] theorem modPll_port (g : Pll → Pll) : (s.modPll i g).port j = s.port j := rfl
@[simp] theorem modPll_slot (g : Pll → Pll) : (s.modPll i g).slot j = s.slot j := rfl
@[simp] theorem modPll_pers (g : Pll → Pll) : (s.modPll i g).pers j = s.pers j := rfl
@[simp] theorem modPll_engine (g : Pll → Pll) : (s.modPll i g).engine j = s.engine j := rfl
@[simp] theorem modPll_ctx (g : Pll → Pll) : (s.modPll i g).ctx j = s.ctx j := rfl
@[simp] theorem modPll_cluster (g : Pll → Pll) : (s.modPll i g).cluster j = s.cluster j := rfl
@[simp] theorem modPll_pin (g : Pll → Pll) : (s.modPll i g).pin j = s.pin j := rfl
@[simp] theorem modPll_queue (g : Pll → Pll) : (s.modPll i g).queue j = s.queue j := rfl
@[simp] theorem modPll_page (g : Pll → Pll) : (s.modPll i g).page j = s.page j := rfl
@[simp] theorem modPll_qgroup (g : Pll → Pll) : (s.modPll i g).qgroup j = s.qgroup j := rfl
@[simp] theorem modPll_pier (g : Pll → Pll) : (s.modPll i g).pier j = s.pier j := rfl
@[simp] theorem modPll_nocGroup (g : Pll → Pll) : (s.modPll i g).nocGroup j = s.nocGroup j := rfl
@[simp] theorem modPll_monitor (g : Pll → Pll) : (s.modPll i g).monitor j = s.monitor j := rfl
@[simp] theorem modPll_bank (g : Pll → Pll) : (s.modPll i g).bank j = s.bank j := rfl
@[simp] theorem modPll_sgroup (g : Pll → Pll) : (s.modPll i g).sgroup j = s.sgroup j := rfl
@[simp] theorem modPll_chan (g : Pll → Pll) : (s.modPll i g).chan j = s.chan j := rfl
@[simp] theorem modPll_sub (g : Pll → Pll) : (s.modPll i g).sub j = s.sub j := rfl
@[simp] theorem modPll_supply (g : Pll → Pll) : (s.modPll i g).supply j = s.supply j := rfl
@[simp] theorem modPll_mailbox (g : Pll → Pll) : (s.modPll i g).mailbox j = s.mailbox j := rfl
@[simp] theorem modPll_route (g : Pll → Pll) : (s.modPll i g).route j = s.route j := rfl

/-! ### modBmem -/

theorem modBmem_bmem (g : BMem → BMem) : (s.modBmem i g).bmem j = if j = i then g (s.bmem i) else s.bmem j := by
  simp [State.modBmem, State.bmem, tget_tmod]
@[simp] theorem modBmem_bmem_self (g : BMem → BMem) : (s.modBmem i g).bmem i = g (s.bmem i) := by simp [modBmem_bmem]
theorem modBmem_bmem_ne (g : BMem → BMem) (h : j ≠ i) : (s.modBmem i g).bmem j = s.bmem j := by simp [modBmem_bmem, h]
@[simp] theorem modBmem_field_dev (g : BMem → BMem) : (s.modBmem i g).dev = s.dev := rfl
@[simp] theorem modBmem_field_clk (g : BMem → BMem) : (s.modBmem i g).clk = s.clk := rfl
@[simp] theorem modBmem_field_gov (g : BMem → BMem) : (s.modBmem i g).gov = s.gov := rfl
@[simp] theorem modBmem_field_tim (g : BMem → BMem) : (s.modBmem i g).tim = s.tim := rfl
@[simp] theorem modBmem_field_sor (g : BMem → BMem) : (s.modBmem i g).sor = s.sor := rfl
@[simp] theorem modBmem_field_mbx (g : BMem → BMem) : (s.modBmem i g).mbx = s.mbx := rfl
@[simp] theorem modBmem_field_evt (g : BMem → BMem) : (s.modBmem i g).evt = s.evt := rfl
@[simp] theorem modBmem_field_lan (g : BMem → BMem) : (s.modBmem i g).lan = s.lan := rfl
@[simp] theorem modBmem_field_spn (g : BMem → BMem) : (s.modBmem i g).spn = s.spn := rfl
@[simp] theorem modBmem_field_boot (g : BMem → BMem) : (s.modBmem i g).boot = s.boot := rfl
@[simp] theorem modBmem_field_eng (g : BMem → BMem) : (s.modBmem i g).eng = s.eng := rfl
@[simp] theorem modBmem_field_qm (g : BMem → BMem) : (s.modBmem i g).qm = s.qm := rfl
@[simp] theorem modBmem_field_noc (g : BMem → BMem) : (s.modBmem i g).noc = s.noc := rfl
@[simp] theorem modBmem_field_spd (g : BMem → BMem) : (s.modBmem i g).spd = s.spd := rfl
@[simp] theorem modBmem_field_ddr (g : BMem → BMem) : (s.modBmem i g).ddr = s.ddr := rfl
@[simp] theorem modBmem_field_sec (g : BMem → BMem) : (s.modBmem i g).sec = s.sec := rfl
@[simp] theorem modBmem_field_fuse (g : BMem → BMem) : (s.modBmem i g).fuse = s.fuse := rfl
@[simp] theorem modBmem_field_answers (g : BMem → BMem) : (s.modBmem i g).answers = s.answers := rfl
@[simp] theorem modBmem_field_told (g : BMem → BMem) : (s.modBmem i g).told = s.told := rfl
@[simp] theorem modBmem_field_free (g : BMem → BMem) : (s.modBmem i g).free = s.free := rfl
@[simp] theorem modBmem_field_pending (g : BMem → BMem) : (s.modBmem i g).pending = s.pending := rfl
@[simp] theorem modBmem_tile (g : BMem → BMem) : (s.modBmem i g).tile j = s.tile j := rfl
@[simp] theorem modBmem_pll (g : BMem → BMem) : (s.modBmem i g).pll j = s.pll j := rfl
@[simp] theorem modBmem_quad (g : BMem → BMem) : (s.modBmem i g).quad j = s.quad j := rfl
@[simp] theorem modBmem_lane (g : BMem → BMem) : (s.modBmem i g).lane j = s.lane j := rfl
@[simp] theorem modBmem_port (g : BMem → BMem) : (s.modBmem i g).port j = s.port j := rfl
@[simp] theorem modBmem_slot (g : BMem → BMem) : (s.modBmem i g).slot j = s.slot j := rfl
@[simp] theorem modBmem_pers (g : BMem → BMem) : (s.modBmem i g).pers j = s.pers j := rfl
@[simp] theorem modBmem_engine (g : BMem → BMem) : (s.modBmem i g).engine j = s.engine j := rfl
@[simp] theorem modBmem_ctx (g : BMem → BMem) : (s.modBmem i g).ctx j = s.ctx j := rfl
@[simp] theorem modBmem_cluster (g : BMem → BMem) : (s.modBmem i g).cluster j = s.cluster j := rfl
@[simp] theorem modBmem_pin (g : BMem → BMem) : (s.modBmem i g).pin j = s.pin j := rfl
@[simp] theorem modBmem_queue (g : BMem → BMem) : (s.modBmem i g).queue j = s.queue j := rfl
@[simp] theorem modBmem_page (g : BMem → BMem) : (s.modBmem i g).page j = s.page j := rfl
@[simp] theorem modBmem_qgroup (g : BMem → BMem) : (s.modBmem i g).qgroup j = s.qgroup j := rfl
@[simp] theorem modBmem_pier (g : BMem → BMem) : (s.modBmem i g).pier j = s.pier j := rfl
@[simp] theorem modBmem_nocGroup (g : BMem → BMem) : (s.modBmem i g).nocGroup j = s.nocGroup j := rfl
@[simp] theorem modBmem_monitor (g : BMem → BMem) : (s.modBmem i g).monitor j = s.monitor j := rfl
@[simp] theorem modBmem_bank (g : BMem → BMem) : (s.modBmem i g).bank j = s.bank j := rfl
@[simp] theorem modBmem_sgroup (g : BMem → BMem) : (s.modBmem i g).sgroup j = s.sgroup j := rfl
@[simp] theorem modBmem_chan (g : BMem → BMem) : (s.modBmem i g).chan j = s.chan j := rfl
@[simp] theorem modBmem_sub (g : BMem → BMem) : (s.modBmem i g).sub j = s.sub j := rfl
@[simp] theorem modBmem_supply (g : BMem → BMem) : (s.modBmem i g).supply j = s.supply j := rfl
@[simp] theorem modBmem_mailbox (g : BMem → BMem) : (s.modBmem i g).mailbox j = s.mailbox j := rfl
@[simp] theorem modBmem_route (g : BMem → BMem) : (s.modBmem i g).route j = s.route j := rfl

/-! ### modQuad -/

theorem modQuad_quad (g : Quad → Quad) : (s.modQuad i g).quad j = if j = i then g (s.quad i) else s.quad j := by
  simp [State.modQuad, State.quad, tget_tmod]
@[simp] theorem modQuad_quad_self (g : Quad → Quad) : (s.modQuad i g).quad i = g (s.quad i) := by simp [modQuad_quad]
theorem modQuad_quad_ne (g : Quad → Quad) (h : j ≠ i) : (s.modQuad i g).quad j = s.quad j := by simp [modQuad_quad, h]
@[simp] theorem modQuad_field_dev (g : Quad → Quad) : (s.modQuad i g).dev = s.dev := rfl
@[simp] theorem modQuad_field_clk (g : Quad → Quad) : (s.modQuad i g).clk = s.clk := rfl
@[simp] theorem modQuad_field_gov (g : Quad → Quad) : (s.modQuad i g).gov = s.gov := rfl
@[simp] theorem modQuad_field_tim (g : Quad → Quad) : (s.modQuad i g).tim = s.tim := rfl
@[simp] theorem modQuad_field_sor (g : Quad → Quad) : (s.modQuad i g).sor = s.sor := rfl
@[simp] theorem modQuad_field_mbx (g : Quad → Quad) : (s.modQuad i g).mbx = s.mbx := rfl
@[simp] theorem modQuad_field_evt (g : Quad → Quad) : (s.modQuad i g).evt = s.evt := rfl
@[simp] theorem modQuad_field_fab (g : Quad → Quad) : (s.modQuad i g).fab = s.fab := rfl
@[simp] theorem modQuad_field_spn (g : Quad → Quad) : (s.modQuad i g).spn = s.spn := rfl
@[simp] theorem modQuad_field_boot (g : Quad → Quad) : (s.modQuad i g).boot = s.boot := rfl
@[simp] theorem modQuad_field_eng (g : Quad → Quad) : (s.modQuad i g).eng = s.eng := rfl
@[simp] theorem modQuad_field_qm (g : Quad → Quad) : (s.modQuad i g).qm = s.qm := rfl
@[simp] theorem modQuad_field_noc (g : Quad → Quad) : (s.modQuad i g).noc = s.noc := rfl
@[simp] theorem modQuad_field_spd (g : Quad → Quad) : (s.modQuad i g).spd = s.spd := rfl
@[simp] theorem modQuad_field_ddr (g : Quad → Quad) : (s.modQuad i g).ddr = s.ddr := rfl
@[simp] theorem modQuad_field_sec (g : Quad → Quad) : (s.modQuad i g).sec = s.sec := rfl
@[simp] theorem modQuad_field_fuse (g : Quad → Quad) : (s.modQuad i g).fuse = s.fuse := rfl
@[simp] theorem modQuad_field_answers (g : Quad → Quad) : (s.modQuad i g).answers = s.answers := rfl
@[simp] theorem modQuad_field_told (g : Quad → Quad) : (s.modQuad i g).told = s.told := rfl
@[simp] theorem modQuad_field_free (g : Quad → Quad) : (s.modQuad i g).free = s.free := rfl
@[simp] theorem modQuad_field_pending (g : Quad → Quad) : (s.modQuad i g).pending = s.pending := rfl
@[simp] theorem modQuad_tile (g : Quad → Quad) : (s.modQuad i g).tile j = s.tile j := rfl
@[simp] theorem modQuad_pll (g : Quad → Quad) : (s.modQuad i g).pll j = s.pll j := rfl
@[simp] theorem modQuad_bmem (g : Quad → Quad) : (s.modQuad i g).bmem j = s.bmem j := rfl
@[simp] theorem modQuad_lane (g : Quad → Quad) : (s.modQuad i g).lane j = s.lane j := rfl
@[simp] theorem modQuad_port (g : Quad → Quad) : (s.modQuad i g).port j = s.port j := rfl
@[simp] theorem modQuad_slot (g : Quad → Quad) : (s.modQuad i g).slot j = s.slot j := rfl
@[simp] theorem modQuad_pers (g : Quad → Quad) : (s.modQuad i g).pers j = s.pers j := rfl
@[simp] theorem modQuad_engine (g : Quad → Quad) : (s.modQuad i g).engine j = s.engine j := rfl
@[simp] theorem modQuad_ctx (g : Quad → Quad) : (s.modQuad i g).ctx j = s.ctx j := rfl
@[simp] theorem modQuad_cluster (g : Quad → Quad) : (s.modQuad i g).cluster j = s.cluster j := rfl
@[simp] theorem modQuad_pin (g : Quad → Quad) : (s.modQuad i g).pin j = s.pin j := rfl
@[simp] theorem modQuad_queue (g : Quad → Quad) : (s.modQuad i g).queue j = s.queue j := rfl
@[simp] theorem modQuad_page (g : Quad → Quad) : (s.modQuad i g).page j = s.page j := rfl
@[simp] theorem modQuad_qgroup (g : Quad → Quad) : (s.modQuad i g).qgroup j = s.qgroup j := rfl
@[simp] theorem modQuad_pier (g : Quad → Quad) : (s.modQuad i g).pier j = s.pier j := rfl
@[simp] theorem modQuad_nocGroup (g : Quad → Quad) : (s.modQuad i g).nocGroup j = s.nocGroup j := rfl
@[simp] theorem modQuad_monitor (g : Quad → Quad) : (s.modQuad i g).monitor j = s.monitor j := rfl
@[simp] theorem modQuad_bank (g : Quad → Quad) : (s.modQuad i g).bank j = s.bank j := rfl
@[simp] theorem modQuad_sgroup (g : Quad → Quad) : (s.modQuad i g).sgroup j = s.sgroup j := rfl
@[simp] theorem modQuad_chan (g : Quad → Quad) : (s.modQuad i g).chan j = s.chan j := rfl
@[simp] theorem modQuad_sub (g : Quad → Quad) : (s.modQuad i g).sub j = s.sub j := rfl
@[simp] theorem modQuad_supply (g : Quad → Quad) : (s.modQuad i g).supply j = s.supply j := rfl
@[simp] theorem modQuad_mailbox (g : Quad → Quad) : (s.modQuad i g).mailbox j = s.mailbox j := rfl
@[simp] theorem modQuad_route (g : Quad → Quad) : (s.modQuad i g).route j = s.route j := rfl

/-! ### modLane -/

theorem modLane_lane (g : Lane → Lane) : (s.modLane i g).lane j = if j = i then g (s.lane i) else s.lane j := by
  simp [State.modLane, State.lane, tget_tmod]
@[simp] theorem modLane_lane_self (g : Lane → Lane) : (s.modLane i g).lane i = g (s.lane i) := by simp [modLane_lane]
theorem modLane_lane_ne (g : Lane → Lane) (h : j ≠ i) : (s.modLane i g).lane j = s.lane j := by simp [modLane_lane, h]
@[simp] theorem modLane_field_dev (g : Lane → Lane) : (s.modLane i g).dev = s.dev := rfl
@[simp] theorem modLane_field_clk (g : Lane → Lane) : (s.modLane i g).clk = s.clk := rfl
@[simp] theorem modLane_field_gov (g : Lane → Lane) : (s.modLane i g).gov = s.gov := rfl
@[simp] theorem modLane_field_tim (g : Lane → Lane) : (s.modLane i g).tim = s.tim := rfl
@[simp] theorem modLane_field_sor (g : Lane → Lane) : (s.modLane i g).sor = s.sor := rfl
@[simp] theorem modLane_field_mbx (g : Lane → Lane) : (s.modLane i g).mbx = s.mbx := rfl
@[simp] theorem modLane_field_evt (g : Lane → Lane) : (s.modLane i g).evt = s.evt := rfl
@[simp] theorem modLane_field_fab (g : Lane → Lane) : (s.modLane i g).fab = s.fab := rfl
@[simp] theorem modLane_field_spn (g : Lane → Lane) : (s.modLane i g).spn = s.spn := rfl
@[simp] theorem modLane_field_boot (g : Lane → Lane) : (s.modLane i g).boot = s.boot := rfl
@[simp] theorem modLane_field_eng (g : Lane → Lane) : (s.modLane i g).eng = s.eng := rfl
@[simp] theorem modLane_field_qm (g : Lane → Lane) : (s.modLane i g).qm = s.qm := rfl
@[simp] theorem modLane_field_noc (g : Lane → Lane) : (s.modLane i g).noc = s.noc := rfl
@[simp] theorem modLane_field_spd (g : Lane → Lane) : (s.modLane i g).spd = s.spd := rfl
@[simp] theorem modLane_field_ddr (g : Lane → Lane) : (s.modLane i g).ddr = s.ddr := rfl
@[simp] theorem modLane_field_sec (g : Lane → Lane) : (s.modLane i g).sec = s.sec := rfl
@[simp] theorem modLane_field_fuse (g : Lane → Lane) : (s.modLane i g).fuse = s.fuse := rfl
@[simp] theorem modLane_field_answers (g : Lane → Lane) : (s.modLane i g).answers = s.answers := rfl
@[simp] theorem modLane_field_told (g : Lane → Lane) : (s.modLane i g).told = s.told := rfl
@[simp] theorem modLane_field_free (g : Lane → Lane) : (s.modLane i g).free = s.free := rfl
@[simp] theorem modLane_field_pending (g : Lane → Lane) : (s.modLane i g).pending = s.pending := rfl
@[simp] theorem modLane_tile (g : Lane → Lane) : (s.modLane i g).tile j = s.tile j := rfl
@[simp] theorem modLane_pll (g : Lane → Lane) : (s.modLane i g).pll j = s.pll j := rfl
@[simp] theorem modLane_bmem (g : Lane → Lane) : (s.modLane i g).bmem j = s.bmem j := rfl
@[simp] theorem modLane_quad (g : Lane → Lane) : (s.modLane i g).quad j = s.quad j := rfl
@[simp] theorem modLane_port (g : Lane → Lane) : (s.modLane i g).port j = s.port j := rfl
@[simp] theorem modLane_slot (g : Lane → Lane) : (s.modLane i g).slot j = s.slot j := rfl
@[simp] theorem modLane_pers (g : Lane → Lane) : (s.modLane i g).pers j = s.pers j := rfl
@[simp] theorem modLane_engine (g : Lane → Lane) : (s.modLane i g).engine j = s.engine j := rfl
@[simp] theorem modLane_ctx (g : Lane → Lane) : (s.modLane i g).ctx j = s.ctx j := rfl
@[simp] theorem modLane_cluster (g : Lane → Lane) : (s.modLane i g).cluster j = s.cluster j := rfl
@[simp] theorem modLane_pin (g : Lane → Lane) : (s.modLane i g).pin j = s.pin j := rfl
@[simp] theorem modLane_queue (g : Lane → Lane) : (s.modLane i g).queue j = s.queue j := rfl
@[simp] theorem modLane_page (g : Lane → Lane) : (s.modLane i g).page j = s.page j := rfl
@[simp] theorem modLane_qgroup (g : Lane → Lane) : (s.modLane i g).qgroup j = s.qgroup j := rfl
@[simp] theorem modLane_pier (g : Lane → Lane) : (s.modLane i g).pier j = s.pier j := rfl
@[simp] theorem modLane_nocGroup (g : Lane → Lane) : (s.modLane i g).nocGroup j = s.nocGroup j := rfl
@[simp] theorem modLane_monitor (g : Lane → Lane) : (s.modLane i g).monitor j = s.monitor j := rfl
@[simp] theorem modLane_bank (g : Lane → Lane) : (s.modLane i g).bank j = s.bank j := rfl
@[simp] theorem modLane_sgroup (g : Lane → Lane) : (s.modLane i g).sgroup j = s.sgroup j := rfl
@[simp] theorem modLane_chan (g : Lane → Lane) : (s.modLane i g).chan j = s.chan j := rfl
@[simp] theorem modLane_sub (g : Lane → Lane) : (s.modLane i g).sub j = s.sub j := rfl
@[simp] theorem modLane_supply (g : Lane → Lane) : (s.modLane i g).supply j = s.supply j := rfl
@[simp] theorem modLane_mailbox (g : Lane → Lane) : (s.modLane i g).mailbox j = s.mailbox j := rfl
@[simp] theorem modLane_route (g : Lane → Lane) : (s.modLane i g).route j = s.route j := rfl

/-! ### modPort -/

theorem modPort_port (g : Port → Port) : (s.modPort i g).port j = if j = i then g (s.port i) else s.port j := by
  simp [State.modPort, State.port, tget_tmod]
@[simp] theorem modPort_port_self (g : Port → Port) : (s.modPort i g).port i = g (s.port i) := by simp [modPort_port]
theorem modPort_port_ne (g : Port → Port) (h : j ≠ i) : (s.modPort i g).port j = s.port j := by simp [modPort_port, h]
@[simp] theorem modPort_field_dev (g : Port → Port) : (s.modPort i g).dev = s.dev := rfl
@[simp] theorem modPort_field_clk (g : Port → Port) : (s.modPort i g).clk = s.clk := rfl
@[simp] theorem modPort_field_gov (g : Port → Port) : (s.modPort i g).gov = s.gov := rfl
@[simp] theorem modPort_field_tim (g : Port → Port) : (s.modPort i g).tim = s.tim := rfl
@[simp] theorem modPort_field_sor (g : Port → Port) : (s.modPort i g).sor = s.sor := rfl
@[simp] theorem modPort_field_mbx (g : Port → Port) : (s.modPort i g).mbx = s.mbx := rfl
@[simp] theorem modPort_field_evt (g : Port → Port) : (s.modPort i g).evt = s.evt := rfl
@[simp] theorem modPort_field_fab (g : Port → Port) : (s.modPort i g).fab = s.fab := rfl
@[simp] theorem modPort_field_spn (g : Port → Port) : (s.modPort i g).spn = s.spn := rfl
@[simp] theorem modPort_field_boot (g : Port → Port) : (s.modPort i g).boot = s.boot := rfl
@[simp] theorem modPort_field_eng (g : Port → Port) : (s.modPort i g).eng = s.eng := rfl
@[simp] theorem modPort_field_qm (g : Port → Port) : (s.modPort i g).qm = s.qm := rfl
@[simp] theorem modPort_field_noc (g : Port → Port) : (s.modPort i g).noc = s.noc := rfl
@[simp] theorem modPort_field_spd (g : Port → Port) : (s.modPort i g).spd = s.spd := rfl
@[simp] theorem modPort_field_ddr (g : Port → Port) : (s.modPort i g).ddr = s.ddr := rfl
@[simp] theorem modPort_field_sec (g : Port → Port) : (s.modPort i g).sec = s.sec := rfl
@[simp] theorem modPort_field_fuse (g : Port → Port) : (s.modPort i g).fuse = s.fuse := rfl
@[simp] theorem modPort_field_answers (g : Port → Port) : (s.modPort i g).answers = s.answers := rfl
@[simp] theorem modPort_field_told (g : Port → Port) : (s.modPort i g).told = s.told := rfl
@[simp] theorem modPort_field_free (g : Port → Port) : (s.modPort i g).free = s.free := rfl
@[simp] theorem modPort_field_pending (g : Port → Port) : (s.modPort i g).pending = s.pending := rfl
@[simp] theorem modPort_tile (g : Port → Port) : (s.modPort i g).tile j = s.tile j := rfl
@[simp] theorem modPort_pll (g : Port → Port) : (s.modPort i g).pll j = s.pll j := rfl
@[simp] theorem modPort_bmem (g : Port → Port) : (s.modPort i g).bmem j = s.bmem j := rfl
@[simp] theorem modPort_quad (g : Port → Port) : (s.modPort i g).quad j = s.quad j := rfl
@[simp] theorem modPort_lane (g : Port → Port) : (s.modPort i g).lane j = s.lane j := rfl
@[simp] theorem modPort_slot (g : Port → Port) : (s.modPort i g).slot j = s.slot j := rfl
@[simp] theorem modPort_pers (g : Port → Port) : (s.modPort i g).pers j = s.pers j := rfl
@[simp] theorem modPort_engine (g : Port → Port) : (s.modPort i g).engine j = s.engine j := rfl
@[simp] theorem modPort_ctx (g : Port → Port) : (s.modPort i g).ctx j = s.ctx j := rfl
@[simp] theorem modPort_cluster (g : Port → Port) : (s.modPort i g).cluster j = s.cluster j := rfl
@[simp] theorem modPort_pin (g : Port → Port) : (s.modPort i g).pin j = s.pin j := rfl
@[simp] theorem modPort_queue (g : Port → Port) : (s.modPort i g).queue j = s.queue j := rfl
@[simp] theorem modPort_page (g : Port → Port) : (s.modPort i g).page j = s.page j := rfl
@[simp] theorem modPort_qgroup (g : Port → Port) : (s.modPort i g).qgroup j = s.qgroup j := rfl
@[simp] theorem modPort_pier (g : Port → Port) : (s.modPort i g).pier j = s.pier j := rfl
@[simp] theorem modPort_nocGroup (g : Port → Port) : (s.modPort i g).nocGroup j = s.nocGroup j := rfl
@[simp] theorem modPort_monitor (g : Port → Port) : (s.modPort i g).monitor j = s.monitor j := rfl
@[simp] theorem modPort_bank (g : Port → Port) : (s.modPort i g).bank j = s.bank j := rfl
@[simp] theorem modPort_sgroup (g : Port → Port) : (s.modPort i g).sgroup j = s.sgroup j := rfl
@[simp] theorem modPort_chan (g : Port → Port) : (s.modPort i g).chan j = s.chan j := rfl
@[simp] theorem modPort_sub (g : Port → Port) : (s.modPort i g).sub j = s.sub j := rfl
@[simp] theorem modPort_supply (g : Port → Port) : (s.modPort i g).supply j = s.supply j := rfl
@[simp] theorem modPort_mailbox (g : Port → Port) : (s.modPort i g).mailbox j = s.mailbox j := rfl
@[simp] theorem modPort_route (g : Port → Port) : (s.modPort i g).route j = s.route j := rfl

/-! ### modSlot -/

theorem modSlot_slot (g : Slot → Slot) : (s.modSlot i g).slot j = if j = i then g (s.slot i) else s.slot j := by
  simp [State.modSlot, State.slot, tget_tmod]
@[simp] theorem modSlot_slot_self (g : Slot → Slot) : (s.modSlot i g).slot i = g (s.slot i) := by simp [modSlot_slot]
theorem modSlot_slot_ne (g : Slot → Slot) (h : j ≠ i) : (s.modSlot i g).slot j = s.slot j := by simp [modSlot_slot, h]
@[simp] theorem modSlot_field_dev (g : Slot → Slot) : (s.modSlot i g).dev = s.dev := rfl
@[simp] theorem modSlot_field_clk (g : Slot → Slot) : (s.modSlot i g).clk = s.clk := rfl
@[simp] theorem modSlot_field_gov (g : Slot → Slot) : (s.modSlot i g).gov = s.gov := rfl
@[simp] theorem modSlot_field_tim (g : Slot → Slot) : (s.modSlot i g).tim = s.tim := rfl
@[simp] theorem modSlot_field_sor (g : Slot → Slot) : (s.modSlot i g).sor = s.sor := rfl
@[simp] theorem modSlot_field_mbx (g : Slot → Slot) : (s.modSlot i g).mbx = s.mbx := rfl
@[simp] theorem modSlot_field_evt (g : Slot → Slot) : (s.modSlot i g).evt = s.evt := rfl
@[simp] theorem modSlot_field_lan (g : Slot → Slot) : (s.modSlot i g).lan = s.lan := rfl
@[simp] theorem modSlot_field_fab (g : Slot → Slot) : (s.modSlot i g).fab = s.fab := rfl
@[simp] theorem modSlot_field_boot (g : Slot → Slot) : (s.modSlot i g).boot = s.boot := rfl
@[simp] theorem modSlot_field_eng (g : Slot → Slot) : (s.modSlot i g).eng = s.eng := rfl
@[simp] theorem modSlot_field_qm (g : Slot → Slot) : (s.modSlot i g).qm = s.qm := rfl
@[simp] theorem modSlot_field_noc (g : Slot → Slot) : (s.modSlot i g).noc = s.noc := rfl
@[simp] theorem modSlot_field_spd (g : Slot → Slot) : (s.modSlot i g).spd = s.spd := rfl
@[simp] theorem modSlot_field_ddr (g : Slot → Slot) : (s.modSlot i g).ddr = s.ddr := rfl
@[simp] theorem modSlot_field_sec (g : Slot → Slot) : (s.modSlot i g).sec = s.sec := rfl
@[simp] theorem modSlot_field_fuse (g : Slot → Slot) : (s.modSlot i g).fuse = s.fuse := rfl
@[simp] theorem modSlot_field_answers (g : Slot → Slot) : (s.modSlot i g).answers = s.answers := rfl
@[simp] theorem modSlot_field_told (g : Slot → Slot) : (s.modSlot i g).told = s.told := rfl
@[simp] theorem modSlot_field_free (g : Slot → Slot) : (s.modSlot i g).free = s.free := rfl
@[simp] theorem modSlot_field_pending (g : Slot → Slot) : (s.modSlot i g).pending = s.pending := rfl
@[simp] theorem modSlot_tile (g : Slot → Slot) : (s.modSlot i g).tile j = s.tile j := rfl
@[simp] theorem modSlot_pll (g : Slot → Slot) : (s.modSlot i g).pll j = s.pll j := rfl
@[simp] theorem modSlot_bmem (g : Slot → Slot) : (s.modSlot i g).bmem j = s.bmem j := rfl
@[simp] theorem modSlot_quad (g : Slot → Slot) : (s.modSlot i g).quad j = s.quad j := rfl
@[simp] theorem modSlot_lane (g : Slot → Slot) : (s.modSlot i g).lane j = s.lane j := rfl
@[simp] theorem modSlot_port (g : Slot → Slot) : (s.modSlot i g).port j = s.port j := rfl
@[simp] theorem modSlot_pers (g : Slot → Slot) : (s.modSlot i g).pers j = s.pers j := rfl
@[simp] theorem modSlot_engine (g : Slot → Slot) : (s.modSlot i g).engine j = s.engine j := rfl
@[simp] theorem modSlot_ctx (g : Slot → Slot) : (s.modSlot i g).ctx j = s.ctx j := rfl
@[simp] theorem modSlot_cluster (g : Slot → Slot) : (s.modSlot i g).cluster j = s.cluster j := rfl
@[simp] theorem modSlot_pin (g : Slot → Slot) : (s.modSlot i g).pin j = s.pin j := rfl
@[simp] theorem modSlot_queue (g : Slot → Slot) : (s.modSlot i g).queue j = s.queue j := rfl
@[simp] theorem modSlot_page (g : Slot → Slot) : (s.modSlot i g).page j = s.page j := rfl
@[simp] theorem modSlot_qgroup (g : Slot → Slot) : (s.modSlot i g).qgroup j = s.qgroup j := rfl
@[simp] theorem modSlot_pier (g : Slot → Slot) : (s.modSlot i g).pier j = s.pier j := rfl
@[simp] theorem modSlot_nocGroup (g : Slot → Slot) : (s.modSlot i g).nocGroup j = s.nocGroup j := rfl
@[simp] theorem modSlot_monitor (g : Slot → Slot) : (s.modSlot i g).monitor j = s.monitor j := rfl
@[simp] theorem modSlot_bank (g : Slot → Slot) : (s.modSlot i g).bank j = s.bank j := rfl
@[simp] theorem modSlot_sgroup (g : Slot → Slot) : (s.modSlot i g).sgroup j = s.sgroup j := rfl
@[simp] theorem modSlot_chan (g : Slot → Slot) : (s.modSlot i g).chan j = s.chan j := rfl
@[simp] theorem modSlot_sub (g : Slot → Slot) : (s.modSlot i g).sub j = s.sub j := rfl
@[simp] theorem modSlot_supply (g : Slot → Slot) : (s.modSlot i g).supply j = s.supply j := rfl
@[simp] theorem modSlot_mailbox (g : Slot → Slot) : (s.modSlot i g).mailbox j = s.mailbox j := rfl
@[simp] theorem modSlot_route (g : Slot → Slot) : (s.modSlot i g).route j = s.route j := rfl

/-! ### modPers -/

theorem modPers_pers (g : Pers → Pers) : (s.modPers i g).pers j = if j = i then g (s.pers i) else s.pers j := by
  simp [State.modPers, State.pers, tget_tmod]
@[simp] theorem modPers_pers_self (g : Pers → Pers) : (s.modPers i g).pers i = g (s.pers i) := by simp [modPers_pers]
theorem modPers_pers_ne (g : Pers → Pers) (h : j ≠ i) : (s.modPers i g).pers j = s.pers j := by simp [modPers_pers, h]
@[simp] theorem modPers_field_dev (g : Pers → Pers) : (s.modPers i g).dev = s.dev := rfl
@[simp] theorem modPers_field_clk (g : Pers → Pers) : (s.modPers i g).clk = s.clk := rfl
@[simp] theorem modPers_field_gov (g : Pers → Pers) : (s.modPers i g).gov = s.gov := rfl
@[simp] theorem modPers_field_tim (g : Pers → Pers) : (s.modPers i g).tim = s.tim := rfl
@[simp] theorem modPers_field_sor (g : Pers → Pers) : (s.modPers i g).sor = s.sor := rfl
@[simp] theorem modPers_field_mbx (g : Pers → Pers) : (s.modPers i g).mbx = s.mbx := rfl
@[simp] theorem modPers_field_evt (g : Pers → Pers) : (s.modPers i g).evt = s.evt := rfl
@[simp] theorem modPers_field_lan (g : Pers → Pers) : (s.modPers i g).lan = s.lan := rfl
@[simp] theorem modPers_field_fab (g : Pers → Pers) : (s.modPers i g).fab = s.fab := rfl
@[simp] theorem modPers_field_boot (g : Pers → Pers) : (s.modPers i g).boot = s.boot := rfl
@[simp] theorem modPers_field_eng (g : Pers → Pers) : (s.modPers i g).eng = s.eng := rfl
@[simp] theorem modPers_field_qm (g : Pers → Pers) : (s.modPers i g).qm = s.qm := rfl
@[simp] theorem modPers_field_noc (g : Pers → Pers) : (s.modPers i g).noc = s.noc := rfl
@[simp] theorem modPers_field_spd (g : Pers → Pers) : (s.modPers i g).spd = s.spd := rfl
@[simp] theorem modPers_field_ddr (g : Pers → Pers) : (s.modPers i g).ddr = s.ddr := rfl
@[simp] theorem modPers_field_sec (g : Pers → Pers) : (s.modPers i g).sec = s.sec := rfl
@[simp] theorem modPers_field_fuse (g : Pers → Pers) : (s.modPers i g).fuse = s.fuse := rfl
@[simp] theorem modPers_field_answers (g : Pers → Pers) : (s.modPers i g).answers = s.answers := rfl
@[simp] theorem modPers_field_told (g : Pers → Pers) : (s.modPers i g).told = s.told := rfl
@[simp] theorem modPers_field_free (g : Pers → Pers) : (s.modPers i g).free = s.free := rfl
@[simp] theorem modPers_field_pending (g : Pers → Pers) : (s.modPers i g).pending = s.pending := rfl
@[simp] theorem modPers_tile (g : Pers → Pers) : (s.modPers i g).tile j = s.tile j := rfl
@[simp] theorem modPers_pll (g : Pers → Pers) : (s.modPers i g).pll j = s.pll j := rfl
@[simp] theorem modPers_bmem (g : Pers → Pers) : (s.modPers i g).bmem j = s.bmem j := rfl
@[simp] theorem modPers_quad (g : Pers → Pers) : (s.modPers i g).quad j = s.quad j := rfl
@[simp] theorem modPers_lane (g : Pers → Pers) : (s.modPers i g).lane j = s.lane j := rfl
@[simp] theorem modPers_port (g : Pers → Pers) : (s.modPers i g).port j = s.port j := rfl
@[simp] theorem modPers_slot (g : Pers → Pers) : (s.modPers i g).slot j = s.slot j := rfl
@[simp] theorem modPers_engine (g : Pers → Pers) : (s.modPers i g).engine j = s.engine j := rfl
@[simp] theorem modPers_ctx (g : Pers → Pers) : (s.modPers i g).ctx j = s.ctx j := rfl
@[simp] theorem modPers_cluster (g : Pers → Pers) : (s.modPers i g).cluster j = s.cluster j := rfl
@[simp] theorem modPers_pin (g : Pers → Pers) : (s.modPers i g).pin j = s.pin j := rfl
@[simp] theorem modPers_queue (g : Pers → Pers) : (s.modPers i g).queue j = s.queue j := rfl
@[simp] theorem modPers_page (g : Pers → Pers) : (s.modPers i g).page j = s.page j := rfl
@[simp] theorem modPers_qgroup (g : Pers → Pers) : (s.modPers i g).qgroup j = s.qgroup j := rfl
@[simp] theorem modPers_pier (g : Pers → Pers) : (s.modPers i g).pier j = s.pier j := rfl
@[simp] theorem modPers_nocGroup (g : Pers → Pers) : (s.modPers i g).nocGroup j = s.nocGroup j := rfl
@[simp] theorem modPers_monitor (g : Pers → Pers) : (s.modPers i g).monitor j = s.monitor j := rfl
@[simp] theorem modPers_bank (g : Pers → Pers) : (s.modPers i g).bank j = s.bank j := rfl
@[simp] theorem modPers_sgroup (g : Pers → Pers) : (s.modPers i g).sgroup j = s.sgroup j := rfl
@[simp] theorem modPers_chan (g : Pers → Pers) : (s.modPers i g).chan j = s.chan j := rfl
@[simp] theorem modPers_sub (g : Pers → Pers) : (s.modPers i g).sub j = s.sub j := rfl
@[simp] theorem modPers_supply (g : Pers → Pers) : (s.modPers i g).supply j = s.supply j := rfl
@[simp] theorem modPers_mailbox (g : Pers → Pers) : (s.modPers i g).mailbox j = s.mailbox j := rfl
@[simp] theorem modPers_route (g : Pers → Pers) : (s.modPers i g).route j = s.route j := rfl

/-! ### modEngine -/

theorem modEngine_engine (g : Engine → Engine) : (s.modEngine i g).engine j = if j = i then g (s.engine i) else s.engine j := by
  simp [State.modEngine, State.engine, tget_tmod]
@[simp] theorem modEngine_engine_self (g : Engine → Engine) : (s.modEngine i g).engine i = g (s.engine i) := by simp [modEngine_engine]
theorem modEngine_engine_ne (g : Engine → Engine) (h : j ≠ i) : (s.modEngine i g).engine j = s.engine j := by simp [modEngine_engine, h]
@[simp] theorem modEngine_field_dev (g : Engine → Engine) : (s.modEngine i g).dev = s.dev := rfl
@[simp] theorem modEngine_field_clk (g : Engine → Engine) : (s.modEngine i g).clk = s.clk := rfl
@[simp] theorem modEngine_field_gov (g : Engine → Engine) : (s.modEngine i g).gov = s.gov := rfl
@[simp] theorem modEngine_field_tim (g : Engine → Engine) : (s.modEngine i g).tim = s.tim := rfl
@[simp] theorem modEngine_field_sor (g : Engine → Engine) : (s.modEngine i g).sor = s.sor := rfl
@[simp] theorem modEngine_field_mbx (g : Engine → Engine) : (s.modEngine i g).mbx = s.mbx := rfl
@[simp] theorem modEngine_field_evt (g : Engine → Engine) : (s.modEngine i g).evt = s.evt := rfl
@[simp] theorem modEngine_field_lan (g : Engine → Engine) : (s.modEngine i g).lan = s.lan := rfl
@[simp] theorem modEngine_field_fab (g : Engine → Engine) : (s.modEngine i g).fab = s.fab := rfl
@[simp] theorem modEngine_field_spn (g : Engine → Engine) : (s.modEngine i g).spn = s.spn := rfl
@[simp] theorem modEngine_field_boot (g : Engine → Engine) : (s.modEngine i g).boot = s.boot := rfl
@[simp] theorem modEngine_field_qm (g : Engine → Engine) : (s.modEngine i g).qm = s.qm := rfl
@[simp] theorem modEngine_field_noc (g : Engine → Engine) : (s.modEngine i g).noc = s.noc := rfl
@[simp] theorem modEngine_field_spd (g : Engine → Engine) : (s.modEngine i g).spd = s.spd := rfl
@[simp] theorem modEngine_field_ddr (g : Engine → Engine) : (s.modEngine i g).ddr = s.ddr := rfl
@[simp] theorem modEngine_field_sec (g : Engine → Engine) : (s.modEngine i g).sec = s.sec := rfl
@[simp] theorem modEngine_field_fuse (g : Engine → Engine) : (s.modEngine i g).fuse = s.fuse := rfl
@[simp] theorem modEngine_field_answers (g : Engine → Engine) : (s.modEngine i g).answers = s.answers := rfl
@[simp] theorem modEngine_field_told (g : Engine → Engine) : (s.modEngine i g).told = s.told := rfl
@[simp] theorem modEngine_field_free (g : Engine → Engine) : (s.modEngine i g).free = s.free := rfl
@[simp] theorem modEngine_field_pending (g : Engine → Engine) : (s.modEngine i g).pending = s.pending := rfl
@[simp] theorem modEngine_tile (g : Engine → Engine) : (s.modEngine i g).tile j = s.tile j := rfl
@[simp] theorem modEngine_pll (g : Engine → Engine) : (s.modEngine i g).pll j = s.pll j := rfl
@[simp] theorem modEngine_bmem (g : Engine → Engine) : (s.modEngine i g).bmem j = s.bmem j := rfl
@[simp] theorem modEngine_quad (g : Engine → Engine) : (s.modEngine i g).quad j = s.quad j := rfl
@[simp] theorem modEngine_lane (g : Engine → Engine) : (s.modEngine i g).lane j = s.lane j := rfl
@[simp] theorem modEngine_port (g : Engine → Engine) : (s.modEngine i g).port j = s.port j := rfl
@[simp] theorem modEngine_slot (g : Engine → Engine) : (s.modEngine i g).slot j = s.slot j := rfl
@[simp] theorem modEngine_pers (g : Engine → Engine) : (s.modEngine i g).pers j = s.pers j := rfl
@[simp] theorem modEngine_ctx (g : Engine → Engine) : (s.modEngine i g).ctx j = s.ctx j := rfl
@[simp] theorem modEngine_cluster (g : Engine → Engine) : (s.modEngine i g).cluster j = s.cluster j := rfl
@[simp] theorem modEngine_pin (g : Engine → Engine) : (s.modEngine i g).pin j = s.pin j := rfl
@[simp] theorem modEngine_queue (g : Engine → Engine) : (s.modEngine i g).queue j = s.queue j := rfl
@[simp] theorem modEngine_page (g : Engine → Engine) : (s.modEngine i g).page j = s.page j := rfl
@[simp] theorem modEngine_qgroup (g : Engine → Engine) : (s.modEngine i g).qgroup j = s.qgroup j := rfl
@[simp] theorem modEngine_pier (g : Engine → Engine) : (s.modEngine i g).pier j = s.pier j := rfl
@[simp] theorem modEngine_nocGroup (g : Engine → Engine) : (s.modEngine i g).nocGroup j = s.nocGroup j := rfl
@[simp] theorem modEngine_monitor (g : Engine → Engine) : (s.modEngine i g).monitor j = s.monitor j := rfl
@[simp] theorem modEngine_bank (g : Engine → Engine) : (s.modEngine i g).bank j = s.bank j := rfl
@[simp] theorem modEngine_sgroup (g : Engine → Engine) : (s.modEngine i g).sgroup j = s.sgroup j := rfl
@[simp] theorem modEngine_chan (g : Engine → Engine) : (s.modEngine i g).chan j = s.chan j := rfl
@[simp] theorem modEngine_sub (g : Engine → Engine) : (s.modEngine i g).sub j = s.sub j := rfl
@[simp] theorem modEngine_supply (g : Engine → Engine) : (s.modEngine i g).supply j = s.supply j := rfl
@[simp] theorem modEngine_mailbox (g : Engine → Engine) : (s.modEngine i g).mailbox j = s.mailbox j := rfl
@[simp] theorem modEngine_route (g : Engine → Engine) : (s.modEngine i g).route j = s.route j := rfl

/-! ### modCtx -/

theorem modCtx_ctx (g : Ctx → Ctx) : (s.modCtx i g).ctx j = if j = i then g (s.ctx i) else s.ctx j := by
  simp [State.modCtx, State.ctx, tget_tmod]
@[simp] theorem modCtx_ctx_self (g : Ctx → Ctx) : (s.modCtx i g).ctx i = g (s.ctx i) := by simp [modCtx_ctx]
theorem modCtx_ctx_ne (g : Ctx → Ctx) (h : j ≠ i) : (s.modCtx i g).ctx j = s.ctx j := by simp [modCtx_ctx, h]
@[simp] theorem modCtx_field_dev (g : Ctx → Ctx) : (s.modCtx i g).dev = s.dev := rfl
@[simp] theorem modCtx_field_clk (g : Ctx → Ctx) : (s.modCtx i g).clk = s.clk := rfl
@[simp] theorem modCtx_field_gov (g : Ctx → Ctx) : (s.modCtx i g).gov = s.gov := rfl
@[simp] theorem modCtx_field_tim (g : Ctx → Ctx) : (s.modCtx i g).tim = s.tim := rfl
@[simp] theorem modCtx_field_sor (g : Ctx → Ctx) : (s.modCtx i g).sor = s.sor := rfl
@[simp] theorem modCtx_field_mbx (g : Ctx → Ctx) : (s.modCtx i g).mbx = s.mbx := rfl
@[simp] theorem modCtx_field_evt (g : Ctx → Ctx) : (s.modCtx i g).evt = s.evt := rfl
@[simp] theorem modCtx_field_lan (g : Ctx → Ctx) : (s.modCtx i g).lan = s.lan := rfl
@[simp] theorem modCtx_field_fab (g : Ctx → Ctx) : (s.modCtx i g).fab = s.fab := rfl
@[simp] theorem modCtx_field_spn (g : Ctx → Ctx) : (s.modCtx i g).spn = s.spn := rfl
@[simp] theorem modCtx_field_boot (g : Ctx → Ctx) : (s.modCtx i g).boot = s.boot := rfl
@[simp] theorem modCtx_field_qm (g : Ctx → Ctx) : (s.modCtx i g).qm = s.qm := rfl
@[simp] theorem modCtx_field_noc (g : Ctx → Ctx) : (s.modCtx i g).noc = s.noc := rfl
@[simp] theorem modCtx_field_spd (g : Ctx → Ctx) : (s.modCtx i g).spd = s.spd := rfl
@[simp] theorem modCtx_field_ddr (g : Ctx → Ctx) : (s.modCtx i g).ddr = s.ddr := rfl
@[simp] theorem modCtx_field_sec (g : Ctx → Ctx) : (s.modCtx i g).sec = s.sec := rfl
@[simp] theorem modCtx_field_fuse (g : Ctx → Ctx) : (s.modCtx i g).fuse = s.fuse := rfl
@[simp] theorem modCtx_field_answers (g : Ctx → Ctx) : (s.modCtx i g).answers = s.answers := rfl
@[simp] theorem modCtx_field_told (g : Ctx → Ctx) : (s.modCtx i g).told = s.told := rfl
@[simp] theorem modCtx_field_free (g : Ctx → Ctx) : (s.modCtx i g).free = s.free := rfl
@[simp] theorem modCtx_field_pending (g : Ctx → Ctx) : (s.modCtx i g).pending = s.pending := rfl
@[simp] theorem modCtx_tile (g : Ctx → Ctx) : (s.modCtx i g).tile j = s.tile j := rfl
@[simp] theorem modCtx_pll (g : Ctx → Ctx) : (s.modCtx i g).pll j = s.pll j := rfl
@[simp] theorem modCtx_bmem (g : Ctx → Ctx) : (s.modCtx i g).bmem j = s.bmem j := rfl
@[simp] theorem modCtx_quad (g : Ctx → Ctx) : (s.modCtx i g).quad j = s.quad j := rfl
@[simp] theorem modCtx_lane (g : Ctx → Ctx) : (s.modCtx i g).lane j = s.lane j := rfl
@[simp] theorem modCtx_port (g : Ctx → Ctx) : (s.modCtx i g).port j = s.port j := rfl
@[simp] theorem modCtx_slot (g : Ctx → Ctx) : (s.modCtx i g).slot j = s.slot j := rfl
@[simp] theorem modCtx_pers (g : Ctx → Ctx) : (s.modCtx i g).pers j = s.pers j := rfl
@[simp] theorem modCtx_engine (g : Ctx → Ctx) : (s.modCtx i g).engine j = s.engine j := rfl
@[simp] theorem modCtx_cluster (g : Ctx → Ctx) : (s.modCtx i g).cluster j = s.cluster j := rfl
@[simp] theorem modCtx_pin (g : Ctx → Ctx) : (s.modCtx i g).pin j = s.pin j := rfl
@[simp] theorem modCtx_queue (g : Ctx → Ctx) : (s.modCtx i g).queue j = s.queue j := rfl
@[simp] theorem modCtx_page (g : Ctx → Ctx) : (s.modCtx i g).page j = s.page j := rfl
@[simp] theorem modCtx_qgroup (g : Ctx → Ctx) : (s.modCtx i g).qgroup j = s.qgroup j := rfl
@[simp] theorem modCtx_pier (g : Ctx → Ctx) : (s.modCtx i g).pier j = s.pier j := rfl
@[simp] theorem modCtx_nocGroup (g : Ctx → Ctx) : (s.modCtx i g).nocGroup j = s.nocGroup j := rfl
@[simp] theorem modCtx_monitor (g : Ctx → Ctx) : (s.modCtx i g).monitor j = s.monitor j := rfl
@[simp] theorem modCtx_bank (g : Ctx → Ctx) : (s.modCtx i g).bank j = s.bank j := rfl
@[simp] theorem modCtx_sgroup (g : Ctx → Ctx) : (s.modCtx i g).sgroup j = s.sgroup j := rfl
@[simp] theorem modCtx_chan (g : Ctx → Ctx) : (s.modCtx i g).chan j = s.chan j := rfl
@[simp] theorem modCtx_sub (g : Ctx → Ctx) : (s.modCtx i g).sub j = s.sub j := rfl
@[simp] theorem modCtx_supply (g : Ctx → Ctx) : (s.modCtx i g).supply j = s.supply j := rfl
@[simp] theorem modCtx_mailbox (g : Ctx → Ctx) : (s.modCtx i g).mailbox j = s.mailbox j := rfl
@[simp] theorem modCtx_route (g : Ctx → Ctx) : (s.modCtx i g).route j = s.route j := rfl

/-! ### modCluster -/

theorem modCluster_cluster (g : Cluster → Cluster) : (s.modCluster i g).cluster j = if j = i then g (s.cluster i) else s.cluster j := by
  simp [State.modCluster, State.cluster, tget_tmod]
@[simp] theorem modCluster_cluster_self (g : Cluster → Cluster) : (s.modCluster i g).cluster i = g (s.cluster i) := by simp [modCluster_cluster]
theorem modCluster_cluster_ne (g : Cluster → Cluster) (h : j ≠ i) : (s.modCluster i g).cluster j = s.cluster j := by simp [modCluster_cluster, h]
@[simp] theorem modCluster_field_dev (g : Cluster → Cluster) : (s.modCluster i g).dev = s.dev := rfl
@[simp] theorem modCluster_field_clk (g : Cluster → Cluster) : (s.modCluster i g).clk = s.clk := rfl
@[simp] theorem modCluster_field_gov (g : Cluster → Cluster) : (s.modCluster i g).gov = s.gov := rfl
@[simp] theorem modCluster_field_tim (g : Cluster → Cluster) : (s.modCluster i g).tim = s.tim := rfl
@[simp] theorem modCluster_field_sor (g : Cluster → Cluster) : (s.modCluster i g).sor = s.sor := rfl
@[simp] theorem modCluster_field_mbx (g : Cluster → Cluster) : (s.modCluster i g).mbx = s.mbx := rfl
@[simp] theorem modCluster_field_evt (g : Cluster → Cluster) : (s.modCluster i g).evt = s.evt := rfl
@[simp] theorem modCluster_field_lan (g : Cluster → Cluster) : (s.modCluster i g).lan = s.lan := rfl
@[simp] theorem modCluster_field_fab (g : Cluster → Cluster) : (s.modCluster i g).fab = s.fab := rfl
@[simp] theorem modCluster_field_spn (g : Cluster → Cluster) : (s.modCluster i g).spn = s.spn := rfl
@[simp] theorem modCluster_field_boot (g : Cluster → Cluster) : (s.modCluster i g).boot = s.boot := rfl
@[simp] theorem modCluster_field_qm (g : Cluster → Cluster) : (s.modCluster i g).qm = s.qm := rfl
@[simp] theorem modCluster_field_noc (g : Cluster → Cluster) : (s.modCluster i g).noc = s.noc := rfl
@[simp] theorem modCluster_field_spd (g : Cluster → Cluster) : (s.modCluster i g).spd = s.spd := rfl
@[simp] theorem modCluster_field_ddr (g : Cluster → Cluster) : (s.modCluster i g).ddr = s.ddr := rfl
@[simp] theorem modCluster_field_sec (g : Cluster → Cluster) : (s.modCluster i g).sec = s.sec := rfl
@[simp] theorem modCluster_field_fuse (g : Cluster → Cluster) : (s.modCluster i g).fuse = s.fuse := rfl
@[simp] theorem modCluster_field_answers (g : Cluster → Cluster) : (s.modCluster i g).answers = s.answers := rfl
@[simp] theorem modCluster_field_told (g : Cluster → Cluster) : (s.modCluster i g).told = s.told := rfl
@[simp] theorem modCluster_field_free (g : Cluster → Cluster) : (s.modCluster i g).free = s.free := rfl
@[simp] theorem modCluster_field_pending (g : Cluster → Cluster) : (s.modCluster i g).pending = s.pending := rfl
@[simp] theorem modCluster_tile (g : Cluster → Cluster) : (s.modCluster i g).tile j = s.tile j := rfl
@[simp] theorem modCluster_pll (g : Cluster → Cluster) : (s.modCluster i g).pll j = s.pll j := rfl
@[simp] theorem modCluster_bmem (g : Cluster → Cluster) : (s.modCluster i g).bmem j = s.bmem j := rfl
@[simp] theorem modCluster_quad (g : Cluster → Cluster) : (s.modCluster i g).quad j = s.quad j := rfl
@[simp] theorem modCluster_lane (g : Cluster → Cluster) : (s.modCluster i g).lane j = s.lane j := rfl
@[simp] theorem modCluster_port (g : Cluster → Cluster) : (s.modCluster i g).port j = s.port j := rfl
@[simp] theorem modCluster_slot (g : Cluster → Cluster) : (s.modCluster i g).slot j = s.slot j := rfl
@[simp] theorem modCluster_pers (g : Cluster → Cluster) : (s.modCluster i g).pers j = s.pers j := rfl
@[simp] theorem modCluster_engine (g : Cluster → Cluster) : (s.modCluster i g).engine j = s.engine j := rfl
@[simp] theorem modCluster_ctx (g : Cluster → Cluster) : (s.modCluster i g).ctx j = s.ctx j := rfl
@[simp] theorem modCluster_pin (g : Cluster → Cluster) : (s.modCluster i g).pin j = s.pin j := rfl
@[simp] theorem modCluster_queue (g : Cluster → Cluster) : (s.modCluster i g).queue j = s.queue j := rfl
@[simp] theorem modCluster_page (g : Cluster → Cluster) : (s.modCluster i g).page j = s.page j := rfl
@[simp] theorem modCluster_qgroup (g : Cluster → Cluster) : (s.modCluster i g).qgroup j = s.qgroup j := rfl
@[simp] theorem modCluster_pier (g : Cluster → Cluster) : (s.modCluster i g).pier j = s.pier j := rfl
@[simp] theorem modCluster_nocGroup (g : Cluster → Cluster) : (s.modCluster i g).nocGroup j = s.nocGroup j := rfl
@[simp] theorem modCluster_monitor (g : Cluster → Cluster) : (s.modCluster i g).monitor j = s.monitor j := rfl
@[simp] theorem modCluster_bank (g : Cluster → Cluster) : (s.modCluster i g).bank j = s.bank j := rfl
@[simp] theorem modCluster_sgroup (g : Cluster → Cluster) : (s.modCluster i g).sgroup j = s.sgroup j := rfl
@[simp] theorem modCluster_chan (g : Cluster → Cluster) : (s.modCluster i g).chan j = s.chan j := rfl
@[simp] theorem modCluster_sub (g : Cluster → Cluster) : (s.modCluster i g).sub j = s.sub j := rfl
@[simp] theorem modCluster_supply (g : Cluster → Cluster) : (s.modCluster i g).supply j = s.supply j := rfl
@[simp] theorem modCluster_mailbox (g : Cluster → Cluster) : (s.modCluster i g).mailbox j = s.mailbox j := rfl
@[simp] theorem modCluster_route (g : Cluster → Cluster) : (s.modCluster i g).route j = s.route j := rfl

/-! ### modPin -/

theorem modPin_pin (g : Pin → Pin) : (s.modPin i g).pin j = if j = i then g (s.pin i) else s.pin j := by
  simp [State.modPin, State.pin, tget_tmod]
@[simp] theorem modPin_pin_self (g : Pin → Pin) : (s.modPin i g).pin i = g (s.pin i) := by simp [modPin_pin]
theorem modPin_pin_ne (g : Pin → Pin) (h : j ≠ i) : (s.modPin i g).pin j = s.pin j := by simp [modPin_pin, h]
@[simp] theorem modPin_field_dev (g : Pin → Pin) : (s.modPin i g).dev = s.dev := rfl
@[simp] theorem modPin_field_clk (g : Pin → Pin) : (s.modPin i g).clk = s.clk := rfl
@[simp] theorem modPin_field_gov (g : Pin → Pin) : (s.modPin i g).gov = s.gov := rfl
@[simp] theorem modPin_field_tim (g : Pin → Pin) : (s.modPin i g).tim = s.tim := rfl
@[simp] theorem modPin_field_sor (g : Pin → Pin) : (s.modPin i g).sor = s.sor := rfl
@[simp] theorem modPin_field_mbx (g : Pin → Pin) : (s.modPin i g).mbx = s.mbx := rfl
@[simp] theorem modPin_field_evt (g : Pin → Pin) : (s.modPin i g).evt = s.evt := rfl
@[simp] theorem modPin_field_lan (g : Pin → Pin) : (s.modPin i g).lan = s.lan := rfl
@[simp] theorem modPin_field_fab (g : Pin → Pin) : (s.modPin i g).fab = s.fab := rfl
@[simp] theorem modPin_field_spn (g : Pin → Pin) : (s.modPin i g).spn = s.spn := rfl
@[simp] theorem modPin_field_boot (g : Pin → Pin) : (s.modPin i g).boot = s.boot := rfl
@[simp] theorem modPin_field_qm (g : Pin → Pin) : (s.modPin i g).qm = s.qm := rfl
@[simp] theorem modPin_field_noc (g : Pin → Pin) : (s.modPin i g).noc = s.noc := rfl
@[simp] theorem modPin_field_spd (g : Pin → Pin) : (s.modPin i g).spd = s.spd := rfl
@[simp] theorem modPin_field_ddr (g : Pin → Pin) : (s.modPin i g).ddr = s.ddr := rfl
@[simp] theorem modPin_field_sec (g : Pin → Pin) : (s.modPin i g).sec = s.sec := rfl
@[simp] theorem modPin_field_fuse (g : Pin → Pin) : (s.modPin i g).fuse = s.fuse := rfl
@[simp] theorem modPin_field_answers (g : Pin → Pin) : (s.modPin i g).answers = s.answers := rfl
@[simp] theorem modPin_field_told (g : Pin → Pin) : (s.modPin i g).told = s.told := rfl
@[simp] theorem modPin_field_free (g : Pin → Pin) : (s.modPin i g).free = s.free := rfl
@[simp] theorem modPin_field_pending (g : Pin → Pin) : (s.modPin i g).pending = s.pending := rfl
@[simp] theorem modPin_tile (g : Pin → Pin) : (s.modPin i g).tile j = s.tile j := rfl
@[simp] theorem modPin_pll (g : Pin → Pin) : (s.modPin i g).pll j = s.pll j := rfl
@[simp] theorem modPin_bmem (g : Pin → Pin) : (s.modPin i g).bmem j = s.bmem j := rfl
@[simp] theorem modPin_quad (g : Pin → Pin) : (s.modPin i g).quad j = s.quad j := rfl
@[simp] theorem modPin_lane (g : Pin → Pin) : (s.modPin i g).lane j = s.lane j := rfl
@[simp] theorem modPin_port (g : Pin → Pin) : (s.modPin i g).port j = s.port j := rfl
@[simp] theorem modPin_slot (g : Pin → Pin) : (s.modPin i g).slot j = s.slot j := rfl
@[simp] theorem modPin_pers (g : Pin → Pin) : (s.modPin i g).pers j = s.pers j := rfl
@[simp] theorem modPin_engine (g : Pin → Pin) : (s.modPin i g).engine j = s.engine j := rfl
@[simp] theorem modPin_ctx (g : Pin → Pin) : (s.modPin i g).ctx j = s.ctx j := rfl
@[simp] theorem modPin_cluster (g : Pin → Pin) : (s.modPin i g).cluster j = s.cluster j := rfl
@[simp] theorem modPin_queue (g : Pin → Pin) : (s.modPin i g).queue j = s.queue j := rfl
@[simp] theorem modPin_page (g : Pin → Pin) : (s.modPin i g).page j = s.page j := rfl
@[simp] theorem modPin_qgroup (g : Pin → Pin) : (s.modPin i g).qgroup j = s.qgroup j := rfl
@[simp] theorem modPin_pier (g : Pin → Pin) : (s.modPin i g).pier j = s.pier j := rfl
@[simp] theorem modPin_nocGroup (g : Pin → Pin) : (s.modPin i g).nocGroup j = s.nocGroup j := rfl
@[simp] theorem modPin_monitor (g : Pin → Pin) : (s.modPin i g).monitor j = s.monitor j := rfl
@[simp] theorem modPin_bank (g : Pin → Pin) : (s.modPin i g).bank j = s.bank j := rfl
@[simp] theorem modPin_sgroup (g : Pin → Pin) : (s.modPin i g).sgroup j = s.sgroup j := rfl
@[simp] theorem modPin_chan (g : Pin → Pin) : (s.modPin i g).chan j = s.chan j := rfl
@[simp] theorem modPin_sub (g : Pin → Pin) : (s.modPin i g).sub j = s.sub j := rfl
@[simp] theorem modPin_supply (g : Pin → Pin) : (s.modPin i g).supply j = s.supply j := rfl
@[simp] theorem modPin_mailbox (g : Pin → Pin) : (s.modPin i g).mailbox j = s.mailbox j := rfl
@[simp] theorem modPin_route (g : Pin → Pin) : (s.modPin i g).route j = s.route j := rfl

/-! ### modQueue -/

theorem modQueue_queue (g : Queue → Queue) : (s.modQueue i g).queue j = if j = i then g (s.queue i) else s.queue j := by
  simp [State.modQueue, State.queue, tget_tmod]
@[simp] theorem modQueue_queue_self (g : Queue → Queue) : (s.modQueue i g).queue i = g (s.queue i) := by simp [modQueue_queue]
theorem modQueue_queue_ne (g : Queue → Queue) (h : j ≠ i) : (s.modQueue i g).queue j = s.queue j := by simp [modQueue_queue, h]
@[simp] theorem modQueue_field_dev (g : Queue → Queue) : (s.modQueue i g).dev = s.dev := rfl
@[simp] theorem modQueue_field_clk (g : Queue → Queue) : (s.modQueue i g).clk = s.clk := rfl
@[simp] theorem modQueue_field_gov (g : Queue → Queue) : (s.modQueue i g).gov = s.gov := rfl
@[simp] theorem modQueue_field_tim (g : Queue → Queue) : (s.modQueue i g).tim = s.tim := rfl
@[simp] theorem modQueue_field_sor (g : Queue → Queue) : (s.modQueue i g).sor = s.sor := rfl
@[simp] theorem modQueue_field_mbx (g : Queue → Queue) : (s.modQueue i g).mbx = s.mbx := rfl
@[simp] theorem modQueue_field_evt (g : Queue → Queue) : (s.modQueue i g).evt = s.evt := rfl
@[simp] theorem modQueue_field_lan (g : Queue → Queue) : (s.modQueue i g).lan = s.lan := rfl
@[simp] theorem modQueue_field_fab (g : Queue → Queue) : (s.modQueue i g).fab = s.fab := rfl
@[simp] theorem modQueue_field_spn (g : Queue → Queue) : (s.modQueue i g).spn = s.spn := rfl
@[simp] theorem modQueue_field_boot (g : Queue → Queue) : (s.modQueue i g).boot = s.boot := rfl
@[simp] theorem modQueue_field_eng (g : Queue → Queue) : (s.modQueue i g).eng = s.eng := rfl
@[simp] theorem modQueue_field_noc (g : Queue → Queue) : (s.modQueue i g).noc = s.noc := rfl
@[simp] theorem modQueue_field_spd (g : Queue → Queue) : (s.modQueue i g).spd = s.spd := rfl
@[simp] theorem modQueue_field_ddr (g : Queue → Queue) : (s.modQueue i g).ddr = s.ddr := rfl
@[simp] theorem modQueue_field_sec (g : Queue → Queue) : (s.modQueue i g).sec = s.sec := rfl
@[simp] theorem modQueue_field_fuse (g : Queue → Queue) : (s.modQueue i g).fuse = s.fuse := rfl
@[simp] theorem modQueue_field_answers (g : Queue → Queue) : (s.modQueue i g).answers = s.answers := rfl
@[simp] theorem modQueue_field_told (g : Queue → Queue) : (s.modQueue i g).told = s.told := rfl
@[simp] theorem modQueue_field_free (g : Queue → Queue) : (s.modQueue i g).free = s.free := rfl
@[simp] theorem modQueue_field_pending (g : Queue → Queue) : (s.modQueue i g).pending = s.pending := rfl
@[simp] theorem modQueue_tile (g : Queue → Queue) : (s.modQueue i g).tile j = s.tile j := rfl
@[simp] theorem modQueue_pll (g : Queue → Queue) : (s.modQueue i g).pll j = s.pll j := rfl
@[simp] theorem modQueue_bmem (g : Queue → Queue) : (s.modQueue i g).bmem j = s.bmem j := rfl
@[simp] theorem modQueue_quad (g : Queue → Queue) : (s.modQueue i g).quad j = s.quad j := rfl
@[simp] theorem modQueue_lane (g : Queue → Queue) : (s.modQueue i g).lane j = s.lane j := rfl
@[simp] theorem modQueue_port (g : Queue → Queue) : (s.modQueue i g).port j = s.port j := rfl
@[simp] theorem modQueue_slot (g : Queue → Queue) : (s.modQueue i g).slot j = s.slot j := rfl
@[simp] theorem modQueue_pers (g : Queue → Queue) : (s.modQueue i g).pers j = s.pers j := rfl
@[simp] theorem modQueue_engine (g : Queue → Queue) : (s.modQueue i g).engine j = s.engine j := rfl
@[simp] theorem modQueue_ctx (g : Queue → Queue) : (s.modQueue i g).ctx j = s.ctx j := rfl
@[simp] theorem modQueue_cluster (g : Queue → Queue) : (s.modQueue i g).cluster j = s.cluster j := rfl
@[simp] theorem modQueue_pin (g : Queue → Queue) : (s.modQueue i g).pin j = s.pin j := rfl
@[simp] theorem modQueue_page (g : Queue → Queue) : (s.modQueue i g).page j = s.page j := rfl
@[simp] theorem modQueue_qgroup (g : Queue → Queue) : (s.modQueue i g).qgroup j = s.qgroup j := rfl
@[simp] theorem modQueue_pier (g : Queue → Queue) : (s.modQueue i g).pier j = s.pier j := rfl
@[simp] theorem modQueue_nocGroup (g : Queue → Queue) : (s.modQueue i g).nocGroup j = s.nocGroup j := rfl
@[simp] theorem modQueue_monitor (g : Queue → Queue) : (s.modQueue i g).monitor j = s.monitor j := rfl
@[simp] theorem modQueue_bank (g : Queue → Queue) : (s.modQueue i g).bank j = s.bank j := rfl
@[simp] theorem modQueue_sgroup (g : Queue → Queue) : (s.modQueue i g).sgroup j = s.sgroup j := rfl
@[simp] theorem modQueue_chan (g : Queue → Queue) : (s.modQueue i g).chan j = s.chan j := rfl
@[simp] theorem modQueue_sub (g : Queue → Queue) : (s.modQueue i g).sub j = s.sub j := rfl
@[simp] theorem modQueue_supply (g : Queue → Queue) : (s.modQueue i g).supply j = s.supply j := rfl
@[simp] theorem modQueue_mailbox (g : Queue → Queue) : (s.modQueue i g).mailbox j = s.mailbox j := rfl
@[simp] theorem modQueue_route (g : Queue → Queue) : (s.modQueue i g).route j = s.route j := rfl

/-! ### modPage -/

theorem modPage_page (g : PageEntry → PageEntry) : (s.modPage i g).page j = if j = i then g (s.page i) else s.page j := by
  simp [State.modPage, State.page, tget_tmod]
@[simp] theorem modPage_page_self (g : PageEntry → PageEntry) : (s.modPage i g).page i = g (s.page i) := by simp [modPage_page]
theorem modPage_page_ne (g : PageEntry → PageEntry) (h : j ≠ i) : (s.modPage i g).page j = s.page j := by simp [modPage_page, h]
@[simp] theorem modPage_field_dev (g : PageEntry → PageEntry) : (s.modPage i g).dev = s.dev := rfl
@[simp] theorem modPage_field_clk (g : PageEntry → PageEntry) : (s.modPage i g).clk = s.clk := rfl
@[simp] theorem modPage_field_gov (g : PageEntry → PageEntry) : (s.modPage i g).gov = s.gov := rfl
@[simp] theorem modPage_field_tim (g : PageEntry → PageEntry) : (s.modPage i g).tim = s.tim := rfl
@[simp] theorem modPage_field_sor (g : PageEntry → PageEntry) : (s.modPage i g).sor = s.sor := rfl
@[simp] theorem modPage_field_mbx (g : PageEntry → PageEntry) : (s.modPage i g).mbx = s.mbx := rfl
@[simp] theorem modPage_field_evt (g : PageEntry → PageEntry) : (s.modPage i g).evt = s.evt := rfl
@[simp] theorem modPage_field_lan (g : PageEntry → PageEntry) : (s.modPage i g).lan = s.lan := rfl
@[simp] theorem modPage_field_fab (g : PageEntry → PageEntry) : (s.modPage i g).fab = s.fab := rfl
@[simp] theorem modPage_field_spn (g : PageEntry → PageEntry) : (s.modPage i g).spn = s.spn := rfl
@[simp] theorem modPage_field_boot (g : PageEntry → PageEntry) : (s.modPage i g).boot = s.boot := rfl
@[simp] theorem modPage_field_eng (g : PageEntry → PageEntry) : (s.modPage i g).eng = s.eng := rfl
@[simp] theorem modPage_field_noc (g : PageEntry → PageEntry) : (s.modPage i g).noc = s.noc := rfl
@[simp] theorem modPage_field_spd (g : PageEntry → PageEntry) : (s.modPage i g).spd = s.spd := rfl
@[simp] theorem modPage_field_ddr (g : PageEntry → PageEntry) : (s.modPage i g).ddr = s.ddr := rfl
@[simp] theorem modPage_field_sec (g : PageEntry → PageEntry) : (s.modPage i g).sec = s.sec := rfl
@[simp] theorem modPage_field_fuse (g : PageEntry → PageEntry) : (s.modPage i g).fuse = s.fuse := rfl
@[simp] theorem modPage_field_answers (g : PageEntry → PageEntry) : (s.modPage i g).answers = s.answers := rfl
@[simp] theorem modPage_field_told (g : PageEntry → PageEntry) : (s.modPage i g).told = s.told := rfl
@[simp] theorem modPage_field_free (g : PageEntry → PageEntry) : (s.modPage i g).free = s.free := rfl
@[simp] theorem modPage_field_pending (g : PageEntry → PageEntry) : (s.modPage i g).pending = s.pending := rfl
@[simp] theorem modPage_tile (g : PageEntry → PageEntry) : (s.modPage i g).tile j = s.tile j := rfl
@[simp] theorem modPage_pll (g : PageEntry → PageEntry) : (s.modPage i g).pll j = s.pll j := rfl
@[simp] theorem modPage_bmem (g : PageEntry → PageEntry) : (s.modPage i g).bmem j = s.bmem j := rfl
@[simp] theorem modPage_quad (g : PageEntry → PageEntry) : (s.modPage i g).quad j = s.quad j := rfl
@[simp] theorem modPage_lane (g : PageEntry → PageEntry) : (s.modPage i g).lane j = s.lane j := rfl
@[simp] theorem modPage_port (g : PageEntry → PageEntry) : (s.modPage i g).port j = s.port j := rfl
@[simp] theorem modPage_slot (g : PageEntry → PageEntry) : (s.modPage i g).slot j = s.slot j := rfl
@[simp] theorem modPage_pers (g : PageEntry → PageEntry) : (s.modPage i g).pers j = s.pers j := rfl
@[simp] theorem modPage_engine (g : PageEntry → PageEntry) : (s.modPage i g).engine j = s.engine j := rfl
@[simp] theorem modPage_ctx (g : PageEntry → PageEntry) : (s.modPage i g).ctx j = s.ctx j := rfl
@[simp] theorem modPage_cluster (g : PageEntry → PageEntry) : (s.modPage i g).cluster j = s.cluster j := rfl
@[simp] theorem modPage_pin (g : PageEntry → PageEntry) : (s.modPage i g).pin j = s.pin j := rfl
@[simp] theorem modPage_queue (g : PageEntry → PageEntry) : (s.modPage i g).queue j = s.queue j := rfl
@[simp] theorem modPage_qgroup (g : PageEntry → PageEntry) : (s.modPage i g).qgroup j = s.qgroup j := rfl
@[simp] theorem modPage_pier (g : PageEntry → PageEntry) : (s.modPage i g).pier j = s.pier j := rfl
@[simp] theorem modPage_nocGroup (g : PageEntry → PageEntry) : (s.modPage i g).nocGroup j = s.nocGroup j := rfl
@[simp] theorem modPage_monitor (g : PageEntry → PageEntry) : (s.modPage i g).monitor j = s.monitor j := rfl
@[simp] theorem modPage_bank (g : PageEntry → PageEntry) : (s.modPage i g).bank j = s.bank j := rfl
@[simp] theorem modPage_sgroup (g : PageEntry → PageEntry) : (s.modPage i g).sgroup j = s.sgroup j := rfl
@[simp] theorem modPage_chan (g : PageEntry → PageEntry) : (s.modPage i g).chan j = s.chan j := rfl
@[simp] theorem modPage_sub (g : PageEntry → PageEntry) : (s.modPage i g).sub j = s.sub j := rfl
@[simp] theorem modPage_supply (g : PageEntry → PageEntry) : (s.modPage i g).supply j = s.supply j := rfl
@[simp] theorem modPage_mailbox (g : PageEntry → PageEntry) : (s.modPage i g).mailbox j = s.mailbox j := rfl
@[simp] theorem modPage_route (g : PageEntry → PageEntry) : (s.modPage i g).route j = s.route j := rfl

/-! ### modQgroup -/

theorem modQgroup_qgroup (g : QGroup → QGroup) : (s.modQgroup i g).qgroup j = if j = i then g (s.qgroup i) else s.qgroup j := by
  simp [State.modQgroup, State.qgroup, tget_tmod]
@[simp] theorem modQgroup_qgroup_self (g : QGroup → QGroup) : (s.modQgroup i g).qgroup i = g (s.qgroup i) := by simp [modQgroup_qgroup]
theorem modQgroup_qgroup_ne (g : QGroup → QGroup) (h : j ≠ i) : (s.modQgroup i g).qgroup j = s.qgroup j := by simp [modQgroup_qgroup, h]
@[simp] theorem modQgroup_field_dev (g : QGroup → QGroup) : (s.modQgroup i g).dev = s.dev := rfl
@[simp] theorem modQgroup_field_clk (g : QGroup → QGroup) : (s.modQgroup i g).clk = s.clk := rfl
@[simp] theorem modQgroup_field_gov (g : QGroup → QGroup) : (s.modQgroup i g).gov = s.gov := rfl
@[simp] theorem modQgroup_field_tim (g : QGroup → QGroup) : (s.modQgroup i g).tim = s.tim := rfl
@[simp] theorem modQgroup_field_sor (g : QGroup → QGroup) : (s.modQgroup i g).sor = s.sor := rfl
@[simp] theorem modQgroup_field_mbx (g : QGroup → QGroup) : (s.modQgroup i g).mbx = s.mbx := rfl
@[simp] theorem modQgroup_field_evt (g : QGroup → QGroup) : (s.modQgroup i g).evt = s.evt := rfl
@[simp] theorem modQgroup_field_lan (g : QGroup → QGroup) : (s.modQgroup i g).lan = s.lan := rfl
@[simp] theorem modQgroup_field_fab (g : QGroup → QGroup) : (s.modQgroup i g).fab = s.fab := rfl
@[simp] theorem modQgroup_field_spn (g : QGroup → QGroup) : (s.modQgroup i g).spn = s.spn := rfl
@[simp] theorem modQgroup_field_boot (g : QGroup → QGroup) : (s.modQgroup i g).boot = s.boot := rfl
@[simp] theorem modQgroup_field_eng (g : QGroup → QGroup) : (s.modQgroup i g).eng = s.eng := rfl
@[simp] theorem modQgroup_field_noc (g : QGroup → QGroup) : (s.modQgroup i g).noc = s.noc := rfl
@[simp] theorem modQgroup_field_spd (g : QGroup → QGroup) : (s.modQgroup i g).spd = s.spd := rfl
@[simp] theorem modQgroup_field_ddr (g : QGroup → QGroup) : (s.modQgroup i g).ddr = s.ddr := rfl
@[simp] theorem modQgroup_field_sec (g : QGroup → QGroup) : (s.modQgroup i g).sec = s.sec := rfl
@[simp] theorem modQgroup_field_fuse (g : QGroup → QGroup) : (s.modQgroup i g).fuse = s.fuse := rfl
@[simp] theorem modQgroup_field_answers (g : QGroup → QGroup) : (s.modQgroup i g).answers = s.answers := rfl
@[simp] theorem modQgroup_field_told (g : QGroup → QGroup) : (s.modQgroup i g).told = s.told := rfl
@[simp] theorem modQgroup_field_free (g : QGroup → QGroup) : (s.modQgroup i g).free = s.free := rfl
@[simp] theorem modQgroup_field_pending (g : QGroup → QGroup) : (s.modQgroup i g).pending = s.pending := rfl
@[simp] theorem modQgroup_tile (g : QGroup → QGroup) : (s.modQgroup i g).tile j = s.tile j := rfl
@[simp] theorem modQgroup_pll (g : QGroup → QGroup) : (s.modQgroup i g).pll j = s.pll j := rfl
@[simp] theorem modQgroup_bmem (g : QGroup → QGroup) : (s.modQgroup i g).bmem j = s.bmem j := rfl
@[simp] theorem modQgroup_quad (g : QGroup → QGroup) : (s.modQgroup i g).quad j = s.quad j := rfl
@[simp] theorem modQgroup_lane (g : QGroup → QGroup) : (s.modQgroup i g).lane j = s.lane j := rfl
@[simp] theorem modQgroup_port (g : QGroup → QGroup) : (s.modQgroup i g).port j = s.port j := rfl
@[simp] theorem modQgroup_slot (g : QGroup → QGroup) : (s.modQgroup i g).slot j = s.slot j := rfl
@[simp] theorem modQgroup_pers (g : QGroup → QGroup) : (s.modQgroup i g).pers j = s.pers j := rfl
@[simp] theorem modQgroup_engine (g : QGroup → QGroup) : (s.modQgroup i g).engine j = s.engine j := rfl
@[simp] theorem modQgroup_ctx (g : QGroup → QGroup) : (s.modQgroup i g).ctx j = s.ctx j := rfl
@[simp] theorem modQgroup_cluster (g : QGroup → QGroup) : (s.modQgroup i g).cluster j = s.cluster j := rfl
@[simp] theorem modQgroup_pin (g : QGroup → QGroup) : (s.modQgroup i g).pin j = s.pin j := rfl
@[simp] theorem modQgroup_queue (g : QGroup → QGroup) : (s.modQgroup i g).queue j = s.queue j := rfl
@[simp] theorem modQgroup_page (g : QGroup → QGroup) : (s.modQgroup i g).page j = s.page j := rfl
@[simp] theorem modQgroup_pier (g : QGroup → QGroup) : (s.modQgroup i g).pier j = s.pier j := rfl
@[simp] theorem modQgroup_nocGroup (g : QGroup → QGroup) : (s.modQgroup i g).nocGroup j = s.nocGroup j := rfl
@[simp] theorem modQgroup_monitor (g : QGroup → QGroup) : (s.modQgroup i g).monitor j = s.monitor j := rfl
@[simp] theorem modQgroup_bank (g : QGroup → QGroup) : (s.modQgroup i g).bank j = s.bank j := rfl
@[simp] theorem modQgroup_sgroup (g : QGroup → QGroup) : (s.modQgroup i g).sgroup j = s.sgroup j := rfl
@[simp] theorem modQgroup_chan (g : QGroup → QGroup) : (s.modQgroup i g).chan j = s.chan j := rfl
@[simp] theorem modQgroup_sub (g : QGroup → QGroup) : (s.modQgroup i g).sub j = s.sub j := rfl
@[simp] theorem modQgroup_supply (g : QGroup → QGroup) : (s.modQgroup i g).supply j = s.supply j := rfl
@[simp] theorem modQgroup_mailbox (g : QGroup → QGroup) : (s.modQgroup i g).mailbox j = s.mailbox j := rfl
@[simp] theorem modQgroup_route (g : QGroup → QGroup) : (s.modQgroup i g).route j = s.route j := rfl

/-! ### modPier -/

theorem modPier_pier (g : Pier → Pier) : (s.modPier i g).pier j = if j = i then g (s.pier i) else s.pier j := by
  simp [State.modPier, State.pier, tget_tmod]
@[simp] theorem modPier_pier_self (g : Pier → Pier) : (s.modPier i g).pier i = g (s.pier i) := by simp [modPier_pier]
theorem modPier_pier_ne (g : Pier → Pier) (h : j ≠ i) : (s.modPier i g).pier j = s.pier j := by simp [modPier_pier, h]
@[simp] theorem modPier_field_dev (g : Pier → Pier) : (s.modPier i g).dev = s.dev := rfl
@[simp] theorem modPier_field_clk (g : Pier → Pier) : (s.modPier i g).clk = s.clk := rfl
@[simp] theorem modPier_field_gov (g : Pier → Pier) : (s.modPier i g).gov = s.gov := rfl
@[simp] theorem modPier_field_tim (g : Pier → Pier) : (s.modPier i g).tim = s.tim := rfl
@[simp] theorem modPier_field_sor (g : Pier → Pier) : (s.modPier i g).sor = s.sor := rfl
@[simp] theorem modPier_field_mbx (g : Pier → Pier) : (s.modPier i g).mbx = s.mbx := rfl
@[simp] theorem modPier_field_evt (g : Pier → Pier) : (s.modPier i g).evt = s.evt := rfl
@[simp] theorem modPier_field_lan (g : Pier → Pier) : (s.modPier i g).lan = s.lan := rfl
@[simp] theorem modPier_field_fab (g : Pier → Pier) : (s.modPier i g).fab = s.fab := rfl
@[simp] theorem modPier_field_spn (g : Pier → Pier) : (s.modPier i g).spn = s.spn := rfl
@[simp] theorem modPier_field_boot (g : Pier → Pier) : (s.modPier i g).boot = s.boot := rfl
@[simp] theorem modPier_field_eng (g : Pier → Pier) : (s.modPier i g).eng = s.eng := rfl
@[simp] theorem modPier_field_qm (g : Pier → Pier) : (s.modPier i g).qm = s.qm := rfl
@[simp] theorem modPier_field_spd (g : Pier → Pier) : (s.modPier i g).spd = s.spd := rfl
@[simp] theorem modPier_field_ddr (g : Pier → Pier) : (s.modPier i g).ddr = s.ddr := rfl
@[simp] theorem modPier_field_sec (g : Pier → Pier) : (s.modPier i g).sec = s.sec := rfl
@[simp] theorem modPier_field_fuse (g : Pier → Pier) : (s.modPier i g).fuse = s.fuse := rfl
@[simp] theorem modPier_field_answers (g : Pier → Pier) : (s.modPier i g).answers = s.answers := rfl
@[simp] theorem modPier_field_told (g : Pier → Pier) : (s.modPier i g).told = s.told := rfl
@[simp] theorem modPier_field_free (g : Pier → Pier) : (s.modPier i g).free = s.free := rfl
@[simp] theorem modPier_field_pending (g : Pier → Pier) : (s.modPier i g).pending = s.pending := rfl
@[simp] theorem modPier_tile (g : Pier → Pier) : (s.modPier i g).tile j = s.tile j := rfl
@[simp] theorem modPier_pll (g : Pier → Pier) : (s.modPier i g).pll j = s.pll j := rfl
@[simp] theorem modPier_bmem (g : Pier → Pier) : (s.modPier i g).bmem j = s.bmem j := rfl
@[simp] theorem modPier_quad (g : Pier → Pier) : (s.modPier i g).quad j = s.quad j := rfl
@[simp] theorem modPier_lane (g : Pier → Pier) : (s.modPier i g).lane j = s.lane j := rfl
@[simp] theorem modPier_port (g : Pier → Pier) : (s.modPier i g).port j = s.port j := rfl
@[simp] theorem modPier_slot (g : Pier → Pier) : (s.modPier i g).slot j = s.slot j := rfl
@[simp] theorem modPier_pers (g : Pier → Pier) : (s.modPier i g).pers j = s.pers j := rfl
@[simp] theorem modPier_engine (g : Pier → Pier) : (s.modPier i g).engine j = s.engine j := rfl
@[simp] theorem modPier_ctx (g : Pier → Pier) : (s.modPier i g).ctx j = s.ctx j := rfl
@[simp] theorem modPier_cluster (g : Pier → Pier) : (s.modPier i g).cluster j = s.cluster j := rfl
@[simp] theorem modPier_pin (g : Pier → Pier) : (s.modPier i g).pin j = s.pin j := rfl
@[simp] theorem modPier_queue (g : Pier → Pier) : (s.modPier i g).queue j = s.queue j := rfl
@[simp] theorem modPier_page (g : Pier → Pier) : (s.modPier i g).page j = s.page j := rfl
@[simp] theorem modPier_qgroup (g : Pier → Pier) : (s.modPier i g).qgroup j = s.qgroup j := rfl
@[simp] theorem modPier_nocGroup (g : Pier → Pier) : (s.modPier i g).nocGroup j = s.nocGroup j := rfl
@[simp] theorem modPier_monitor (g : Pier → Pier) : (s.modPier i g).monitor j = s.monitor j := rfl
@[simp] theorem modPier_bank (g : Pier → Pier) : (s.modPier i g).bank j = s.bank j := rfl
@[simp] theorem modPier_sgroup (g : Pier → Pier) : (s.modPier i g).sgroup j = s.sgroup j := rfl
@[simp] theorem modPier_chan (g : Pier → Pier) : (s.modPier i g).chan j = s.chan j := rfl
@[simp] theorem modPier_sub (g : Pier → Pier) : (s.modPier i g).sub j = s.sub j := rfl
@[simp] theorem modPier_supply (g : Pier → Pier) : (s.modPier i g).supply j = s.supply j := rfl
@[simp] theorem modPier_mailbox (g : Pier → Pier) : (s.modPier i g).mailbox j = s.mailbox j := rfl
@[simp] theorem modPier_route (g : Pier → Pier) : (s.modPier i g).route j = s.route j := rfl

/-! ### modNocGroup -/

theorem modNocGroup_nocGroup (g : NocGroup → NocGroup) : (s.modNocGroup i g).nocGroup j = if j = i then g (s.nocGroup i) else s.nocGroup j := by
  simp [State.modNocGroup, State.nocGroup, tget_tmod]
@[simp] theorem modNocGroup_nocGroup_self (g : NocGroup → NocGroup) : (s.modNocGroup i g).nocGroup i = g (s.nocGroup i) := by simp [modNocGroup_nocGroup]
theorem modNocGroup_nocGroup_ne (g : NocGroup → NocGroup) (h : j ≠ i) : (s.modNocGroup i g).nocGroup j = s.nocGroup j := by simp [modNocGroup_nocGroup, h]
@[simp] theorem modNocGroup_field_dev (g : NocGroup → NocGroup) : (s.modNocGroup i g).dev = s.dev := rfl
@[simp] theorem modNocGroup_field_clk (g : NocGroup → NocGroup) : (s.modNocGroup i g).clk = s.clk := rfl
@[simp] theorem modNocGroup_field_gov (g : NocGroup → NocGroup) : (s.modNocGroup i g).gov = s.gov := rfl
@[simp] theorem modNocGroup_field_tim (g : NocGroup → NocGroup) : (s.modNocGroup i g).tim = s.tim := rfl
@[simp] theorem modNocGroup_field_sor (g : NocGroup → NocGroup) : (s.modNocGroup i g).sor = s.sor := rfl
@[simp] theorem modNocGroup_field_mbx (g : NocGroup → NocGroup) : (s.modNocGroup i g).mbx = s.mbx := rfl
@[simp] theorem modNocGroup_field_evt (g : NocGroup → NocGroup) : (s.modNocGroup i g).evt = s.evt := rfl
@[simp] theorem modNocGroup_field_lan (g : NocGroup → NocGroup) : (s.modNocGroup i g).lan = s.lan := rfl
@[simp] theorem modNocGroup_field_fab (g : NocGroup → NocGroup) : (s.modNocGroup i g).fab = s.fab := rfl
@[simp] theorem modNocGroup_field_spn (g : NocGroup → NocGroup) : (s.modNocGroup i g).spn = s.spn := rfl
@[simp] theorem modNocGroup_field_boot (g : NocGroup → NocGroup) : (s.modNocGroup i g).boot = s.boot := rfl
@[simp] theorem modNocGroup_field_eng (g : NocGroup → NocGroup) : (s.modNocGroup i g).eng = s.eng := rfl
@[simp] theorem modNocGroup_field_qm (g : NocGroup → NocGroup) : (s.modNocGroup i g).qm = s.qm := rfl
@[simp] theorem modNocGroup_field_spd (g : NocGroup → NocGroup) : (s.modNocGroup i g).spd = s.spd := rfl
@[simp] theorem modNocGroup_field_ddr (g : NocGroup → NocGroup) : (s.modNocGroup i g).ddr = s.ddr := rfl
@[simp] theorem modNocGroup_field_sec (g : NocGroup → NocGroup) : (s.modNocGroup i g).sec = s.sec := rfl
@[simp] theorem modNocGroup_field_fuse (g : NocGroup → NocGroup) : (s.modNocGroup i g).fuse = s.fuse := rfl
@[simp] theorem modNocGroup_field_answers (g : NocGroup → NocGroup) : (s.modNocGroup i g).answers = s.answers := rfl
@[simp] theorem modNocGroup_field_told (g : NocGroup → NocGroup) : (s.modNocGroup i g).told = s.told := rfl
@[simp] theorem modNocGroup_field_free (g : NocGroup → NocGroup) : (s.modNocGroup i g).free = s.free := rfl
@[simp] theorem modNocGroup_field_pending (g : NocGroup → NocGroup) : (s.modNocGroup i g).pending = s.pending := rfl
@[simp] theorem modNocGroup_tile (g : NocGroup → NocGroup) : (s.modNocGroup i g).tile j = s.tile j := rfl
@[simp] theorem modNocGroup_pll (g : NocGroup → NocGroup) : (s.modNocGroup i g).pll j = s.pll j := rfl
@[simp] theorem modNocGroup_bmem (g : NocGroup → NocGroup) : (s.modNocGroup i g).bmem j = s.bmem j := rfl
@[simp] theorem modNocGroup_quad (g : NocGroup → NocGroup) : (s.modNocGroup i g).quad j = s.quad j := rfl
@[simp] theorem modNocGroup_lane (g : NocGroup → NocGroup) : (s.modNocGroup i g).lane j = s.lane j := rfl
@[simp] theorem modNocGroup_port (g : NocGroup → NocGroup) : (s.modNocGroup i g).port j = s.port j := rfl
@[simp] theorem modNocGroup_slot (g : NocGroup → NocGroup) : (s.modNocGroup i g).slot j = s.slot j := rfl
@[simp] theorem modNocGroup_pers (g : NocGroup → NocGroup) : (s.modNocGroup i g).pers j = s.pers j := rfl
@[simp] theorem modNocGroup_engine (g : NocGroup → NocGroup) : (s.modNocGroup i g).engine j = s.engine j := rfl
@[simp] theorem modNocGroup_ctx (g : NocGroup → NocGroup) : (s.modNocGroup i g).ctx j = s.ctx j := rfl
@[simp] theorem modNocGroup_cluster (g : NocGroup → NocGroup) : (s.modNocGroup i g).cluster j = s.cluster j := rfl
@[simp] theorem modNocGroup_pin (g : NocGroup → NocGroup) : (s.modNocGroup i g).pin j = s.pin j := rfl
@[simp] theorem modNocGroup_queue (g : NocGroup → NocGroup) : (s.modNocGroup i g).queue j = s.queue j := rfl
@[simp] theorem modNocGroup_page (g : NocGroup → NocGroup) : (s.modNocGroup i g).page j = s.page j := rfl
@[simp] theorem modNocGroup_qgroup (g : NocGroup → NocGroup) : (s.modNocGroup i g).qgroup j = s.qgroup j := rfl
@[simp] theorem modNocGroup_pier (g : NocGroup → NocGroup) : (s.modNocGroup i g).pier j = s.pier j := rfl
@[simp] theorem modNocGroup_monitor (g : NocGroup → NocGroup) : (s.modNocGroup i g).monitor j = s.monitor j := rfl
@[simp] theorem modNocGroup_bank (g : NocGroup → NocGroup) : (s.modNocGroup i g).bank j = s.bank j := rfl
@[simp] theorem modNocGroup_sgroup (g : NocGroup → NocGroup) : (s.modNocGroup i g).sgroup j = s.sgroup j := rfl
@[simp] theorem modNocGroup_chan (g : NocGroup → NocGroup) : (s.modNocGroup i g).chan j = s.chan j := rfl
@[simp] theorem modNocGroup_sub (g : NocGroup → NocGroup) : (s.modNocGroup i g).sub j = s.sub j := rfl
@[simp] theorem modNocGroup_supply (g : NocGroup → NocGroup) : (s.modNocGroup i g).supply j = s.supply j := rfl
@[simp] theorem modNocGroup_mailbox (g : NocGroup → NocGroup) : (s.modNocGroup i g).mailbox j = s.mailbox j := rfl
@[simp] theorem modNocGroup_route (g : NocGroup → NocGroup) : (s.modNocGroup i g).route j = s.route j := rfl

/-! ### modMonitor -/

theorem modMonitor_monitor (g : Monitor → Monitor) : (s.modMonitor i g).monitor j = if j = i then g (s.monitor i) else s.monitor j := by
  simp [State.modMonitor, State.monitor, tget_tmod]
@[simp] theorem modMonitor_monitor_self (g : Monitor → Monitor) : (s.modMonitor i g).monitor i = g (s.monitor i) := by simp [modMonitor_monitor]
theorem modMonitor_monitor_ne (g : Monitor → Monitor) (h : j ≠ i) : (s.modMonitor i g).monitor j = s.monitor j := by simp [modMonitor_monitor, h]
@[simp] theorem modMonitor_field_dev (g : Monitor → Monitor) : (s.modMonitor i g).dev = s.dev := rfl
@[simp] theorem modMonitor_field_clk (g : Monitor → Monitor) : (s.modMonitor i g).clk = s.clk := rfl
@[simp] theorem modMonitor_field_gov (g : Monitor → Monitor) : (s.modMonitor i g).gov = s.gov := rfl
@[simp] theorem modMonitor_field_tim (g : Monitor → Monitor) : (s.modMonitor i g).tim = s.tim := rfl
@[simp] theorem modMonitor_field_sor (g : Monitor → Monitor) : (s.modMonitor i g).sor = s.sor := rfl
@[simp] theorem modMonitor_field_mbx (g : Monitor → Monitor) : (s.modMonitor i g).mbx = s.mbx := rfl
@[simp] theorem modMonitor_field_evt (g : Monitor → Monitor) : (s.modMonitor i g).evt = s.evt := rfl
@[simp] theorem modMonitor_field_lan (g : Monitor → Monitor) : (s.modMonitor i g).lan = s.lan := rfl
@[simp] theorem modMonitor_field_fab (g : Monitor → Monitor) : (s.modMonitor i g).fab = s.fab := rfl
@[simp] theorem modMonitor_field_spn (g : Monitor → Monitor) : (s.modMonitor i g).spn = s.spn := rfl
@[simp] theorem modMonitor_field_boot (g : Monitor → Monitor) : (s.modMonitor i g).boot = s.boot := rfl
@[simp] theorem modMonitor_field_eng (g : Monitor → Monitor) : (s.modMonitor i g).eng = s.eng := rfl
@[simp] theorem modMonitor_field_qm (g : Monitor → Monitor) : (s.modMonitor i g).qm = s.qm := rfl
@[simp] theorem modMonitor_field_spd (g : Monitor → Monitor) : (s.modMonitor i g).spd = s.spd := rfl
@[simp] theorem modMonitor_field_ddr (g : Monitor → Monitor) : (s.modMonitor i g).ddr = s.ddr := rfl
@[simp] theorem modMonitor_field_sec (g : Monitor → Monitor) : (s.modMonitor i g).sec = s.sec := rfl
@[simp] theorem modMonitor_field_fuse (g : Monitor → Monitor) : (s.modMonitor i g).fuse = s.fuse := rfl
@[simp] theorem modMonitor_field_answers (g : Monitor → Monitor) : (s.modMonitor i g).answers = s.answers := rfl
@[simp] theorem modMonitor_field_told (g : Monitor → Monitor) : (s.modMonitor i g).told = s.told := rfl
@[simp] theorem modMonitor_field_free (g : Monitor → Monitor) : (s.modMonitor i g).free = s.free := rfl
@[simp] theorem modMonitor_field_pending (g : Monitor → Monitor) : (s.modMonitor i g).pending = s.pending := rfl
@[simp] theorem modMonitor_tile (g : Monitor → Monitor) : (s.modMonitor i g).tile j = s.tile j := rfl
@[simp] theorem modMonitor_pll (g : Monitor → Monitor) : (s.modMonitor i g).pll j = s.pll j := rfl
@[simp] theorem modMonitor_bmem (g : Monitor → Monitor) : (s.modMonitor i g).bmem j = s.bmem j := rfl
@[simp] theorem modMonitor_quad (g : Monitor → Monitor) : (s.modMonitor i g).quad j = s.quad j := rfl
@[simp] theorem modMonitor_lane (g : Monitor → Monitor) : (s.modMonitor i g).lane j = s.lane j := rfl
@[simp] theorem modMonitor_port (g : Monitor → Monitor) : (s.modMonitor i g).port j = s.port j := rfl
@[simp] theorem modMonitor_slot (g : Monitor → Monitor) : (s.modMonitor i g).slot j = s.slot j := rfl
@[simp] theorem modMonitor_pers (g : Monitor → Monitor) : (s.modMonitor i g).pers j = s.pers j := rfl
@[simp] theorem modMonitor_engine (g : Monitor → Monitor) : (s.modMonitor i g).engine j = s.engine j := rfl
@[simp] theorem modMonitor_ctx (g : Monitor → Monitor) : (s.modMonitor i g).ctx j = s.ctx j := rfl
@[simp] theorem modMonitor_cluster (g : Monitor → Monitor) : (s.modMonitor i g).cluster j = s.cluster j := rfl
@[simp] theorem modMonitor_pin (g : Monitor → Monitor) : (s.modMonitor i g).pin j = s.pin j := rfl
@[simp] theorem modMonitor_queue (g : Monitor → Monitor) : (s.modMonitor i g).queue j = s.queue j := rfl
@[simp] theorem modMonitor_page (g : Monitor → Monitor) : (s.modMonitor i g).page j = s.page j := rfl
@[simp] theorem modMonitor_qgroup (g : Monitor → Monitor) : (s.modMonitor i g).qgroup j = s.qgroup j := rfl
@[simp] theorem modMonitor_pier (g : Monitor → Monitor) : (s.modMonitor i g).pier j = s.pier j := rfl
@[simp] theorem modMonitor_nocGroup (g : Monitor → Monitor) : (s.modMonitor i g).nocGroup j = s.nocGroup j := rfl
@[simp] theorem modMonitor_bank (g : Monitor → Monitor) : (s.modMonitor i g).bank j = s.bank j := rfl
@[simp] theorem modMonitor_sgroup (g : Monitor → Monitor) : (s.modMonitor i g).sgroup j = s.sgroup j := rfl
@[simp] theorem modMonitor_chan (g : Monitor → Monitor) : (s.modMonitor i g).chan j = s.chan j := rfl
@[simp] theorem modMonitor_sub (g : Monitor → Monitor) : (s.modMonitor i g).sub j = s.sub j := rfl
@[simp] theorem modMonitor_supply (g : Monitor → Monitor) : (s.modMonitor i g).supply j = s.supply j := rfl
@[simp] theorem modMonitor_mailbox (g : Monitor → Monitor) : (s.modMonitor i g).mailbox j = s.mailbox j := rfl
@[simp] theorem modMonitor_route (g : Monitor → Monitor) : (s.modMonitor i g).route j = s.route j := rfl

/-! ### modBank -/

theorem modBank_bank (g : Bank → Bank) : (s.modBank i g).bank j = if j = i then g (s.bank i) else s.bank j := by
  simp [State.modBank, State.bank, tget_tmod]
@[simp] theorem modBank_bank_self (g : Bank → Bank) : (s.modBank i g).bank i = g (s.bank i) := by simp [modBank_bank]
theorem modBank_bank_ne (g : Bank → Bank) (h : j ≠ i) : (s.modBank i g).bank j = s.bank j := by simp [modBank_bank, h]
@[simp] theorem modBank_field_dev (g : Bank → Bank) : (s.modBank i g).dev = s.dev := rfl
@[simp] theorem modBank_field_clk (g : Bank → Bank) : (s.modBank i g).clk = s.clk := rfl
@[simp] theorem modBank_field_gov (g : Bank → Bank) : (s.modBank i g).gov = s.gov := rfl
@[simp] theorem modBank_field_tim (g : Bank → Bank) : (s.modBank i g).tim = s.tim := rfl
@[simp] theorem modBank_field_sor (g : Bank → Bank) : (s.modBank i g).sor = s.sor := rfl
@[simp] theorem modBank_field_mbx (g : Bank → Bank) : (s.modBank i g).mbx = s.mbx := rfl
@[simp] theorem modBank_field_evt (g : Bank → Bank) : (s.modBank i g).evt = s.evt := rfl
@[simp] theorem modBank_field_lan (g : Bank → Bank) : (s.modBank i g).lan = s.lan := rfl
@[simp] theorem modBank_field_fab (g : Bank → Bank) : (s.modBank i g).fab = s.fab := rfl
@[simp] theorem modBank_field_spn (g : Bank → Bank) : (s.modBank i g).spn = s.spn := rfl
@[simp] theorem modBank_field_boot (g : Bank → Bank) : (s.modBank i g).boot = s.boot := rfl
@[simp] theorem modBank_field_eng (g : Bank → Bank) : (s.modBank i g).eng = s.eng := rfl
@[simp] theorem modBank_field_qm (g : Bank → Bank) : (s.modBank i g).qm = s.qm := rfl
@[simp] theorem modBank_field_noc (g : Bank → Bank) : (s.modBank i g).noc = s.noc := rfl
@[simp] theorem modBank_field_ddr (g : Bank → Bank) : (s.modBank i g).ddr = s.ddr := rfl
@[simp] theorem modBank_field_sec (g : Bank → Bank) : (s.modBank i g).sec = s.sec := rfl
@[simp] theorem modBank_field_fuse (g : Bank → Bank) : (s.modBank i g).fuse = s.fuse := rfl
@[simp] theorem modBank_field_answers (g : Bank → Bank) : (s.modBank i g).answers = s.answers := rfl
@[simp] theorem modBank_field_told (g : Bank → Bank) : (s.modBank i g).told = s.told := rfl
@[simp] theorem modBank_field_free (g : Bank → Bank) : (s.modBank i g).free = s.free := rfl
@[simp] theorem modBank_field_pending (g : Bank → Bank) : (s.modBank i g).pending = s.pending := rfl
@[simp] theorem modBank_tile (g : Bank → Bank) : (s.modBank i g).tile j = s.tile j := rfl
@[simp] theorem modBank_pll (g : Bank → Bank) : (s.modBank i g).pll j = s.pll j := rfl
@[simp] theorem modBank_bmem (g : Bank → Bank) : (s.modBank i g).bmem j = s.bmem j := rfl
@[simp] theorem modBank_quad (g : Bank → Bank) : (s.modBank i g).quad j = s.quad j := rfl
@[simp] theorem modBank_lane (g : Bank → Bank) : (s.modBank i g).lane j = s.lane j := rfl
@[simp] theorem modBank_port (g : Bank → Bank) : (s.modBank i g).port j = s.port j := rfl
@[simp] theorem modBank_slot (g : Bank → Bank) : (s.modBank i g).slot j = s.slot j := rfl
@[simp] theorem modBank_pers (g : Bank → Bank) : (s.modBank i g).pers j = s.pers j := rfl
@[simp] theorem modBank_engine (g : Bank → Bank) : (s.modBank i g).engine j = s.engine j := rfl
@[simp] theorem modBank_ctx (g : Bank → Bank) : (s.modBank i g).ctx j = s.ctx j := rfl
@[simp] theorem modBank_cluster (g : Bank → Bank) : (s.modBank i g).cluster j = s.cluster j := rfl
@[simp] theorem modBank_pin (g : Bank → Bank) : (s.modBank i g).pin j = s.pin j := rfl
@[simp] theorem modBank_queue (g : Bank → Bank) : (s.modBank i g).queue j = s.queue j := rfl
@[simp] theorem modBank_page (g : Bank → Bank) : (s.modBank i g).page j = s.page j := rfl
@[simp] theorem modBank_qgroup (g : Bank → Bank) : (s.modBank i g).qgroup j = s.qgroup j := rfl
@[simp] theorem modBank_pier (g : Bank → Bank) : (s.modBank i g).pier j = s.pier j := rfl
@[simp] theorem modBank_nocGroup (g : Bank → Bank) : (s.modBank i g).nocGroup j = s.nocGroup j := rfl
@[simp] theorem modBank_monitor (g : Bank → Bank) : (s.modBank i g).monitor j = s.monitor j := rfl
@[simp] theorem modBank_sgroup (g : Bank → Bank) : (s.modBank i g).sgroup j = s.sgroup j := rfl
@[simp] theorem modBank_chan (g : Bank → Bank) : (s.modBank i g).chan j = s.chan j := rfl
@[simp] theorem modBank_sub (g : Bank → Bank) : (s.modBank i g).sub j = s.sub j := rfl
@[simp] theorem modBank_supply (g : Bank → Bank) : (s.modBank i g).supply j = s.supply j := rfl
@[simp] theorem modBank_mailbox (g : Bank → Bank) : (s.modBank i g).mailbox j = s.mailbox j := rfl
@[simp] theorem modBank_route (g : Bank → Bank) : (s.modBank i g).route j = s.route j := rfl

/-! ### modSgroup -/

theorem modSgroup_sgroup (g : SGroup → SGroup) : (s.modSgroup i g).sgroup j = if j = i then g (s.sgroup i) else s.sgroup j := by
  simp [State.modSgroup, State.sgroup, tget_tmod]
@[simp] theorem modSgroup_sgroup_self (g : SGroup → SGroup) : (s.modSgroup i g).sgroup i = g (s.sgroup i) := by simp [modSgroup_sgroup]
theorem modSgroup_sgroup_ne (g : SGroup → SGroup) (h : j ≠ i) : (s.modSgroup i g).sgroup j = s.sgroup j := by simp [modSgroup_sgroup, h]
@[simp] theorem modSgroup_field_dev (g : SGroup → SGroup) : (s.modSgroup i g).dev = s.dev := rfl
@[simp] theorem modSgroup_field_clk (g : SGroup → SGroup) : (s.modSgroup i g).clk = s.clk := rfl
@[simp] theorem modSgroup_field_gov (g : SGroup → SGroup) : (s.modSgroup i g).gov = s.gov := rfl
@[simp] theorem modSgroup_field_tim (g : SGroup → SGroup) : (s.modSgroup i g).tim = s.tim := rfl
@[simp] theorem modSgroup_field_sor (g : SGroup → SGroup) : (s.modSgroup i g).sor = s.sor := rfl
@[simp] theorem modSgroup_field_mbx (g : SGroup → SGroup) : (s.modSgroup i g).mbx = s.mbx := rfl
@[simp] theorem modSgroup_field_evt (g : SGroup → SGroup) : (s.modSgroup i g).evt = s.evt := rfl
@[simp] theorem modSgroup_field_lan (g : SGroup → SGroup) : (s.modSgroup i g).lan = s.lan := rfl
@[simp] theorem modSgroup_field_fab (g : SGroup → SGroup) : (s.modSgroup i g).fab = s.fab := rfl
@[simp] theorem modSgroup_field_spn (g : SGroup → SGroup) : (s.modSgroup i g).spn = s.spn := rfl
@[simp] theorem modSgroup_field_boot (g : SGroup → SGroup) : (s.modSgroup i g).boot = s.boot := rfl
@[simp] theorem modSgroup_field_eng (g : SGroup → SGroup) : (s.modSgroup i g).eng = s.eng := rfl
@[simp] theorem modSgroup_field_qm (g : SGroup → SGroup) : (s.modSgroup i g).qm = s.qm := rfl
@[simp] theorem modSgroup_field_noc (g : SGroup → SGroup) : (s.modSgroup i g).noc = s.noc := rfl
@[simp] theorem modSgroup_field_ddr (g : SGroup → SGroup) : (s.modSgroup i g).ddr = s.ddr := rfl
@[simp] theorem modSgroup_field_sec (g : SGroup → SGroup) : (s.modSgroup i g).sec = s.sec := rfl
@[simp] theorem modSgroup_field_fuse (g : SGroup → SGroup) : (s.modSgroup i g).fuse = s.fuse := rfl
@[simp] theorem modSgroup_field_answers (g : SGroup → SGroup) : (s.modSgroup i g).answers = s.answers := rfl
@[simp] theorem modSgroup_field_told (g : SGroup → SGroup) : (s.modSgroup i g).told = s.told := rfl
@[simp] theorem modSgroup_field_free (g : SGroup → SGroup) : (s.modSgroup i g).free = s.free := rfl
@[simp] theorem modSgroup_field_pending (g : SGroup → SGroup) : (s.modSgroup i g).pending = s.pending := rfl
@[simp] theorem modSgroup_tile (g : SGroup → SGroup) : (s.modSgroup i g).tile j = s.tile j := rfl
@[simp] theorem modSgroup_pll (g : SGroup → SGroup) : (s.modSgroup i g).pll j = s.pll j := rfl
@[simp] theorem modSgroup_bmem (g : SGroup → SGroup) : (s.modSgroup i g).bmem j = s.bmem j := rfl
@[simp] theorem modSgroup_quad (g : SGroup → SGroup) : (s.modSgroup i g).quad j = s.quad j := rfl
@[simp] theorem modSgroup_lane (g : SGroup → SGroup) : (s.modSgroup i g).lane j = s.lane j := rfl
@[simp] theorem modSgroup_port (g : SGroup → SGroup) : (s.modSgroup i g).port j = s.port j := rfl
@[simp] theorem modSgroup_slot (g : SGroup → SGroup) : (s.modSgroup i g).slot j = s.slot j := rfl
@[simp] theorem modSgroup_pers (g : SGroup → SGroup) : (s.modSgroup i g).pers j = s.pers j := rfl
@[simp] theorem modSgroup_engine (g : SGroup → SGroup) : (s.modSgroup i g).engine j = s.engine j := rfl
@[simp] theorem modSgroup_ctx (g : SGroup → SGroup) : (s.modSgroup i g).ctx j = s.ctx j := rfl
@[simp] theorem modSgroup_cluster (g : SGroup → SGroup) : (s.modSgroup i g).cluster j = s.cluster j := rfl
@[simp] theorem modSgroup_pin (g : SGroup → SGroup) : (s.modSgroup i g).pin j = s.pin j := rfl
@[simp] theorem modSgroup_queue (g : SGroup → SGroup) : (s.modSgroup i g).queue j = s.queue j := rfl
@[simp] theorem modSgroup_page (g : SGroup → SGroup) : (s.modSgroup i g).page j = s.page j := rfl
@[simp] theorem modSgroup_qgroup (g : SGroup → SGroup) : (s.modSgroup i g).qgroup j = s.qgroup j := rfl
@[simp] theorem modSgroup_pier (g : SGroup → SGroup) : (s.modSgroup i g).pier j = s.pier j := rfl
@[simp] theorem modSgroup_nocGroup (g : SGroup → SGroup) : (s.modSgroup i g).nocGroup j = s.nocGroup j := rfl
@[simp] theorem modSgroup_monitor (g : SGroup → SGroup) : (s.modSgroup i g).monitor j = s.monitor j := rfl
@[simp] theorem modSgroup_bank (g : SGroup → SGroup) : (s.modSgroup i g).bank j = s.bank j := rfl
@[simp] theorem modSgroup_chan (g : SGroup → SGroup) : (s.modSgroup i g).chan j = s.chan j := rfl
@[simp] theorem modSgroup_sub (g : SGroup → SGroup) : (s.modSgroup i g).sub j = s.sub j := rfl
@[simp] theorem modSgroup_supply (g : SGroup → SGroup) : (s.modSgroup i g).supply j = s.supply j := rfl
@[simp] theorem modSgroup_mailbox (g : SGroup → SGroup) : (s.modSgroup i g).mailbox j = s.mailbox j := rfl
@[simp] theorem modSgroup_route (g : SGroup → SGroup) : (s.modSgroup i g).route j = s.route j := rfl

/-! ### modChan -/

theorem modChan_chan (g : Chan → Chan) : (s.modChan i g).chan j = if j = i then g (s.chan i) else s.chan j := by
  simp [State.modChan, State.chan, tget_tmod]
@[simp] theorem modChan_chan_self (g : Chan → Chan) : (s.modChan i g).chan i = g (s.chan i) := by simp [modChan_chan]
theorem modChan_chan_ne (g : Chan → Chan) (h : j ≠ i) : (s.modChan i g).chan j = s.chan j := by simp [modChan_chan, h]
@[simp] theorem modChan_field_dev (g : Chan → Chan) : (s.modChan i g).dev = s.dev := rfl
@[simp] theorem modChan_field_clk (g : Chan → Chan) : (s.modChan i g).clk = s.clk := rfl
@[simp] theorem modChan_field_gov (g : Chan → Chan) : (s.modChan i g).gov = s.gov := rfl
@[simp] theorem modChan_field_tim (g : Chan → Chan) : (s.modChan i g).tim = s.tim := rfl
@[simp] theorem modChan_field_sor (g : Chan → Chan) : (s.modChan i g).sor = s.sor := rfl
@[simp] theorem modChan_field_mbx (g : Chan → Chan) : (s.modChan i g).mbx = s.mbx := rfl
@[simp] theorem modChan_field_evt (g : Chan → Chan) : (s.modChan i g).evt = s.evt := rfl
@[simp] theorem modChan_field_lan (g : Chan → Chan) : (s.modChan i g).lan = s.lan := rfl
@[simp] theorem modChan_field_fab (g : Chan → Chan) : (s.modChan i g).fab = s.fab := rfl
@[simp] theorem modChan_field_spn (g : Chan → Chan) : (s.modChan i g).spn = s.spn := rfl
@[simp] theorem modChan_field_boot (g : Chan → Chan) : (s.modChan i g).boot = s.boot := rfl
@[simp] theorem modChan_field_eng (g : Chan → Chan) : (s.modChan i g).eng = s.eng := rfl
@[simp] theorem modChan_field_qm (g : Chan → Chan) : (s.modChan i g).qm = s.qm := rfl
@[simp] theorem modChan_field_noc (g : Chan → Chan) : (s.modChan i g).noc = s.noc := rfl
@[simp] theorem modChan_field_spd (g : Chan → Chan) : (s.modChan i g).spd = s.spd := rfl
@[simp] theorem modChan_field_sec (g : Chan → Chan) : (s.modChan i g).sec = s.sec := rfl
@[simp] theorem modChan_field_fuse (g : Chan → Chan) : (s.modChan i g).fuse = s.fuse := rfl
@[simp] theorem modChan_field_answers (g : Chan → Chan) : (s.modChan i g).answers = s.answers := rfl
@[simp] theorem modChan_field_told (g : Chan → Chan) : (s.modChan i g).told = s.told := rfl
@[simp] theorem modChan_field_free (g : Chan → Chan) : (s.modChan i g).free = s.free := rfl
@[simp] theorem modChan_field_pending (g : Chan → Chan) : (s.modChan i g).pending = s.pending := rfl
@[simp] theorem modChan_tile (g : Chan → Chan) : (s.modChan i g).tile j = s.tile j := rfl
@[simp] theorem modChan_pll (g : Chan → Chan) : (s.modChan i g).pll j = s.pll j := rfl
@[simp] theorem modChan_bmem (g : Chan → Chan) : (s.modChan i g).bmem j = s.bmem j := rfl
@[simp] theorem modChan_quad (g : Chan → Chan) : (s.modChan i g).quad j = s.quad j := rfl
@[simp] theorem modChan_lane (g : Chan → Chan) : (s.modChan i g).lane j = s.lane j := rfl
@[simp] theorem modChan_port (g : Chan → Chan) : (s.modChan i g).port j = s.port j := rfl
@[simp] theorem modChan_slot (g : Chan → Chan) : (s.modChan i g).slot j = s.slot j := rfl
@[simp] theorem modChan_pers (g : Chan → Chan) : (s.modChan i g).pers j = s.pers j := rfl
@[simp] theorem modChan_engine (g : Chan → Chan) : (s.modChan i g).engine j = s.engine j := rfl
@[simp] theorem modChan_ctx (g : Chan → Chan) : (s.modChan i g).ctx j = s.ctx j := rfl
@[simp] theorem modChan_cluster (g : Chan → Chan) : (s.modChan i g).cluster j = s.cluster j := rfl
@[simp] theorem modChan_pin (g : Chan → Chan) : (s.modChan i g).pin j = s.pin j := rfl
@[simp] theorem modChan_queue (g : Chan → Chan) : (s.modChan i g).queue j = s.queue j := rfl
@[simp] theorem modChan_page (g : Chan → Chan) : (s.modChan i g).page j = s.page j := rfl
@[simp] theorem modChan_qgroup (g : Chan → Chan) : (s.modChan i g).qgroup j = s.qgroup j := rfl
@[simp] theorem modChan_pier (g : Chan → Chan) : (s.modChan i g).pier j = s.pier j := rfl
@[simp] theorem modChan_nocGroup (g : Chan → Chan) : (s.modChan i g).nocGroup j = s.nocGroup j := rfl
@[simp] theorem modChan_monitor (g : Chan → Chan) : (s.modChan i g).monitor j = s.monitor j := rfl
@[simp] theorem modChan_bank (g : Chan → Chan) : (s.modChan i g).bank j = s.bank j := rfl
@[simp] theorem modChan_sgroup (g : Chan → Chan) : (s.modChan i g).sgroup j = s.sgroup j := rfl
@[simp] theorem modChan_sub (g : Chan → Chan) : (s.modChan i g).sub j = s.sub j := rfl
@[simp] theorem modChan_supply (g : Chan → Chan) : (s.modChan i g).supply j = s.supply j := rfl
@[simp] theorem modChan_mailbox (g : Chan → Chan) : (s.modChan i g).mailbox j = s.mailbox j := rfl
@[simp] theorem modChan_route (g : Chan → Chan) : (s.modChan i g).route j = s.route j := rfl

/-! ### modSub -/

theorem modSub_sub (g : SubCh → SubCh) : (s.modSub i g).sub j = if j = i then g (s.sub i) else s.sub j := by
  simp [State.modSub, State.sub, tget_tmod]
@[simp] theorem modSub_sub_self (g : SubCh → SubCh) : (s.modSub i g).sub i = g (s.sub i) := by simp [modSub_sub]
theorem modSub_sub_ne (g : SubCh → SubCh) (h : j ≠ i) : (s.modSub i g).sub j = s.sub j := by simp [modSub_sub, h]
@[simp] theorem modSub_field_dev (g : SubCh → SubCh) : (s.modSub i g).dev = s.dev := rfl
@[simp] theorem modSub_field_clk (g : SubCh → SubCh) : (s.modSub i g).clk = s.clk := rfl
@[simp] theorem modSub_field_gov (g : SubCh → SubCh) : (s.modSub i g).gov = s.gov := rfl
@[simp] theorem modSub_field_tim (g : SubCh → SubCh) : (s.modSub i g).tim = s.tim := rfl
@[simp] theorem modSub_field_sor (g : SubCh → SubCh) : (s.modSub i g).sor = s.sor := rfl
@[simp] theorem modSub_field_mbx (g : SubCh → SubCh) : (s.modSub i g).mbx = s.mbx := rfl
@[simp] theorem modSub_field_evt (g : SubCh → SubCh) : (s.modSub i g).evt = s.evt := rfl
@[simp] theorem modSub_field_lan (g : SubCh → SubCh) : (s.modSub i g).lan = s.lan := rfl
@[simp] theorem modSub_field_fab (g : SubCh → SubCh) : (s.modSub i g).fab = s.fab := rfl
@[simp] theorem modSub_field_spn (g : SubCh → SubCh) : (s.modSub i g).spn = s.spn := rfl
@[simp] theorem modSub_field_boot (g : SubCh → SubCh) : (s.modSub i g).boot = s.boot := rfl
@[simp] theorem modSub_field_eng (g : SubCh → SubCh) : (s.modSub i g).eng = s.eng := rfl
@[simp] theorem modSub_field_qm (g : SubCh → SubCh) : (s.modSub i g).qm = s.qm := rfl
@[simp] theorem modSub_field_noc (g : SubCh → SubCh) : (s.modSub i g).noc = s.noc := rfl
@[simp] theorem modSub_field_spd (g : SubCh → SubCh) : (s.modSub i g).spd = s.spd := rfl
@[simp] theorem modSub_field_sec (g : SubCh → SubCh) : (s.modSub i g).sec = s.sec := rfl
@[simp] theorem modSub_field_fuse (g : SubCh → SubCh) : (s.modSub i g).fuse = s.fuse := rfl
@[simp] theorem modSub_field_answers (g : SubCh → SubCh) : (s.modSub i g).answers = s.answers := rfl
@[simp] theorem modSub_field_told (g : SubCh → SubCh) : (s.modSub i g).told = s.told := rfl
@[simp] theorem modSub_field_free (g : SubCh → SubCh) : (s.modSub i g).free = s.free := rfl
@[simp] theorem modSub_field_pending (g : SubCh → SubCh) : (s.modSub i g).pending = s.pending := rfl
@[simp] theorem modSub_tile (g : SubCh → SubCh) : (s.modSub i g).tile j = s.tile j := rfl
@[simp] theorem modSub_pll (g : SubCh → SubCh) : (s.modSub i g).pll j = s.pll j := rfl
@[simp] theorem modSub_bmem (g : SubCh → SubCh) : (s.modSub i g).bmem j = s.bmem j := rfl
@[simp] theorem modSub_quad (g : SubCh → SubCh) : (s.modSub i g).quad j = s.quad j := rfl
@[simp] theorem modSub_lane (g : SubCh → SubCh) : (s.modSub i g).lane j = s.lane j := rfl
@[simp] theorem modSub_port (g : SubCh → SubCh) : (s.modSub i g).port j = s.port j := rfl
@[simp] theorem modSub_slot (g : SubCh → SubCh) : (s.modSub i g).slot j = s.slot j := rfl
@[simp] theorem modSub_pers (g : SubCh → SubCh) : (s.modSub i g).pers j = s.pers j := rfl
@[simp] theorem modSub_engine (g : SubCh → SubCh) : (s.modSub i g).engine j = s.engine j := rfl
@[simp] theorem modSub_ctx (g : SubCh → SubCh) : (s.modSub i g).ctx j = s.ctx j := rfl
@[simp] theorem modSub_cluster (g : SubCh → SubCh) : (s.modSub i g).cluster j = s.cluster j := rfl
@[simp] theorem modSub_pin (g : SubCh → SubCh) : (s.modSub i g).pin j = s.pin j := rfl
@[simp] theorem modSub_queue (g : SubCh → SubCh) : (s.modSub i g).queue j = s.queue j := rfl
@[simp] theorem modSub_page (g : SubCh → SubCh) : (s.modSub i g).page j = s.page j := rfl
@[simp] theorem modSub_qgroup (g : SubCh → SubCh) : (s.modSub i g).qgroup j = s.qgroup j := rfl
@[simp] theorem modSub_pier (g : SubCh → SubCh) : (s.modSub i g).pier j = s.pier j := rfl
@[simp] theorem modSub_nocGroup (g : SubCh → SubCh) : (s.modSub i g).nocGroup j = s.nocGroup j := rfl
@[simp] theorem modSub_monitor (g : SubCh → SubCh) : (s.modSub i g).monitor j = s.monitor j := rfl
@[simp] theorem modSub_bank (g : SubCh → SubCh) : (s.modSub i g).bank j = s.bank j := rfl
@[simp] theorem modSub_sgroup (g : SubCh → SubCh) : (s.modSub i g).sgroup j = s.sgroup j := rfl
@[simp] theorem modSub_chan (g : SubCh → SubCh) : (s.modSub i g).chan j = s.chan j := rfl
@[simp] theorem modSub_supply (g : SubCh → SubCh) : (s.modSub i g).supply j = s.supply j := rfl
@[simp] theorem modSub_mailbox (g : SubCh → SubCh) : (s.modSub i g).mailbox j = s.mailbox j := rfl
@[simp] theorem modSub_route (g : SubCh → SubCh) : (s.modSub i g).route j = s.route j := rfl

/-! ### modSupply -/

theorem modSupply_supply (g : Supply → Supply) : (s.modSupply i g).supply j = if j = i then g (s.supply i) else s.supply j := by
  simp [State.modSupply, State.supply, tget_tmod]
@[simp] theorem modSupply_supply_self (g : Supply → Supply) : (s.modSupply i g).supply i = g (s.supply i) := by simp [modSupply_supply]
theorem modSupply_supply_ne (g : Supply → Supply) (h : j ≠ i) : (s.modSupply i g).supply j = s.supply j := by simp [modSupply_supply, h]
@[simp] theorem modSupply_field_dev (g : Supply → Supply) : (s.modSupply i g).dev = s.dev := rfl
@[simp] theorem modSupply_field_clk (g : Supply → Supply) : (s.modSupply i g).clk = s.clk := rfl
@[simp] theorem modSupply_field_tim (g : Supply → Supply) : (s.modSupply i g).tim = s.tim := rfl
@[simp] theorem modSupply_field_sor (g : Supply → Supply) : (s.modSupply i g).sor = s.sor := rfl
@[simp] theorem modSupply_field_mbx (g : Supply → Supply) : (s.modSupply i g).mbx = s.mbx := rfl
@[simp] theorem modSupply_field_evt (g : Supply → Supply) : (s.modSupply i g).evt = s.evt := rfl
@[simp] theorem modSupply_field_lan (g : Supply → Supply) : (s.modSupply i g).lan = s.lan := rfl
@[simp] theorem modSupply_field_fab (g : Supply → Supply) : (s.modSupply i g).fab = s.fab := rfl
@[simp] theorem modSupply_field_spn (g : Supply → Supply) : (s.modSupply i g).spn = s.spn := rfl
@[simp] theorem modSupply_field_boot (g : Supply → Supply) : (s.modSupply i g).boot = s.boot := rfl
@[simp] theorem modSupply_field_eng (g : Supply → Supply) : (s.modSupply i g).eng = s.eng := rfl
@[simp] theorem modSupply_field_qm (g : Supply → Supply) : (s.modSupply i g).qm = s.qm := rfl
@[simp] theorem modSupply_field_noc (g : Supply → Supply) : (s.modSupply i g).noc = s.noc := rfl
@[simp] theorem modSupply_field_spd (g : Supply → Supply) : (s.modSupply i g).spd = s.spd := rfl
@[simp] theorem modSupply_field_ddr (g : Supply → Supply) : (s.modSupply i g).ddr = s.ddr := rfl
@[simp] theorem modSupply_field_sec (g : Supply → Supply) : (s.modSupply i g).sec = s.sec := rfl
@[simp] theorem modSupply_field_fuse (g : Supply → Supply) : (s.modSupply i g).fuse = s.fuse := rfl
@[simp] theorem modSupply_field_answers (g : Supply → Supply) : (s.modSupply i g).answers = s.answers := rfl
@[simp] theorem modSupply_field_told (g : Supply → Supply) : (s.modSupply i g).told = s.told := rfl
@[simp] theorem modSupply_field_free (g : Supply → Supply) : (s.modSupply i g).free = s.free := rfl
@[simp] theorem modSupply_field_pending (g : Supply → Supply) : (s.modSupply i g).pending = s.pending := rfl
@[simp] theorem modSupply_tile (g : Supply → Supply) : (s.modSupply i g).tile j = s.tile j := rfl
@[simp] theorem modSupply_pll (g : Supply → Supply) : (s.modSupply i g).pll j = s.pll j := rfl
@[simp] theorem modSupply_bmem (g : Supply → Supply) : (s.modSupply i g).bmem j = s.bmem j := rfl
@[simp] theorem modSupply_quad (g : Supply → Supply) : (s.modSupply i g).quad j = s.quad j := rfl
@[simp] theorem modSupply_lane (g : Supply → Supply) : (s.modSupply i g).lane j = s.lane j := rfl
@[simp] theorem modSupply_port (g : Supply → Supply) : (s.modSupply i g).port j = s.port j := rfl
@[simp] theorem modSupply_slot (g : Supply → Supply) : (s.modSupply i g).slot j = s.slot j := rfl
@[simp] theorem modSupply_pers (g : Supply → Supply) : (s.modSupply i g).pers j = s.pers j := rfl
@[simp] theorem modSupply_engine (g : Supply → Supply) : (s.modSupply i g).engine j = s.engine j := rfl
@[simp] theorem modSupply_ctx (g : Supply → Supply) : (s.modSupply i g).ctx j = s.ctx j := rfl
@[simp] theorem modSupply_cluster (g : Supply → Supply) : (s.modSupply i g).cluster j = s.cluster j := rfl
@[simp] theorem modSupply_pin (g : Supply → Supply) : (s.modSupply i g).pin j = s.pin j := rfl
@[simp] theorem modSupply_queue (g : Supply → Supply) : (s.modSupply i g).queue j = s.queue j := rfl
@[simp] theorem modSupply_page (g : Supply → Supply) : (s.modSupply i g).page j = s.page j := rfl
@[simp] theorem modSupply_qgroup (g : Supply → Supply) : (s.modSupply i g).qgroup j = s.qgroup j := rfl
@[simp] theorem modSupply_pier (g : Supply → Supply) : (s.modSupply i g).pier j = s.pier j := rfl
@[simp] theorem modSupply_nocGroup (g : Supply → Supply) : (s.modSupply i g).nocGroup j = s.nocGroup j := rfl
@[simp] theorem modSupply_monitor (g : Supply → Supply) : (s.modSupply i g).monitor j = s.monitor j := rfl
@[simp] theorem modSupply_bank (g : Supply → Supply) : (s.modSupply i g).bank j = s.bank j := rfl
@[simp] theorem modSupply_sgroup (g : Supply → Supply) : (s.modSupply i g).sgroup j = s.sgroup j := rfl
@[simp] theorem modSupply_chan (g : Supply → Supply) : (s.modSupply i g).chan j = s.chan j := rfl
@[simp] theorem modSupply_sub (g : Supply → Supply) : (s.modSupply i g).sub j = s.sub j := rfl
@[simp] theorem modSupply_mailbox (g : Supply → Supply) : (s.modSupply i g).mailbox j = s.mailbox j := rfl
@[simp] theorem modSupply_route (g : Supply → Supply) : (s.modSupply i g).route j = s.route j := rfl

/-! ### modMailbox -/

theorem modMailbox_mailbox (g : Mailbox → Mailbox) : (s.modMailbox i g).mailbox j = if j = i then g (s.mailbox i) else s.mailbox j := by
  simp [State.modMailbox, State.mailbox, tget_tmod]
@[simp] theorem modMailbox_mailbox_self (g : Mailbox → Mailbox) : (s.modMailbox i g).mailbox i = g (s.mailbox i) := by simp [modMailbox_mailbox]
theorem modMailbox_mailbox_ne (g : Mailbox → Mailbox) (h : j ≠ i) : (s.modMailbox i g).mailbox j = s.mailbox j := by simp [modMailbox_mailbox, h]
@[simp] theorem modMailbox_field_dev (g : Mailbox → Mailbox) : (s.modMailbox i g).dev = s.dev := rfl
@[simp] theorem modMailbox_field_clk (g : Mailbox → Mailbox) : (s.modMailbox i g).clk = s.clk := rfl
@[simp] theorem modMailbox_field_gov (g : Mailbox → Mailbox) : (s.modMailbox i g).gov = s.gov := rfl
@[simp] theorem modMailbox_field_tim (g : Mailbox → Mailbox) : (s.modMailbox i g).tim = s.tim := rfl
@[simp] theorem modMailbox_field_sor (g : Mailbox → Mailbox) : (s.modMailbox i g).sor = s.sor := rfl
@[simp] theorem modMailbox_field_evt (g : Mailbox → Mailbox) : (s.modMailbox i g).evt = s.evt := rfl
@[simp] theorem modMailbox_field_lan (g : Mailbox → Mailbox) : (s.modMailbox i g).lan = s.lan := rfl
@[simp] theorem modMailbox_field_fab (g : Mailbox → Mailbox) : (s.modMailbox i g).fab = s.fab := rfl
@[simp] theorem modMailbox_field_spn (g : Mailbox → Mailbox) : (s.modMailbox i g).spn = s.spn := rfl
@[simp] theorem modMailbox_field_boot (g : Mailbox → Mailbox) : (s.modMailbox i g).boot = s.boot := rfl
@[simp] theorem modMailbox_field_eng (g : Mailbox → Mailbox) : (s.modMailbox i g).eng = s.eng := rfl
@[simp] theorem modMailbox_field_qm (g : Mailbox → Mailbox) : (s.modMailbox i g).qm = s.qm := rfl
@[simp] theorem modMailbox_field_noc (g : Mailbox → Mailbox) : (s.modMailbox i g).noc = s.noc := rfl
@[simp] theorem modMailbox_field_spd (g : Mailbox → Mailbox) : (s.modMailbox i g).spd = s.spd := rfl
@[simp] theorem modMailbox_field_ddr (g : Mailbox → Mailbox) : (s.modMailbox i g).ddr = s.ddr := rfl
@[simp] theorem modMailbox_field_sec (g : Mailbox → Mailbox) : (s.modMailbox i g).sec = s.sec := rfl
@[simp] theorem modMailbox_field_fuse (g : Mailbox → Mailbox) : (s.modMailbox i g).fuse = s.fuse := rfl
@[simp] theorem modMailbox_field_answers (g : Mailbox → Mailbox) : (s.modMailbox i g).answers = s.answers := rfl
@[simp] theorem modMailbox_field_told (g : Mailbox → Mailbox) : (s.modMailbox i g).told = s.told := rfl
@[simp] theorem modMailbox_field_free (g : Mailbox → Mailbox) : (s.modMailbox i g).free = s.free := rfl
@[simp] theorem modMailbox_field_pending (g : Mailbox → Mailbox) : (s.modMailbox i g).pending = s.pending := rfl
@[simp] theorem modMailbox_tile (g : Mailbox → Mailbox) : (s.modMailbox i g).tile j = s.tile j := rfl
@[simp] theorem modMailbox_pll (g : Mailbox → Mailbox) : (s.modMailbox i g).pll j = s.pll j := rfl
@[simp] theorem modMailbox_bmem (g : Mailbox → Mailbox) : (s.modMailbox i g).bmem j = s.bmem j := rfl
@[simp] theorem modMailbox_quad (g : Mailbox → Mailbox) : (s.modMailbox i g).quad j = s.quad j := rfl
@[simp] theorem modMailbox_lane (g : Mailbox → Mailbox) : (s.modMailbox i g).lane j = s.lane j := rfl
@[simp] theorem modMailbox_port (g : Mailbox → Mailbox) : (s.modMailbox i g).port j = s.port j := rfl
@[simp] theorem modMailbox_slot (g : Mailbox → Mailbox) : (s.modMailbox i g).slot j = s.slot j := rfl
@[simp] theorem modMailbox_pers (g : Mailbox → Mailbox) : (s.modMailbox i g).pers j = s.pers j := rfl
@[simp] theorem modMailbox_engine (g : Mailbox → Mailbox) : (s.modMailbox i g).engine j = s.engine j := rfl
@[simp] theorem modMailbox_ctx (g : Mailbox → Mailbox) : (s.modMailbox i g).ctx j = s.ctx j := rfl
@[simp] theorem modMailbox_cluster (g : Mailbox → Mailbox) : (s.modMailbox i g).cluster j = s.cluster j := rfl
@[simp] theorem modMailbox_pin (g : Mailbox → Mailbox) : (s.modMailbox i g).pin j = s.pin j := rfl
@[simp] theorem modMailbox_queue (g : Mailbox → Mailbox) : (s.modMailbox i g).queue j = s.queue j := rfl
@[simp] theorem modMailbox_page (g : Mailbox → Mailbox) : (s.modMailbox i g).page j = s.page j := rfl
@[simp] theorem modMailbox_qgroup (g : Mailbox → Mailbox) : (s.modMailbox i g).qgroup j = s.qgroup j := rfl
@[simp] theorem modMailbox_pier (g : Mailbox → Mailbox) : (s.modMailbox i g).pier j = s.pier j := rfl
@[simp] theorem modMailbox_nocGroup (g : Mailbox → Mailbox) : (s.modMailbox i g).nocGroup j = s.nocGroup j := rfl
@[simp] theorem modMailbox_monitor (g : Mailbox → Mailbox) : (s.modMailbox i g).monitor j = s.monitor j := rfl
@[simp] theorem modMailbox_bank (g : Mailbox → Mailbox) : (s.modMailbox i g).bank j = s.bank j := rfl
@[simp] theorem modMailbox_sgroup (g : Mailbox → Mailbox) : (s.modMailbox i g).sgroup j = s.sgroup j := rfl
@[simp] theorem modMailbox_chan (g : Mailbox → Mailbox) : (s.modMailbox i g).chan j = s.chan j := rfl
@[simp] theorem modMailbox_sub (g : Mailbox → Mailbox) : (s.modMailbox i g).sub j = s.sub j := rfl
@[simp] theorem modMailbox_supply (g : Mailbox → Mailbox) : (s.modMailbox i g).supply j = s.supply j := rfl
@[simp] theorem modMailbox_route (g : Mailbox → Mailbox) : (s.modMailbox i g).route j = s.route j := rfl

/-! ### modRoute -/

theorem modRoute_route (g : Route → Route) : (s.modRoute i g).route j = if j = i then g (s.route i) else s.route j := by
  simp [State.modRoute, State.route, tget_tmod]
@[simp] theorem modRoute_route_self (g : Route → Route) : (s.modRoute i g).route i = g (s.route i) := by simp [modRoute_route]
theorem modRoute_route_ne (g : Route → Route) (h : j ≠ i) : (s.modRoute i g).route j = s.route j := by simp [modRoute_route, h]
@[simp] theorem modRoute_field_dev (g : Route → Route) : (s.modRoute i g).dev = s.dev := rfl
@[simp] theorem modRoute_field_clk (g : Route → Route) : (s.modRoute i g).clk = s.clk := rfl
@[simp] theorem modRoute_field_gov (g : Route → Route) : (s.modRoute i g).gov = s.gov := rfl
@[simp] theorem modRoute_field_tim (g : Route → Route) : (s.modRoute i g).tim = s.tim := rfl
@[simp] theorem modRoute_field_sor (g : Route → Route) : (s.modRoute i g).sor = s.sor := rfl
@[simp] theorem modRoute_field_mbx (g : Route → Route) : (s.modRoute i g).mbx = s.mbx := rfl
@[simp] theorem modRoute_field_lan (g : Route → Route) : (s.modRoute i g).lan = s.lan := rfl
@[simp] theorem modRoute_field_fab (g : Route → Route) : (s.modRoute i g).fab = s.fab := rfl
@[simp] theorem modRoute_field_spn (g : Route → Route) : (s.modRoute i g).spn = s.spn := rfl
@[simp] theorem modRoute_field_boot (g : Route → Route) : (s.modRoute i g).boot = s.boot := rfl
@[simp] theorem modRoute_field_eng (g : Route → Route) : (s.modRoute i g).eng = s.eng := rfl
@[simp] theorem modRoute_field_qm (g : Route → Route) : (s.modRoute i g).qm = s.qm := rfl
@[simp] theorem modRoute_field_noc (g : Route → Route) : (s.modRoute i g).noc = s.noc := rfl
@[simp] theorem modRoute_field_spd (g : Route → Route) : (s.modRoute i g).spd = s.spd := rfl
@[simp] theorem modRoute_field_ddr (g : Route → Route) : (s.modRoute i g).ddr = s.ddr := rfl
@[simp] theorem modRoute_field_sec (g : Route → Route) : (s.modRoute i g).sec = s.sec := rfl
@[simp] theorem modRoute_field_fuse (g : Route → Route) : (s.modRoute i g).fuse = s.fuse := rfl
@[simp] theorem modRoute_field_answers (g : Route → Route) : (s.modRoute i g).answers = s.answers := rfl
@[simp] theorem modRoute_field_told (g : Route → Route) : (s.modRoute i g).told = s.told := rfl
@[simp] theorem modRoute_field_free (g : Route → Route) : (s.modRoute i g).free = s.free := rfl
@[simp] theorem modRoute_field_pending (g : Route → Route) : (s.modRoute i g).pending = s.pending := rfl
@[simp] theorem modRoute_tile (g : Route → Route) : (s.modRoute i g).tile j = s.tile j := rfl
@[simp] theorem modRoute_pll (g : Route → Route) : (s.modRoute i g).pll j = s.pll j := rfl
@[simp] theorem modRoute_bmem (g : Route → Route) : (s.modRoute i g).bmem j = s.bmem j := rfl
@[simp] theorem modRoute_quad (g : Route → Route) : (s.modRoute i g).quad j = s.quad j := rfl
@[simp] theorem modRoute_lane (g : Route → Route) : (s.modRoute i g).lane j = s.lane j := rfl
@[simp] theorem modRoute_port (g : Route → Route) : (s.modRoute i g).port j = s.port j := rfl
@[simp] theorem modRoute_slot (g : Route → Route) : (s.modRoute i g).slot j = s.slot j := rfl
@[simp] theorem modRoute_pers (g : Route → Route) : (s.modRoute i g).pers j = s.pers j := rfl
@[simp] theorem modRoute_engine (g : Route → Route) : (s.modRoute i g).engine j = s.engine j := rfl
@[simp] theorem modRoute_ctx (g : Route → Route) : (s.modRoute i g).ctx j = s.ctx j := rfl
@[simp] theorem modRoute_cluster (g : Route → Route) : (s.modRoute i g).cluster j = s.cluster j := rfl
@[simp] theorem modRoute_pin (g : Route → Route) : (s.modRoute i g).pin j = s.pin j := rfl
@[simp] theorem modRoute_queue (g : Route → Route) : (s.modRoute i g).queue j = s.queue j := rfl
@[simp] theorem modRoute_page (g : Route → Route) : (s.modRoute i g).page j = s.page j := rfl
@[simp] theorem modRoute_qgroup (g : Route → Route) : (s.modRoute i g).qgroup j = s.qgroup j := rfl
@[simp] theorem modRoute_pier (g : Route → Route) : (s.modRoute i g).pier j = s.pier j := rfl
@[simp] theorem modRoute_nocGroup (g : Route → Route) : (s.modRoute i g).nocGroup j = s.nocGroup j := rfl
@[simp] theorem modRoute_monitor (g : Route → Route) : (s.modRoute i g).monitor j = s.monitor j := rfl
@[simp] theorem modRoute_bank (g : Route → Route) : (s.modRoute i g).bank j = s.bank j := rfl
@[simp] theorem modRoute_sgroup (g : Route → Route) : (s.modRoute i g).sgroup j = s.sgroup j := rfl
@[simp] theorem modRoute_chan (g : Route → Route) : (s.modRoute i g).chan j = s.chan j := rfl
@[simp] theorem modRoute_sub (g : Route → Route) : (s.modRoute i g).sub j = s.sub j := rfl
@[simp] theorem modRoute_supply (g : Route → Route) : (s.modRoute i g).supply j = s.supply j := rfl
@[simp] theorem modRoute_mailbox (g : Route → Route) : (s.modRoute i g).mailbox j = s.mailbox j := rfl

end Sys2Proof.Machine
end

