-- ==== Sys2Proof/Laws/Ops.lean ====
section
/-! SUPPORT. What each shared operation can do, said once: the answer of a command, an event raised, a free value drawn, a
ring of a mailbox written and read. -/

namespace Sys2Proof.Machine

/-! ### The answer of a command -/

/-- The state of a command's answer. -/
theorem effect_next (f : State → State) (s t : State) :
    effect f s = .next t ↔ t = { f s with pending := s.pending, fuse := s.fuse } := by
  constructor
  · intro h; cases h; rfl
  · intro h; subst h; rfl

theorem effectFuse_next (f : State → State) (s t : State) :
    effectFuse f s = .next t ↔ t = { f s with pending := s.pending } := by
  constructor
  · intro h; cases h; rfl
  · intro h; subst h; rfl

@[simp] theorem when_true (f : State → State) (s : State) : when true f s = f s := rfl
@[simp] theorem when_false (f : State → State) (s : State) : when false f s = s := rfl
theorem when_pos {c : Bool} (h : c = true) (f : State → State) (s : State) : when c f s = f s := by simp [when, h]
theorem when_neg {c : Bool} (h : c = false) (f : State → State) (s : State) : when c f s = s := by simp [when, h]

/-! ### Free values -/

@[simp] theorem draw_snd (w : Nat) (s : State) : (draw w s).2 = { s with free := s.free + 1 } := rfl
@[simp] theorem draw_fst (w : Nat) (s : State) : (draw w s).1 = Config.freeValue w s.free := rfl

/-! ### Folds -/

@[simp] theorem forEach_nil (f : Nat → State → State) (s : State) : forEach [] f s = s := rfl
@[simp] theorem forEach_cons (a : Nat) (l : List Nat) (f : Nat → State → State) (s : State) :
    forEach (a :: l) f s = forEach l f (f a s) := rfl

/-- What every step of a fold keeps, the fold keeps. -/
theorem forEach_keeps {α : Type} (p : State → α) (l : List Nat) (f : Nat → State → State)
    (h : ∀ i s, p (f i s) = p s) (s : State) : p (forEach l f s) = p s := by
  induction l generalizing s with
  | nil => rfl
  | cons a l ih => rw [forEach_cons, ih, h]

/-! ### Events -/

/-- R620, R244: waking changes only the contexts. -/
theorem wakeEvents_frame (s : State) : wakeEvents s = { s with eng := { s.eng with ctxs := (wakeEvents s).eng.ctxs } } := rfl

/-- R618: an event changes only the event controller and the engines' events and contexts. -/
theorem raiseEvent_frame (n : Nat) (s : State) :
    raiseEvent n s = { s with evt := (raiseEvent n s).evt, eng := (raiseEvent n s).eng } := by
  unfold raiseEvent
  split
  · dsimp only
    split <;> split <;> rfl
  · rfl

/-- R618: the pending bits after a raise. -/
theorem raiseEvent_pend (n : Nat) (s : State) (h : n < 384) :
    (raiseEvent n s).evt.pend = s.evt.pend ||| BitVec.twoPow 384 n := by
  simp only [raiseEvent, h, if_true]
  split <;> split <;> rfl

/-- R618: raised, a source is pending. -/
theorem raiseEvent_pending (n : Nat) (s : State) (h : n < 384) : (raiseEvent n s).evt.pend.getLsbD n = true := by
  rw [raiseEvent_pend n s h]
  simp [h]

section
variable (n : Nat) (s : State)
@[simp] theorem raiseEvent_dev : (raiseEvent n s).dev = s.dev := by rw [raiseEvent_frame]
@[simp] theorem raiseEvent_clk : (raiseEvent n s).clk = s.clk := by rw [raiseEvent_frame]
@[simp] theorem raiseEvent_gov : (raiseEvent n s).gov = s.gov := by rw [raiseEvent_frame]
@[simp] theorem raiseEvent_tim : (raiseEvent n s).tim = s.tim := by rw [raiseEvent_frame]
@[simp] theorem raiseEvent_sor : (raiseEvent n s).sor = s.sor := by rw [raiseEvent_frame]
@[simp] theorem raiseEvent_mbx : (raiseEvent n s).mbx = s.mbx := by rw [raiseEvent_frame]
@[simp] theorem raiseEvent_lan : (raiseEvent n s).lan = s.lan := by rw [raiseEvent_frame]
@[simp] theorem raiseEvent_fab : (raiseEvent n s).fab = s.fab := by rw [raiseEvent_frame]
@[simp] theorem raiseEvent_spn : (raiseEvent n s).spn = s.spn := by rw [raiseEvent_frame]
@[simp] theorem raiseEvent_boot : (raiseEvent n s).boot = s.boot := by rw [raiseEvent_frame]
@[simp] theorem raiseEvent_qm : (raiseEvent n s).qm = s.qm := by rw [raiseEvent_frame]
@[simp] theorem raiseEvent_noc : (raiseEvent n s).noc = s.noc := by rw [raiseEvent_frame]
@[simp] theorem raiseEvent_spd : (raiseEvent n s).spd = s.spd := by rw [raiseEvent_frame]
@[simp] theorem raiseEvent_ddr : (raiseEvent n s).ddr = s.ddr := by rw [raiseEvent_frame]
@[simp] theorem raiseEvent_sec : (raiseEvent n s).sec = s.sec := by rw [raiseEvent_frame]
@[simp] theorem raiseEvent_fuse : (raiseEvent n s).fuse = s.fuse := by rw [raiseEvent_frame]
@[simp] theorem raiseEvent_answers : (raiseEvent n s).answers = s.answers := by rw [raiseEvent_frame]
@[simp] theorem raiseEvent_told : (raiseEvent n s).told = s.told := by rw [raiseEvent_frame]
@[simp] theorem raiseEvent_free : (raiseEvent n s).free = s.free := by rw [raiseEvent_frame]
@[simp] theorem raiseEvent_pendingq : (raiseEvent n s).pending = s.pending := by rw [raiseEvent_frame]
end

@[simp] theorem answer_answers (a : Answer) (s : State) : (answer a s).answers = a :: s.answers := rfl
@[simp] theorem answer_told (a : Answer) (s : State) : (answer a s).told = s.told := rfl
theorem answer_frame (a : Answer) (s : State) :
    answer a s = { s with
      answers := (answer a s).answers
      noc := { s.noc with waiting := (answer a s).noc.waiting, replies := (answer a s).noc.replies } } := rfl
@[simp] theorem tell_told (a : Answer) (s : State) : (tell a s).told = a :: s.told := rfl
theorem tell_frame (a : Answer) (s : State) : tell a s = { s with told := (tell a s).told } := rfl

/-! ### Rings of 1,024 bytes -/

/-- A byte of a ring outside the bytes stored stays. -/
theorem ringStore_other (ring : List (Nat × Byte)) (o k : Nat) (l : List Byte)
    (h : ∀ i, i < l.length → (o + i) % 1024 ≠ k) : tget 0 (ringStore ring o l) k = tget 0 ring k := by
  induction l generalizing ring o with
  | nil => rfl
  | cons b bs ih =>
    have h0 := h 0 (by simp)
    rw [ringStore, ih]
    · exact tget_tset_ne _ _ _ _ _ (by simpa using fun hk => h0 (by simpa using hk.symm))
    · intro i hi
      have := h (i + 1) (by simpa using hi)
      rwa [show o + 1 + i = o + (i + 1) by omega]

/-- R605: what is stored in a ring is read back. -/
theorem ringLoad_ringStore (ring : List (Nat × Byte)) (o : Nat) (l : List Byte) (h : l.length ≤ 1024) :
    ringLoad (ringStore ring o l) o l.length = l := by
  apply List.ext_getElem
  · simp [ringLoad]
  · intro i hi hi2
    simp only [ringLoad, List.getElem_map, List.getElem_range]
    induction l generalizing ring o i with
    | nil => simp at hi2
    | cons b bs ih =>
      cases i with
      | zero =>
        rw [ringStore, Nat.add_zero, ringStore_other]
        · simp
        · intro i hi
          simp only [List.length_cons] at h
          omega
      | succ i =>
        have hb : bs.length ≤ 1024 := by simp only [List.length_cons] at h; omega
        have := ih (tset 0 ring (o % 1024) b) (o + 1) hb i (by simpa [ringLoad] using hi2) (by simpa using hi2)
        rw [ringStore, List.getElem_cons_succ, ← this, show o + 1 + i = o + (i + 1) by omega]

@[simp] theorem leBytes_length (n v : Nat) : (leBytes n v).length = n := by simp [leBytes]

/-! ### A command's checks and replies -/

@[simp] theorem checks_nil (f : State → State × Reply) (s : State) : checks [] f s = f s := rfl
theorem checks_cons (b : Bool) (st : Nat) (l : List (Bool × Nat)) (f : State → State × Reply) (s : State) :
    checks ((b, st) :: l) f s = if b then fail st s else checks l f s := rfl
@[simp] theorem checks_pass (st : Nat) (l : List (Bool × Nat)) (f : State → State × Reply) (s : State) :
    checks ((false, st) :: l) f s = checks l f s := rfl
@[simp] theorem checks_fail (st : Nat) (l : List (Bool × Nat)) (f : State → State × Reply) (s : State) :
    checks ((true, st) :: l) f s = fail st s := rfl

end Sys2Proof.Machine
end

