-- ==== Sys2Proof/Laws/Mailbox.lean ====
section
/-! SUPPORT. What taking and answering commands can do: a response changes only the mailboxes, and a command that may be
taken gets exactly one response, that of its handler. -/

namespace Sys2Proof.Machine

/-! ### Responses change only the mailboxes -/

theorem writeResponse_frame (m : Nat) (t : Task) (st : Nat) (f e l : Bool) (data : List Byte) (s : State) :
    writeResponse m t st f e l data s = { s with mbx := (writeResponse m t st f e l data s).mbx } := rfl

theorem finalResponse_frame (m : Nat) (t : Task) (st : Nat) (l : Bool) (data : List Byte) (s : State) :
    finalResponse m t st l data s = { s with mbx := (finalResponse m t st l data s).mbx } := rfl

/-- Changing only the mailboxes twice is changing only them. -/
theorem onlyMbx_trans {s u t : State} (hu : u = { s with mbx := u.mbx }) (ht : t = { u with mbx := t.mbx }) :
    t = { s with mbx := t.mbx } := ht.trans (by rw [hu])

theorem foldl_mbx_frame {α : Type} (f : State → α → State) (h : ∀ s a, f s a = { s with mbx := (f s a).mbx })
    (l : List α) (s : State) : l.foldl f s = { s with mbx := (l.foldl f s).mbx } := by
  induction l generalizing s with
  | nil => rfl
  | cons a l ih => exact onlyMbx_trans (h s a) (ih (f s a))

theorem forEach_mbx_frame (f : Nat → State → State) (h : ∀ i s, f i s = { s with mbx := (f i s).mbx })
    (l : List Nat) (s : State) : forEach l f s = { s with mbx := (forEach l f s).mbx } :=
  foldl_mbx_frame (fun a i => f i a) (fun s i => h i s) l s

theorem finishIf_frame (p : Task → Bool) (st : Task → Nat) (l : Task → Bool) (data : List Byte) (s : State) :
    finishIf p st l data s = { s with mbx := (finishIf p st l data s).mbx } := by
  by_cases h : s.sor.restarting = true
  · simp [finishIf, h]
  · simp only [finishIf, h, Bool.false_eq_true, if_false]
    exact forEach_mbx_frame _ (fun m a => foldl_mbx_frame _ (fun a t => finalResponse_frame _ _ _ _ _ _) _ a) _ s

theorem finish_frame (op obj st : Nat) (data : List Byte) (s : State) :
    finish op obj st data s = { s with mbx := (finish op obj st data s).mbx } := finishIf_frame _ _ _ _ s

theorem reapStops_frame (s : State) : reapStops s = { s with mbx := (reapStops s).mbx } :=
  onlyMbx_trans (finishIf_frame _ _ _ _ s) (finishIf_frame _ _ _ _ _)

section
variable (p : Task → Bool) (st : Task → Nat) (l : Task → Bool) (data : List Byte) (s : State)
@[simp] theorem finishIf_dev : (finishIf p st l data s).dev = s.dev := by rw [finishIf_frame]
@[simp] theorem finishIf_clk : (finishIf p st l data s).clk = s.clk := by rw [finishIf_frame]
@[simp] theorem finishIf_gov : (finishIf p st l data s).gov = s.gov := by rw [finishIf_frame]
@[simp] theorem finishIf_tim : (finishIf p st l data s).tim = s.tim := by rw [finishIf_frame]
@[simp] theorem finishIf_sor : (finishIf p st l data s).sor = s.sor := by rw [finishIf_frame]
@[simp] theorem finishIf_evt : (finishIf p st l data s).evt = s.evt := by rw [finishIf_frame]
@[simp] theorem finishIf_lan : (finishIf p st l data s).lan = s.lan := by rw [finishIf_frame]
@[simp] theorem finishIf_fab : (finishIf p st l data s).fab = s.fab := by rw [finishIf_frame]
@[simp] theorem finishIf_spn : (finishIf p st l data s).spn = s.spn := by rw [finishIf_frame]
@[simp] theorem finishIf_boot : (finishIf p st l data s).boot = s.boot := by rw [finishIf_frame]
@[simp] theorem finishIf_eng : (finishIf p st l data s).eng = s.eng := by rw [finishIf_frame]
@[simp] theorem finishIf_qm : (finishIf p st l data s).qm = s.qm := by rw [finishIf_frame]
@[simp] theorem finishIf_noc : (finishIf p st l data s).noc = s.noc := by rw [finishIf_frame]
@[simp] theorem finishIf_spd : (finishIf p st l data s).spd = s.spd := by rw [finishIf_frame]
@[simp] theorem finishIf_ddr : (finishIf p st l data s).ddr = s.ddr := by rw [finishIf_frame]
@[simp] theorem finishIf_sec : (finishIf p st l data s).sec = s.sec := by rw [finishIf_frame]
@[simp] theorem finishIf_fuse : (finishIf p st l data s).fuse = s.fuse := by rw [finishIf_frame]
@[simp] theorem finishIf_answers : (finishIf p st l data s).answers = s.answers := by rw [finishIf_frame]
@[simp] theorem finishIf_told : (finishIf p st l data s).told = s.told := by rw [finishIf_frame]
@[simp] theorem finishIf_free : (finishIf p st l data s).free = s.free := by rw [finishIf_frame]
@[simp] theorem finishIf_pending : (finishIf p st l data s).pending = s.pending := by rw [finishIf_frame]
@[simp] theorem reapStops_dev : (reapStops s).dev = s.dev := by rw [reapStops_frame]
@[simp] theorem reapStops_clk : (reapStops s).clk = s.clk := by rw [reapStops_frame]
@[simp] theorem reapStops_gov : (reapStops s).gov = s.gov := by rw [reapStops_frame]
@[simp] theorem reapStops_tim : (reapStops s).tim = s.tim := by rw [reapStops_frame]
@[simp] theorem reapStops_sor : (reapStops s).sor = s.sor := by rw [reapStops_frame]
@[simp] theorem reapStops_evt : (reapStops s).evt = s.evt := by rw [reapStops_frame]
@[simp] theorem reapStops_lan : (reapStops s).lan = s.lan := by rw [reapStops_frame]
@[simp] theorem reapStops_fab : (reapStops s).fab = s.fab := by rw [reapStops_frame]
@[simp] theorem reapStops_spn : (reapStops s).spn = s.spn := by rw [reapStops_frame]
@[simp] theorem reapStops_boot : (reapStops s).boot = s.boot := by rw [reapStops_frame]
@[simp] theorem reapStops_eng : (reapStops s).eng = s.eng := by rw [reapStops_frame]
@[simp] theorem reapStops_qm : (reapStops s).qm = s.qm := by rw [reapStops_frame]
@[simp] theorem reapStops_noc : (reapStops s).noc = s.noc := by rw [reapStops_frame]
@[simp] theorem reapStops_spd : (reapStops s).spd = s.spd := by rw [reapStops_frame]
@[simp] theorem reapStops_ddr : (reapStops s).ddr = s.ddr := by rw [reapStops_frame]
@[simp] theorem reapStops_sec : (reapStops s).sec = s.sec := by rw [reapStops_frame]
@[simp] theorem reapStops_fuse : (reapStops s).fuse = s.fuse := by rw [reapStops_frame]
@[simp] theorem reapStops_answers : (reapStops s).answers = s.answers := by rw [reapStops_frame]
@[simp] theorem reapStops_told : (reapStops s).told = s.told := by rw [reapStops_frame]
@[simp] theorem reapStops_free : (reapStops s).free = s.free := by rw [reapStops_frame]
end

/-- No command waits that satisfies `p`: nothing is answered. -/
theorem finishIf_none (p : Task → Bool) (st : Task → Nat) (l : Task → Bool) (data : List Byte) (s : State)
    (h : ∀ m, m < 18 → ∀ t, t ∈ (s.mailbox m).tasks → p t = false) : finishIf p st l data s = s := by
  unfold finishIf
  split
  · rfl
  · have key : ∀ l' : List Nat, (∀ m, m ∈ l' → m < 18) →
        forEach l' (fun m a => ((a.mailbox m).tasks.filter p).foldl
          (fun a t => finalResponse m t (st t) (l t) data a) a) s = s := by
      intro l'
      induction l' with
      | nil => intro _; rfl
      | cons m l' ih =>
        intro hm
        rw [forEach_cons]
        have : (s.mailbox m).tasks.filter p = [] := by
          rw [List.filter_eq_nil_iff]
          intro t ht
          simp [h m (hm m (by simp)) t ht]
        rw [this, List.foldl_nil]
        exact ih fun m' hm' => hm m' (by simp [hm'])
    exact key _ (by intro m hm; simpa using hm)

/-! ### One command, one response -/

/-- The state in which a handler runs: the message announced and taken. -/
def takenState (q : CmdCtx) (opcode : Nat) (payload : List Byte) (s : State) : State :=
  disarm opcode (takeHead q.mbx (slotsOf (s.mailbox q.mbx).encV1 payload.length) true (postCommand q opcode payload s))

/-- R606, R607: a command that passes checks 1 to 4 is answered by its handler. -/
theorem command_taken (q : CmdCtx) (opcode : Nat) (payload : List Byte) (h : State → State × Reply) (s : State)
    (ht : canTake q.mbx s = true) (hw : ownTurn q.mbx s = true) (he : (s.mailbox q.mbx).cmdHead = (s.mailbox q.mbx).cmdTail)
    (hv : (s.mailbox q.mbx).encV1 = false) (hs : q.seq = (s.mailbox q.mbx).expectSeq) (hl : payload.length ≤ 240)
    (hc : classRefuses q.mbx opcode s = false) :
    command q opcode payload h s =
      reply q.mbx { opcode, seq := q.seq, tag := q.tag, ordered := q.ordered, deadline := q.deadline, taken := s.now
                    slots := 5, obj := 0, arg := 0 } (h (takenState q opcode payload s)) := by
  have hb : ((postCommand q opcode payload s).mailbox q.mbx).encV1 = false := by simp [postCommand, hv]
  have hq : ((postCommand q opcode payload s).mailbox q.mbx).expectSeq = (s.mailbox q.mbx).expectSeq := by simp [postCommand]
  have hc' : classRefuses q.mbx opcode (disarm opcode (takeHead q.mbx (slotsOf false payload.length) true
      (postCommand q opcode payload s))) = false := by
    rw [← hc]
    unfold classRefuses disarm
    split <;> rfl
  have hl' : ¬ (240 < payload.length) := by omega
  simp only [command, ht, hw, he, when, decide_true, Bool.and_self, if_true, takeCommand, hb, hq, hs, ne_eq, not_true_eq_false,
    if_false, takenState, hv, Bool.false_and, Bool.false_eq_true, reserveOf, Bool.or_false, Bool.not_true, hl', or_self]
  rw [hc']
  simp [postCommand, State.now, State.modMailbox]

end Sys2Proof.Machine
end

