-- ==== Sys2Proof/Laws/Commands.lean ====
section
/-! SUPPORT. A mailbox command that may be issued: the state it leaves, in terms of its handler's. -/

namespace Sys2Proof.Machine

@[simp] theorem takenState_dev (q : CmdCtx) (op : Nat) (p : List Byte) (s : State) : (takenState q op p s).dev = s.dev := by
  unfold takenState disarm; split <;> rfl
@[simp] theorem takenState_clk (q : CmdCtx) (op : Nat) (p : List Byte) (s : State) : (takenState q op p s).clk = s.clk := by
  unfold takenState disarm; split <;> rfl
@[simp] theorem takenState_gov (q : CmdCtx) (op : Nat) (p : List Byte) (s : State) : (takenState q op p s).gov = s.gov := by
  unfold takenState disarm; split <;> rfl
@[simp] theorem takenState_tim (q : CmdCtx) (op : Nat) (p : List Byte) (s : State) : (takenState q op p s).tim = s.tim := by
  unfold takenState disarm; split <;> rfl
@[simp] theorem takenState_evt (q : CmdCtx) (op : Nat) (p : List Byte) (s : State) : (takenState q op p s).evt = s.evt := by
  unfold takenState disarm; split <;> rfl
@[simp] theorem takenState_lan (q : CmdCtx) (op : Nat) (p : List Byte) (s : State) : (takenState q op p s).lan = s.lan := by
  unfold takenState disarm; split <;> rfl
@[simp] theorem takenState_fab (q : CmdCtx) (op : Nat) (p : List Byte) (s : State) : (takenState q op p s).fab = s.fab := by
  unfold takenState disarm; split <;> rfl
@[simp] theorem takenState_spn (q : CmdCtx) (op : Nat) (p : List Byte) (s : State) : (takenState q op p s).spn = s.spn := by
  unfold takenState disarm; split <;> rfl
@[simp] theorem takenState_boot (q : CmdCtx) (op : Nat) (p : List Byte) (s : State) :
    (takenState q op p s).boot = s.boot := by unfold takenState disarm; split <;> rfl
@[simp] theorem takenState_eng (q : CmdCtx) (op : Nat) (p : List Byte) (s : State) : (takenState q op p s).eng = s.eng := by
  unfold takenState disarm; split <;> rfl
@[simp] theorem takenState_qm (q : CmdCtx) (op : Nat) (p : List Byte) (s : State) : (takenState q op p s).qm = s.qm := by
  unfold takenState disarm; split <;> rfl
@[simp] theorem takenState_noc (q : CmdCtx) (op : Nat) (p : List Byte) (s : State) : (takenState q op p s).noc = s.noc := by
  unfold takenState disarm; split <;> rfl
@[simp] theorem takenState_spd (q : CmdCtx) (op : Nat) (p : List Byte) (s : State) : (takenState q op p s).spd = s.spd := by
  unfold takenState disarm; split <;> rfl
@[simp] theorem takenState_ddr (q : CmdCtx) (op : Nat) (p : List Byte) (s : State) : (takenState q op p s).ddr = s.ddr := by
  unfold takenState disarm; split <;> rfl
@[simp] theorem takenState_fuse (q : CmdCtx) (op : Nat) (p : List Byte) (s : State) :
    (takenState q op p s).fuse = s.fuse := by unfold takenState disarm; split <;> rfl
@[simp] theorem takenState_answers (q : CmdCtx) (op : Nat) (p : List Byte) (s : State) :
    (takenState q op p s).answers = s.answers := by unfold takenState disarm; split <;> rfl
@[simp] theorem takenState_free (q : CmdCtx) (op : Nat) (p : List Byte) (s : State) :
    (takenState q op p s).free = s.free := by unfold takenState disarm; split <;> rfl
@[simp] theorem takenState_pending (q : CmdCtx) (op : Nat) (p : List Byte) (s : State) :
    (takenState q op p s).pending = s.pending := by unfold takenState disarm; split <;> rfl
@[simp] theorem takenState_acc (q : CmdCtx) (op : Nat) (p : List Byte) (s : State) :
    (takenState q op p s).sec.acc = s.sec.acc := by unfold takenState disarm; split <;> rfl
@[simp] theorem takenState_scm (q : CmdCtx) (op : Nat) (p : List Byte) (s : State) :
    (takenState q op p s).sec.scm = s.sec.scm := by unfold takenState disarm; split <;> rfl
@[simp] theorem takenState_now (q : CmdCtx) (op : Nat) (p : List Byte) (s : State) :
    (takenState q op p s).now = s.now := by simp [State.now]

section
variable (q : CmdCtx) (op : Nat) (p : List Byte) (s : State) (i : Nat)
@[simp] theorem takenState_tile : (takenState q op p s).tile i = s.tile i := by unfold State.tile; rw [takenState_fab]
@[simp] theorem takenState_pll : (takenState q op p s).pll i = s.pll i := by unfold State.pll; rw [takenState_fab]
@[simp] theorem takenState_bmem : (takenState q op p s).bmem i = s.bmem i := by unfold State.bmem; rw [takenState_fab]
@[simp] theorem takenState_quad : (takenState q op p s).quad i = s.quad i := by unfold State.quad; rw [takenState_lan]
@[simp] theorem takenState_lane : (takenState q op p s).lane i = s.lane i := by unfold State.lane; rw [takenState_lan]
@[simp] theorem takenState_port : (takenState q op p s).port i = s.port i := by unfold State.port; rw [takenState_lan]
@[simp] theorem takenState_slot : (takenState q op p s).slot i = s.slot i := by unfold State.slot; rw [takenState_spn]
@[simp] theorem takenState_pers : (takenState q op p s).pers i = s.pers i := by unfold State.pers; rw [takenState_spn]
@[simp] theorem takenState_engine : (takenState q op p s).engine i = s.engine i := by unfold State.engine; rw [takenState_eng]
@[simp] theorem takenState_ctx : (takenState q op p s).ctx i = s.ctx i := by unfold State.ctx; rw [takenState_eng]
@[simp] theorem takenState_cluster : (takenState q op p s).cluster i = s.cluster i := by unfold State.cluster; rw [takenState_eng]
@[simp] theorem takenState_pin : (takenState q op p s).pin i = s.pin i := by unfold State.pin; rw [takenState_eng]
@[simp] theorem takenState_queue : (takenState q op p s).queue i = s.queue i := by unfold State.queue; rw [takenState_qm]
@[simp] theorem takenState_page : (takenState q op p s).page i = s.page i := by unfold State.page; rw [takenState_qm]
@[simp] theorem takenState_qgroup : (takenState q op p s).qgroup i = s.qgroup i := by unfold State.qgroup; rw [takenState_qm]
@[simp] theorem takenState_pier : (takenState q op p s).pier i = s.pier i := by unfold State.pier; rw [takenState_noc]
@[simp] theorem takenState_nocGroup : (takenState q op p s).nocGroup i = s.nocGroup i := by unfold State.nocGroup; rw [takenState_noc]
@[simp] theorem takenState_monitor : (takenState q op p s).monitor i = s.monitor i := by unfold State.monitor; rw [takenState_noc]
@[simp] theorem takenState_bank : (takenState q op p s).bank i = s.bank i := by unfold State.bank; rw [takenState_spd]
@[simp] theorem takenState_sgroup : (takenState q op p s).sgroup i = s.sgroup i := by unfold State.sgroup; rw [takenState_spd]
@[simp] theorem takenState_chan : (takenState q op p s).chan i = s.chan i := by unfold State.chan; rw [takenState_ddr]
@[simp] theorem takenState_sub : (takenState q op p s).sub i = s.sub i := by unfold State.sub; rw [takenState_ddr]
@[simp] theorem takenState_supply : (takenState q op p s).supply i = s.supply i := by unfold State.supply; rw [takenState_gov]
@[simp] theorem takenState_route : (takenState q op p s).route i = s.route i := by unfold State.route; rw [takenState_evt]
end

@[simp] theorem takenState_heldBy (q : CmdCtx) (op : Nat) (p : List Byte) (s : State) (kind index : Nat) :
    heldBy (takenState q op p s) kind index = heldBy s kind index := by unfold heldBy; rw [takenState_supply]
@[simp] theorem takenState_booked (q : CmdCtx) (op : Nat) (p : List Byte) (s : State) (sp : Nat) :
    booked (takenState q op p s) sp = booked s sp := by unfold booked; rw [takenState_supply, takenState_gov]

/-- Taking a command changes only its mailbox, COMMANDS, the pointer and an armed change. -/
theorem takenState_taken (q : CmdCtx) (op : Nat) (p : List Byte) (s : State) :
    TakenFrom q.mbx op s (takenState q op p s) := by
  unfold TakenFrom takenState disarm
  split <;> rfl

/-- A mailbox is read from the mailboxes alone. -/
theorem mailbox_of_mbx {s t : State} (h : s.mbx = t.mbx) (m : Nat) : s.mailbox m = t.mailbox m := by
  unfold State.mailbox; rw [h]

/-- The mailboxes after taking, as two updates of one. -/
theorem takenState_mbx (q : CmdCtx) (op : Nat) (p : List Byte) (s : State) :
    (takenState q op p s).mbx = ((s.modMailbox q.mbx fun b =>
      { b with
        cmdRing := ringStore b.cmdRing (64 * (b.cmdTail % 16)) (commandBytes b.encV1 q op p)
        cmdTail := (b.cmdTail + slotsOf b.encV1 p.length) % 2 ^ 16 }).modMailbox q.mbx fun b =>
      { b with
        cmdHead := (b.cmdHead + slotsOf (s.mailbox q.mbx).encV1 p.length) % 2 ^ 16
        taken := if b.taken = BitVec.allOnes 64 then b.taken else b.taken + 1
        expectSeq := (b.expectSeq + 1) % (if b.encV1 then 2 ^ 8 else 2 ^ 16) }).mbx := by
  unfold takenState disarm; split <;> rfl

theorem takenState_other (q : CmdCtx) (op : Nat) (p : List Byte) (s : State) (m : Nat) (h : m ≠ q.mbx) :
    (takenState q op p s).mailbox m = s.mailbox m := by
  have e := takenState_mbx q op p s
  unfold State.mailbox
  rw [e]
  exact (modMailbox_mailbox_ne _ _ _ _ h).trans (modMailbox_mailbox_ne _ _ _ _ h)

/-- The mailbox after its message is taken. -/
theorem takenState_mailbox (q : CmdCtx) (op : Nat) (p : List Byte) (s : State) :
    (takenState q op p s).mailbox q.mbx =
      { s.mailbox q.mbx with
        cmdRing := ringStore (s.mailbox q.mbx).cmdRing (64 * ((s.mailbox q.mbx).cmdTail % 16))
          (commandBytes (s.mailbox q.mbx).encV1 q op p)
        cmdTail := ((s.mailbox q.mbx).cmdTail + slotsOf (s.mailbox q.mbx).encV1 p.length) % 2 ^ 16
        cmdHead := ((s.mailbox q.mbx).cmdHead + slotsOf (s.mailbox q.mbx).encV1 p.length) % 2 ^ 16
        taken := if (s.mailbox q.mbx).taken = BitVec.allOnes 64 then (s.mailbox q.mbx).taken else (s.mailbox q.mbx).taken + 1
        expectSeq := ((s.mailbox q.mbx).expectSeq + 1) % (if (s.mailbox q.mbx).encV1 then 2 ^ 8 else 2 ^ 16) } := by
  rw [mailbox_of_mbx (takenState_mbx q op p s), modMailbox_mailbox_self, modMailbox_mailbox_self]

/-- R606, R607: a command that may be issued is taken and answered by its handler. -/
theorem command_issued (q : CmdCtx) (op : Nat) (p : List Byte) (h : State → State × Reply) (s : State)
    (hm : MayIssue q op p.length s) :
    command q op p h s = reply q.mbx (takenTask q op s) (h (takenState q op p s)) := by
  obtain ⟨ht, hw, he, hs, hl, hc, hr⟩ := hm
  have hb : ((postCommand q op p s).mailbox q.mbx).encV1 = (s.mailbox q.mbx).encV1 := by simp [postCommand]
  have hq : ((postCommand q op p s).mailbox q.mbx).expectSeq = (s.mailbox q.mbx).expectSeq := by simp [postCommand]
  have hc' : classRefuses q.mbx op (disarm op (takeHead q.mbx (slotsOf (s.mailbox q.mbx).encV1 p.length) true
      (postCommand q op p s))) = false := by
    rw [← hc]
    unfold classRefuses disarm
    split <;> rfl
  have hl' : ¬ ((if (s.mailbox q.mbx).encV1 = true then 56 else 240) < p.length) := by omega
  simp only [command, ht, hw, he, when, decide_true, Bool.and_self, if_true, takeCommand, hb, hq, hs, ne_eq, not_true_eq_false,
    if_false, takenState, reserveOf, Bool.not_true, hl', or_self, Bool.false_eq_true, hr]
  rw [hc']
  simp [postCommand, State.now, State.modMailbox, takenTask, hs, reserveOf]

/-- What the answer of a final response is: the mailbox's response, with nothing else of the handler's state touched. -/
theorem replied_done (q : CmdCtx) (op : Nat) (p : List Byte) (h : State → State × Reply) (s s' : State) (st : Nat)
    (data : List Byte) (hm : MayIssue q op p.length s) (hh : h (takenState q op p s) = (s', .done st data))
    (hb : s'.mbx = (takenState q op p s).mbx) (ht : s'.tim.tick = s.tim.tick)
    (hd : (if (s.mailbox q.mbx).encV1 then 8 else 16) + data.length ≤ 1024) :
    Replied q op st true data s (command q op p h s)
      ∧ command q op p h s = { s' with mbx := (command q op p h s).mbx }
      ∧ ((command q op p h s).mailbox q.mbx).tasks = (s.mailbox q.mbx).tasks := by
  have hc := command_issued q op p h s hm
  rw [hh] at hc
  simp only [reply] at hc
  have hmb : s'.mailbox q.mbx = (takenState q op p s).mailbox q.mbx := by unfold State.mailbox; rw [hb]
  have hnow : s'.now = s.now := by simp [State.now, ht]
  have he : (s'.mailbox q.mbx).encV1 = (s.mailbox q.mbx).encV1 := by rw [hmb, takenState_mailbox]
  have hrt : (s'.mailbox q.mbx).rspTail = (s.mailbox q.mbx).rspTail := by rw [hmb, takenState_mailbox]
  have hel : elapsedUs s' (takenTask q op s) = elapsedUs s (takenTask q op s) := by simp [elapsedUs, hnow]
  have hrb : responseBytes (s'.mailbox q.mbx).encV1 s' (takenTask q op s) st true false false data
      = responseBytes (s.mailbox q.mbx).encV1 s (takenTask q op s) st true false false data := by
    rw [he]; simp [responseBytes, hel]
  have hlen : (responseBytes (s.mailbox q.mbx).encV1 s (takenTask q op s) st true false false data).length
      = (if (s.mailbox q.mbx).encV1 then 8 else 16) + data.length := by
    cases hv : (s.mailbox q.mbx).encV1 <;> simp [responseBytes] <;> omega
  have hmail : (command q op p h s).mailbox q.mbx =
      { (takenState q op p s).mailbox q.mbx with
        rspRing := ringStore (s'.mailbox q.mbx).rspRing (64 * ((s.mailbox q.mbx).rspTail % 16))
          (responseBytes (s.mailbox q.mbx).encV1 s (takenTask q op s) st true false false data)
        rspTail := ((s.mailbox q.mbx).rspTail + slotsOf (s.mailbox q.mbx).encV1 data.length) % 2 ^ 16 } := by
    rw [hc, writeResponse, modMailbox_mailbox_self, hrb, hrt, he, hmb, takenState_mailbox]
  refine ⟨⟨?_, ?_, ?_, ?_, ?_⟩, ?_, ?_⟩
  · rw [hmail, ← hlen]
    exact ringLoad_ringStore _ _ _ (by rw [hlen]; exact hd)
  · rw [hmail]
  · rw [hmail, takenState_mailbox]
    simp only [hm.2.2.1]
  · rw [hmail, takenState_mailbox]
  · intro m hne
    rw [hc, writeResponse, modMailbox_mailbox_ne _ _ _ _ hne, ← takenState_other q op p s m hne]
    unfold State.mailbox; rw [hb]
  · rw [hc]; rfl
  · rw [hmail, takenState_mailbox]

/-- The same of an interim response. -/
theorem replied_wait (q : CmdCtx) (op : Nat) (p : List Byte) (h : State → State × Reply) (s s' : State) (obj arg : Nat)
    (data : List Byte) (hm : MayIssue q op p.length s) (hh : h (takenState q op p s) = (s', .wait data obj arg))
    (hb : s'.mbx = (takenState q op p s).mbx) (ht : s'.tim.tick = s.tim.tick)
    (hd : (if (s.mailbox q.mbx).encV1 then 8 else 16) + data.length ≤ 1024) :
    Replied q op stPending false data s (command q op p h s) ∧ Waits q op obj arg s (command q op p h s)
      ∧ command q op p h s = { s' with mbx := (command q op p h s).mbx } := by
  have hc := command_issued q op p h s hm
  rw [hh] at hc
  simp only [reply] at hc
  have hmb : s'.mailbox q.mbx = (takenState q op p s).mailbox q.mbx := by unfold State.mailbox; rw [hb]
  have hnow : s'.now = s.now := by simp [State.now, ht]
  have he : (s'.mailbox q.mbx).encV1 = (s.mailbox q.mbx).encV1 := by rw [hmb, takenState_mailbox]
  have hrt : (s'.mailbox q.mbx).rspTail = (s.mailbox q.mbx).rspTail := by rw [hmb, takenState_mailbox]
  have hel : elapsedUs s' (takenTask q op s) = elapsedUs s (takenTask q op s) := by simp [elapsedUs, hnow]
  have hrb : responseBytes (s'.mailbox q.mbx).encV1 s' (takenTask q op s) stPending false false false data
      = responseBytes (s.mailbox q.mbx).encV1 s (takenTask q op s) stPending false false false data := by
    rw [he]; simp [responseBytes, hel]
  have hlen : (responseBytes (s.mailbox q.mbx).encV1 s (takenTask q op s) stPending false false false data).length
      = (if (s.mailbox q.mbx).encV1 then 8 else 16) + data.length := by
    cases hv : (s.mailbox q.mbx).encV1 <;> simp [responseBytes] <;> omega
  have hmail : (command q op p h s).mailbox q.mbx =
      { (takenState q op p s).mailbox q.mbx with
        rspRing := ringStore (s'.mailbox q.mbx).rspRing (64 * ((s.mailbox q.mbx).rspTail % 16))
          (responseBytes (s.mailbox q.mbx).encV1 s (takenTask q op s) stPending false false false data)
        rspTail := ((s.mailbox q.mbx).rspTail + slotsOf (s.mailbox q.mbx).encV1 data.length) % 2 ^ 16
        tasks := (s.mailbox q.mbx).tasks ++ [{ takenTask q op s with obj, arg, slots := reserveOf (s.mailbox q.mbx) - 1 }]
        reserved := ((takenState q op p s).mailbox q.mbx).reserved + (reserveOf (s.mailbox q.mbx) - 1) } := by
    rw [hc, modMailbox_mailbox_self, writeResponse, modMailbox_mailbox_self, hrb, hrt, he, hmb, takenState_mailbox]
    rfl
  refine ⟨⟨?_, ?_, ?_, ?_, ?_⟩, ?_, ?_⟩
  · rw [hmail, ← hlen]
    exact ringLoad_ringStore _ _ _ (by rw [hlen]; exact hd)
  · rw [hmail]
  · rw [hmail, takenState_mailbox]
    simp only [hm.2.2.1]
  · rw [hmail, takenState_mailbox]
  · intro m hne
    rw [hc, modMailbox_mailbox_ne _ _ _ _ hne, writeResponse, modMailbox_mailbox_ne _ _ _ _ hne,
      ← takenState_other q op p s m hne]
    unfold State.mailbox; rw [hb]
  · unfold Waits; rw [hmail]
  · rw [hc]; rfl

/-- An opcode row that is answered finally: its response, and the handler's state beside the mailboxes. -/
theorem answers_done {c : Instr} {q : CmdCtx} {op : Nat} {p : List Byte} {h : State → State × Reply} {s s' : State} {st : Nat}
    {data : List Byte} (hx : exec c s = effect (command q op p h) s) (hm : MayIssue q op p.length s)
    (hh : h (takenState q op p s) = (s', .done st data)) (hb : s'.mbx = (takenState q op p s).mbx)
    (ht : s'.tim.tick = s.tim.tick) (hp : s'.pending = s.pending) (hf : s'.fuse = s.fuse)
    (hd : (if (s.mailbox q.mbx).encV1 then 8 else 16) + data.length ≤ 1024) :
    Answers c s fun t => Replied q op st true data s t ∧ t = { s' with mbx := t.mbx } := by
  obtain ⟨h1, h2, _⟩ := replied_done q op p h s s' st data hm hh hb ht hd
  refine ⟨_, hx, ?_⟩
  have e : ({ command q op p h s with pending := s.pending, fuse := s.fuse } : State) = command q op p h s := by
    rw [h2, ← hp, ← hf]
  rw [e]
  exact ⟨h1, h2⟩

/-- The same of one answered PENDING. -/
theorem answers_wait {c : Instr} {q : CmdCtx} {op : Nat} {p : List Byte} {h : State → State × Reply} {s s' : State}
    {obj arg : Nat} {data : List Byte} (hx : exec c s = effect (command q op p h) s) (hm : MayIssue q op p.length s)
    (hh : h (takenState q op p s) = (s', .wait data obj arg)) (hb : s'.mbx = (takenState q op p s).mbx)
    (ht : s'.tim.tick = s.tim.tick) (hp : s'.pending = s.pending) (hf : s'.fuse = s.fuse)
    (hd : (if (s.mailbox q.mbx).encV1 then 8 else 16) + data.length ≤ 1024) :
    Answers c s fun t => Replied q op stPending false data s t ∧ Waits q op obj arg s t ∧ t = { s' with mbx := t.mbx } := by
  obtain ⟨h1, h2, h3⟩ := replied_wait q op p h s s' obj arg data hm hh hb ht hd
  refine ⟨_, hx, ?_⟩
  have e : ({ command q op p h s with pending := s.pending, fuse := s.fuse } : State) = command q op p h s := by
    rw [h3, ← hp, ← hf]
  rw [e]
  exact ⟨h1, h2, h3⟩

/-- A response written to a mailbox, as its ring and tail. -/
theorem writeResponse_mailbox (m : Nat) (t : Task) (st : Nat) (f e l : Bool) (data : List Byte) (s : State) :
    (writeResponse m t st f e l data s).mailbox m = { s.mailbox m with
      rspRing := ringStore (s.mailbox m).rspRing (64 * ((s.mailbox m).rspTail % 16))
        (responseBytes (s.mailbox m).encV1 s t st f e l data)
      rspTail := ((s.mailbox m).rspTail + slotsOf (s.mailbox m).encV1 data.length) % 2 ^ 16 } := by
  rw [writeResponse, modMailbox_mailbox_self]

/-- The bytes of a response depend on the state by the time alone. -/
theorem responseBytes_now {s u : State} (h : u.now = s.now) (v : Bool) (t : Task) (st : Nat) (f e l : Bool) (data : List Byte) :
    responseBytes v u t st f e l data = responseBytes v s t st f e l data := by
  simp [responseBytes, elapsedUs, h]

theorem responseBytes_length (v : Bool) (s : State) (t : Task) (st : Nat) (f e l : Bool) (data : List Byte) :
    (responseBytes v s t st f e l data).length = (if v then 8 else 16) + data.length := by
  cases v <;> simp [responseBytes] <;> omega

/-- What the two answers of a command that ends in the step that takes it are (R609). -/
theorem replied_pend (q : CmdCtx) (op : Nat) (p : List Byte) (h : State → State × Reply) (s s' : State) (st : Nat)
    (data : List Byte) (hm : MayIssue q op p.length s) (hh : h (takenState q op p s) = (s', .pend st data))
    (hb : s'.mbx = (takenState q op p s).mbx) (ht : s'.tim.tick = s.tim.tick)
    (hd : (if (s.mailbox q.mbx).encV1 then 8 else 16) + data.length ≤ 960) :
    RepliedBoth q op st data s (command q op p h s)
      ∧ command q op p h s = { s' with mbx := (command q op p h s).mbx }
      ∧ ((command q op p h s).mailbox q.mbx).tasks = (s.mailbox q.mbx).tasks := by
  have hc := command_issued q op p h s hm
  rw [hh] at hc
  simp only [reply] at hc
  have hmb : s'.mailbox q.mbx = (takenState q op p s).mailbox q.mbx := by unfold State.mailbox; rw [hb]
  have hnow : s'.now = s.now := by simp [State.now, ht]
  have hone : slotsOf (s.mailbox q.mbx).encV1 0 = 1 := by cases (s.mailbox q.mbx).encV1 <;> rfl
  have hmail := writeResponse_mailbox q.mbx (takenTask q op s) st true false false data
    (writeResponse q.mbx (takenTask q op s) stPending false false false [] s')
  rw [← hc, writeResponse_mailbox, hmb, takenState_mailbox] at hmail
  simp only [List.length_nil, hone] at hmail
  have h16 : ((s.mailbox q.mbx).rspTail + 1) % 2 ^ 16 % 16 = ((s.mailbox q.mbx).rspTail + 1) % 16 := by omega
  rw [h16, responseBytes_now (s := s) (u := s') hnow, responseBytes_now (s := s)
    (u := writeResponse q.mbx (takenTask q op s) stPending false false false [] s') hnow] at hmail
  refine ⟨⟨?_, ?_, ?_, ?_, ?_, ?_⟩, ?_, ?_⟩
  · rw [hmail]
    have e := ringLoad_ringStore (s.mailbox q.mbx).rspRing (64 * ((s.mailbox q.mbx).rspTail % 16))
      (responseBytes (s.mailbox q.mbx).encV1 s (takenTask q op s) stPending false false false [])
      (by rw [responseBytes_length, List.length_nil]; split <;> omega)
    rw [responseBytes_length, List.length_nil, Nat.add_zero] at e
    refine Eq.trans ?_ e
    refine List.map_congr_left fun i hi => ringStore_other _ _ _ _ ?_
    have hi := List.mem_range.mp hi
    have h16' : (if (s.mailbox q.mbx).encV1 = true then 8 else 16) ≤ 16 := by split <;> omega
    intro j hj
    rw [responseBytes_length] at hj
    omega
  · rw [hmail, ← responseBytes_length (s.mailbox q.mbx).encV1 s (takenTask q op s) st true false false data]
    exact ringLoad_ringStore _ _ _ (by rw [responseBytes_length]; omega)
  · rw [hmail]; simp
  · rw [hmail]; simp only [hm.2.2.1]
  · rw [hmail]
  · intro m hne
    rw [hc, writeResponse, modMailbox_mailbox_ne _ _ _ _ hne, writeResponse, modMailbox_mailbox_ne _ _ _ _ hne,
      ← takenState_other q op p s m hne]
    unfold State.mailbox; rw [hb]
  · rw [hc]; rfl
  · rw [hmail]

/-- The same as an answer. -/
theorem answers_pend {c : Instr} {q : CmdCtx} {op : Nat} {p : List Byte} {h : State → State × Reply} {s s' : State} {st : Nat}
    {data : List Byte} (hx : exec c s = effect (command q op p h) s) (hm : MayIssue q op p.length s)
    (hh : h (takenState q op p s) = (s', .pend st data)) (hb : s'.mbx = (takenState q op p s).mbx)
    (ht : s'.tim.tick = s.tim.tick) (hp : s'.pending = s.pending) (hf : s'.fuse = s.fuse)
    (hd : (if (s.mailbox q.mbx).encV1 then 8 else 16) + data.length ≤ 960) :
    Answers c s fun t => RepliedBoth q op st data s t ∧ t = { s' with mbx := t.mbx } := by
  obtain ⟨h1, h2, _⟩ := replied_pend q op p h s s' st data hm hh hb ht hd
  refine ⟨_, hx, ?_⟩
  have e : ({ command q op p h s with pending := s.pending, fuse := s.fuse } : State) = command q op p h s := by
    rw [h2, ← hp, ← hf]
  rw [e]
  exact ⟨h1, h2⟩

/-- An opcode row whose handler only reads. -/
theorem answers_read {c : Instr} {q : CmdCtx} {op : Nat} {p : List Byte} {h : State → State × Reply} {s : State} {st : Nat}
    {data : List Byte} (hx : exec c s = effect (command q op p h) s) (hm : MayIssue q op p.length s)
    (hh : h (takenState q op p s) = (takenState q op p s, .done st data))
    (hd : (if (s.mailbox q.mbx).encV1 then 8 else 16) + data.length ≤ 1024) :
    Answers c s fun t => Replied q op st true data s t ∧ TakenFrom q.mbx op s t := by
  obtain ⟨t, h1, h2, h3⟩ := answers_done hx hm hh rfl (by simp) (by simp) (by simp) hd
  refine ⟨t, h1, h2, ?_⟩
  have h4 := takenState_taken q op p s
  unfold TakenFrom at h4 ⊢
  rw [h3, h4]

end Sys2Proof.Machine
end

