-- ==== Sys2Proof/Laws/Settle.lean ====
section
/-! SUPPORT. What bringing the readiness words in line (R31, R34, R36) leaves alone: `settle` changes readiness, the
governor's books, the pager's slots, queues and tiles, contexts and events, and nothing else. -/

namespace Sys2Proof.Machine

/-- The part of the state that `settle` and what it sets off never change. -/
def stillPart (s : State) :=
  (s.clk, s.lan, s.boot, s.spd, s.sec, s.fuse, s.free, s.pending,
    (s.eng.imem, s.eng.dmem, s.eng.clusters, s.eng.pins),
    ({ s.dev with ready := {}, lost := 0, clockSeen := false } : Dev), ({ s.noc with fences := [], waiting := [], replies := [] } : Noc),
    (s.ddr.subs, s.ddr.wins), (s.fab.plls, s.fab.words, s.fab.mems, s.fab.scrub, s.fab.frames, s.fab.dieLines),
    (s.sor.running, s.sor.restarting, s.sor.restart, s.sor.modeChange, s.sor.commands))

theorem still_finishIf (p : Task → Bool) (st : Task → Nat) (l : Task → Bool) (data : List Byte) (s : State) :
    stillPart (finishIf p st l data s) = stillPart s := by rw [finishIf_frame]; rfl
theorem still_reapStops (s : State) : stillPart (reapStops s) = stillPart s := by rw [reapStops_frame]; rfl
theorem still_raiseEvent (n : Nat) (s : State) : stillPart (raiseEvent n s) = stillPart s := by
  unfold raiseEvent
  split
  · dsimp only
    split <;> split <;> rfl
  · rfl
theorem still_faultCtx (n k code detail : Nat) (s : State) : stillPart (faultCtx n k code detail s) = stillPart s := by
  unfold faultCtx; rw [still_raiseEvent]; rfl
theorem still_forEach (l : List Nat) (f : Nat → State → State) (h : ∀ i s, stillPart (f i s) = stillPart s) (s : State) :
    stillPart (forEach l f s) = stillPart s := forEach_keeps stillPart l f h s
theorem still_foldl {α : Type} (l : List α) (f : State → α → State) (h : ∀ s a, stillPart (f s a) = stillPart s)
    (s : State) : stillPart (l.foldl f s) = stillPart s := by
  induction l generalizing s with
  | nil => rfl
  | cons a l ih => rw [List.foldl_cons, ih, h]
theorem still_timeInvalid (s : State) : stillPart (timeInvalid s) = stillPart s := by
  unfold timeInvalid
  dsimp only
  refine (still_foldl _ _ (fun a e => still_faultCtx _ _ _ _ _) _).trans ?_
  refine still_forEach _ _ ?_ _
  intro i s
  rfl
theorem still_onClockSet (s : State) : stillPart (onClockSet s) = stillPart s := rfl
theorem still_onCurrentSet (s : State) : stillPart (onCurrentSet s) = stillPart s := by
  unfold onCurrentSet
  refine (still_forEach _ _ ?_ _).trans ?_
  · intro i s; rfl
  · rfl
theorem still_request (kind index credits : Nat) (s : State) : stillPart (request kind index credits s) = stillPart s := by
  unfold request
  dsimp only
  split
  · unfold rejectRequest; rw [still_raiseEvent]; rfl
  · rfl
theorem still_withdraw (kind index : Nat) (s : State) : stillPart (withdraw kind index s) = stillPart s := rfl
theorem still_giveBack (kind index n : Nat) (s : State) : stillPart (giveBack kind index n s) = stillPart s := rfl
theorem still_noteChoice (i : Nat) (s : State) : stillPart (noteChoice i s) = stillPart s := rfl
theorem still_chooseLoad (i p : Nat) (s : State) : stillPart (chooseLoad i p s) = stillPart s := by
  unfold chooseLoad
  dsimp only
  rw [still_request]
  exact still_noteChoice i s
theorem still_startDrain (i : Nat) (s : State) : stillPart (startDrain i s) = stillPart s := by
  unfold startDrain
  refine (still_forEach _ _ ?_ _).trans ?_
  · intro i s; rfl
  · rfl
theorem still_breakIdle (i : Nat) (s : State) : stillPart (breakIdle i s) = stillPart s := by
  unfold breakIdle; split <;> rfl
theorem still_evaluate (i : Nat) (s : State) : stillPart (evaluate i s) = stillPart s := by
  unfold evaluate
  split
  · rfl
  dsimp only
  split
  · split
    · split
      · rw [still_chooseLoad]; rfl
      · rfl
    · rfl
  split
  · rfl
  split
  · split
    · exact still_chooseLoad _ _ _
    · rfl
  split
  · rw [apply_ite stillPart, still_startDrain, ite_self]
  · rfl
theorem still_evaluateAll (s : State) : stillPart (evaluateAll s) = stillPart s := still_forEach _ _ still_evaluate s
theorem still_refreshPers (p : Nat) (s : State) : stillPart (refreshPers p s) = stillPart s := by
  unfold refreshPers
  split
  · rfl
  · dsimp only
    rw [still_evaluate, still_breakIdle]
    split <;> rfl
theorem still_queueChanged (q : Nat) (s : State) : stillPart (queueChanged q s) = stillPart s := by
  unfold queueChanged
  dsimp only
  split
  · exact still_refreshPers _ _
  · rfl
theorem still_answerPop (o : Origin) (q code outcome index : Nat) (item : BitVec 256) (s : State) :
    stillPart (answerPop o q code outcome index item s) = stillPart s := by
  unfold answerPop
  dsimp only
  split
  · rfl
  · rfl
  · split <;> rfl
theorem still_answerHeld (q code : Nat) (s : State) : stillPart (answerHeld q code s) = stillPart s := by
  unfold answerHeld
  dsimp only
  split
  · exact still_foldl _ _ (fun a o => still_answerPop _ _ _ _ _ _ _) s
  · exact still_foldl _ _ (fun a o => still_answerPop _ _ _ _ _ _ _) s
theorem still_queueCause (q b : Nat) (s : State) : stillPart (queueCause q b s) = stillPart s := by
  unfold queueCause
  dsimp only
  split
  · rw [still_raiseEvent]; rfl
  · rfl
theorem still_faultQueue (q : Nat) (s : State) : stillPart (faultQueue q s) = stillPart s := by
  unfold faultQueue
  split
  · rw [still_queueChanged, still_answerHeld, still_queueCause]; rfl
  · rfl
theorem still_faultPages (p : Nat → Bool) (s : State) : stillPart (faultPages p s) = stillPart s :=
  still_forEach _ _ still_faultQueue s

/-- R31, R34, R36: what `settle` leaves alone. -/
theorem still_settle (s : State) : stillPart (settle s) = stillPart s := by
  unfold settle
  extract_lets old r
  split
  · rfl
  · rw [still_raiseEvent]
    have step (c : Prop) [Decidable c] (f : State → State) (h : ∀ s, stillPart (f s) = stillPart s) (s : State) :
        stillPart (if c then f s else s) = stillPart s := by split; exact h s; rfl
    rw [step _ evaluateAll still_evaluateAll, step _ (faultPages fun _ => true) (still_faultPages _),
      step _ (fun s => reapStops (timeInvalid s)) (fun s => by rw [still_reapStops, still_timeInvalid]),
      step _ onCurrentSet still_onCurrentSet, step _ onClockSet still_onClockSet]
    rfl

/-- R652: a change of the mode: the rest but for an armed lifecycle change and event 0. -/
theorem setMode_mode (m : Mode) (s : State) : (setMode m s).dev.mode = m := by
  unfold setMode
  split
  · assumption
  · simp

section
variable (s : State)
@[simp] theorem settle_clk : (settle s).clk = s.clk := congrArg (·.1) (still_settle s)
@[simp] theorem settle_lan : (settle s).lan = s.lan := congrArg (·.2.1) (still_settle s)
@[simp] theorem settle_boot : (settle s).boot = s.boot := congrArg (·.2.2.1) (still_settle s)
@[simp] theorem settle_spd : (settle s).spd = s.spd := congrArg (·.2.2.2.1) (still_settle s)
@[simp] theorem settle_sec : (settle s).sec = s.sec := congrArg (·.2.2.2.2.1) (still_settle s)
@[simp] theorem settle_fuse : (settle s).fuse = s.fuse := congrArg (·.2.2.2.2.2.1) (still_settle s)
@[simp] theorem settle_free : (settle s).free = s.free := congrArg (·.2.2.2.2.2.2.1) (still_settle s)
@[simp] theorem settle_pending : (settle s).pending = s.pending := congrArg (·.2.2.2.2.2.2.2.1) (still_settle s)
@[simp] theorem settle_imem : (settle s).eng.imem = s.eng.imem := congrArg (·.2.2.2.2.2.2.2.2.1.1) (still_settle s)
@[simp] theorem settle_dmem : (settle s).eng.dmem = s.eng.dmem := congrArg (·.2.2.2.2.2.2.2.2.1.2.1) (still_settle s)
@[simp] theorem settle_clusters : (settle s).eng.clusters = s.eng.clusters :=
  congrArg (·.2.2.2.2.2.2.2.2.1.2.2.1) (still_settle s)
@[simp] theorem settle_pins : (settle s).eng.pins = s.eng.pins := congrArg (·.2.2.2.2.2.2.2.2.1.2.2.2) (still_settle s)
@[simp] theorem settle_mode : (settle s).dev.mode = s.dev.mode :=
  congrArg (·.2.2.2.2.2.2.2.2.2.1.mode) (still_settle s)
@[simp] theorem settle_holdCause : (settle s).dev.holdCause = s.dev.holdCause :=
  congrArg (·.2.2.2.2.2.2.2.2.2.1.holdCause) (still_settle s)
@[simp] theorem settle_holdCauses : (settle s).dev.holdCauses = s.dev.holdCauses :=
  congrArg (·.2.2.2.2.2.2.2.2.2.1.holdCauses) (still_settle s)
@[simp] theorem settle_holdTick : (settle s).dev.holdTick = s.dev.holdTick :=
  congrArg (·.2.2.2.2.2.2.2.2.2.1.holdTick) (still_settle s)
@[simp] theorem settle_holdLow : (settle s).dev.holdLow = s.dev.holdLow :=
  congrArg (·.2.2.2.2.2.2.2.2.2.1.holdLow) (still_settle s)
@[simp] theorem settle_busyTiles : (settle s).dev.busyTiles = s.dev.busyTiles :=
  congrArg (·.2.2.2.2.2.2.2.2.2.1.busyTiles) (still_settle s)
@[simp] theorem settle_subs : (settle s).ddr.subs = s.ddr.subs := congrArg (·.2.2.2.2.2.2.2.2.2.2.2.1.1) (still_settle s)
@[simp] theorem settle_wins : (settle s).ddr.wins = s.ddr.wins := congrArg (·.2.2.2.2.2.2.2.2.2.2.2.1.2) (still_settle s)
end

@[simp] theorem settle_cluster (s : State) (i : Nat) : (settle s).cluster i = s.cluster i := by
  unfold State.cluster; rw [settle_clusters]
@[simp] theorem settle_pin (s : State) (i : Nat) : (settle s).pin i = s.pin i := by
  unfold State.pin; rw [settle_pins]
@[simp] theorem settle_quad (s : State) (i : Nat) : (settle s).quad i = s.quad i := by
  unfold State.quad; rw [settle_lan]
@[simp] theorem settle_lane (s : State) (i : Nat) : (settle s).lane i = s.lane i := by
  unfold State.lane; rw [settle_lan]
@[simp] theorem settle_port (s : State) (i : Nat) : (settle s).port i = s.port i := by
  unfold State.port; rw [settle_lan]
@[simp] theorem settle_bank (s : State) (i : Nat) : (settle s).bank i = s.bank i := by
  unfold State.bank; rw [settle_spd]
@[simp] theorem settle_sgroup (s : State) (i : Nat) : (settle s).sgroup i = s.sgroup i := by
  unfold State.sgroup; rw [settle_spd]
@[simp] theorem settle_sub (s : State) (i : Nat) : (settle s).sub i = s.sub i := by
  unfold State.sub; rw [settle_subs]

end Sys2Proof.Machine
end

