-- ==== Sys2Proof/Tests/Slice0.lean ====
section
/-! SUPPORT. Tests: what each well-formedness check refuses, the worked examples of the spec, and for every statement with
hypotheses a concrete state and operands that meet all of them (`witness_<Name>`; its clauses stand in the statement's
order). Expected results come from the spec's examples and tables. -/

namespace Sys2Proof.Tests

open Sys2Proof.Machine

set_option Elab.async false

def nextOf (o : Host.Outcome State Fault Refusal) : State := match o with | .next t => t | _ => {}

def Q : CmdCtx := { mbx := 0, seq := 0, tag := 5, ordered := false, deadline := 0 }
/-- Running in RUN mode, with clocks, current and Sorrel. -/
def B0 : State := { State.reset with
  dev := { State.reset.dev with mode := .run, powered := true, clockSeen := true }
  clk := { State.reset.clk with lock := true, phase := .running, xoRun := true, refclk := ⟨true, true⟩, xo := ⟨true, true⟩
                                div0 := ⟨32, 32, 32⟩, div1 := ⟨64, 64, 128⟩, div2 := ⟨128, 128, 256⟩, div3 := ⟨256, 256, 256⟩ }
  gov := { State.reset.gov with granting := true, standing := true }
  sor := { State.reset.sor with running := true, uptimeOn := true }
  tim := { State.reset.tim with running := true, tick := 100000 * 2 ^ 48 } }
def B : State := { B0 with dev := { B0.dev with ready := derive B0 } }
/-- `B` with other parts. -/
def Bc (f : Clk → Clk) : State := { B with clk := f B.clk }
def Bd (f : Dev → Dev) : State := { B with dev := f B.dev }
def Bg (f : Gov → Gov) : State := { B with gov := f B.gov }
def Bt (f : Tim → Tim) : State := { B with tim := f B.tim }
def BR : State := { B with dev := { B.dev with ready := { clock := true, current := true, sorrel := true, pcie := true, events := true, timebase := true, timeValid := true, scratch := true, queues := true, qspill := true, scrubber := true, spanPager := true, lanes := true, fabric := true, ddrCh := 255, engCluster := 4095, ethPort := 255 } } }
/-- A section table of these kinds, 64 bytes each. -/
def tab (ks : List Nat) : List SectionEntry := (ks.zip (List.range ks.length)).map fun p => ⟨p.1, true, 0x600 + 64 * p.2, 64⟩
/-- An unsigned container header of these kinds. -/
def hdr (ks : List Nat) (frames order : Nat) : Header :=
  { magic := 0x52555447, version := 2, headerLen := 0x600, deviceType := 0x00EF0960, signed := false, unitBound := false
    debug := false, chainMore := false, zeroOk := true, unitId := 0, totalLen := 0x1000, frameCount := frames,
        startOrder := order
    sectionCount := ks.length, stallTimeout := 0, imageVersion := 1, buildId := 7, sections := tab ks, keyHash := 0,
        sigOk := false }
def hBase : Header := hdr [0x03, 0x13, 0x14, 0x15, 0x10] 19712 0b11100100
def hFw : Header := hdr [1, 4] 0 0
def hSpan : Header := hdr [0x20] 0 0
def stg : Staged := ⟨0, true, true, 0⟩
/-- `BR` with DRAM of channel 0 in window 0 and every right for class 0. -/
def BD : State := { BR with
  ddr := { BR.ddr with wins := [(0, 2 ^ 31)], chans := [(0, { state := .ready, populated := true })] }
  sec := { BR.sec with acc := { BR.sec.acc with entries := [(0, ⟨true, false, true, true, 0, 0, 0, 0, 0x1FFFFFFF⟩)] } } }
/-- LOAD, with boot state `f`. -/
def Lf (f : Boot
    → Boot) : State := { B with dev := { B.dev with mode := .load }, sor := { B.sor with running := false }, boot := f B.boot }
def Bb (f : Boot → Boot) : State := { BD with boot := f BD.boot }
def Fb (f : Fab → Fab) : State := { BD with fab := f BD.fab }
def Sb (f : Spn → Spn) : State := { BD with spn := f BD.spn }
def A0 : Nat := 0x10000000000
/-- Context 3 of engine 95 is about to issue `i` from the last word of its memory. -/
def En (i : EngInstr) (regs : List (Nat × BitVec 64)) (f : Ctx → Ctx := id) : State := { BR with
  eng := { BR.eng with
    clusters := [(11, { state := .on })], ctxs := [(383, f { state := .ready, pc := 8191, regs })]
    imem := [(393215, { data := BitVec.ofNat 64 (i.encode * 2 ^ 32) })] } }
/-- Queue 65535 is `x`, with `f` of the queue manager. -/
def Qu (x : Queue) (f : Qm
    → Qm := id) : State := { BD with qm := f { BD.qm with queues := [(65535, x)], vpages := 64, banks := 3 } }
def rq (half : Nat) : Req := ⟨⟨0, 0⟩, 3, half, 32, List.replicate 32 7, 2 ^ 32 - 1⟩
/-- An active queue of 4 pages. -/
def qx : Queue := { state := .active, access := 0xFF, capacity := 512, pageBase := 8, pageCount := 4, prefetch := 1 }
/-- An EDGE at tick `v` of pin 959, which is `x`. -/
def Ed (x : Pin) (v : Nat) : State := { En (.edge 15 1 15 959) [(15, BitVec.ofNat 64 v)] with
  boot := { BR.boot with stepsDone := 15 }
  eng := { (En (.edge 15 1 15 959) [(15, BitVec.ofNat 64 v)]).eng with pins := [(959, { x with sched := true, owner := 95 })] } }
/-- Cluster 11 is `x`. -/
def Cl (x : Cluster) (f : Eng → Eng := id) : State := { BR with eng := f { BR.eng with clusters := [(11, x)] } }
/-- The network, with `f`. -/
def No (f : Noc → Noc) : State := { BR with noc := f BR.noc }
def inj (port op : Nat) : Inject := ⟨port, ⟨0, 0⟩, op, 5, 65535, 31, 0, 0, 0, []⟩
def pkt0 : Packet := packetOf (inj 858 9) 860 false
def Bs (f : Spd → Spd) : State := { BR with spd := f BR.spd }
def scr (size k o : Nat) : Req := ⟨⟨0, 0⟩, 3, 0x100000000 + 32 * k + 8 * o, size, List.replicate size 7, 2 ^ size - 1⟩
def Dd (f : Ddr → Ddr) : State := { BD with ddr := f BD.ddr }
/-- Channel 7 is `x`, subchannel 15 is `y`. -/
def Ch (x : Chan) (y : SubCh := {}) (f : Ddr
    → Ddr := id) : State := { BR with ddr := f { BR.ddr with chans := [(7, { x with populated := true })], subs := [(15, y)] } }
def dr (size off : Nat) : Req := ⟨⟨0, 0⟩, 3, 0x10000000000 + off, size, List.replicate size 7, 2 ^ size - 1⟩
/-- Stream lane 79 of a quad in STREAM. -/
def Ln (x : Lane) (m : Nat := 2) : State := { BR with lan := { BR.lan with quads := [(19, { state := .on, qmode := m })], lanes := [(79, x)] } }
def rx0 : Lane := { rxEn := true, rxLock := true, rxSize := 12 }
def tx0 : Lane := { txEn := true, txSize := 12 }
def Qd (x : Quad) (f : Lan → Lan := id) : State := { BR with lan := f { BR.lan with quads := [(11, x)] } }
/-- Ethernet port 7 up, its first lane `x`. -/
def Et (x : Lane) (y : Port := { linkUp := true }) : State := { BR with
  lan := { BR.lan with quads := [(11, { state := .on, qmode := 4 })], lanes := [(44, x)], ports := [(7, y)] } }
def frm (n : Nat) (ty : List Byte) : List Byte := [2, 0, 0, 0, 0, 9] ++ List.replicate 6 1 ++ ty ++ List.replicate (n - 14) 0
def wire (f : List Byte) : List Byte := f ++ leBytes 4 (fcsOf f)
def Mb (m : Nat) (x : Mailbox) : State := { B with mbx := [(m, x)] }
def Dv (f : Dev → Dev) : State := { BR with dev := f BR.dev }
/-- Bytes from A0 on in channel 0, waiting in its write queues. -/
def Pu (b : List Byte) (s : State) : State :=
  let lines := (List.range ((b.length + 63) / 64)).map fun i => (i / 2, BitVec.ofNat 640 (ofLe ((b.drop (64 * i)).take 64)),
      i % 2)
  { s with ddr := { s.ddr with subs := (List.range 2).map fun u =>
      (u, { queue := lines.filterMap fun l => if l.2.2 = u then some (l.1, l.2.1) else none }) } }
/-- A container header's bytes. -/
def hb (ks : List Nat) (frames : Nat) (l : Nat := 64) : List Byte :=
  payloadAt 0x600 ([(0, 4, 0x52555447), (4, 2, 2), (6, 2, 0x600), (8, 4, 0x00EF0960), (0x18, 4, 0x1000), (0x1C, 4, frames),
    (0x20, 2, if frames = 0 then 0 else 0xE4), (0x22, 2, ks.length), (0x28, 8, 3), (0x30, 16, 7)]
    ++ (ks.zip (List.range ks.length)).flatMap fun p =>
      [(0x100 + 64 * p.2, 2, p.1), (0x104 + 64 * p.2, 4, 0x600 + l * p.2), (0x108 + 64 * p.2, 4, l)])
/-- A copy of the flash directory. -/
def db (l : List (Nat × Nat × Nat)) : List Byte :=
  let b := payloadAt 0x7C ((0, 4, 0x47524944) :: l)
  b ++ leBytes 4 (~~~ crcBytes (BitVec.allOnes 32) b).toNat
def fl0 : Flash := ⟨db [(4, 4, 7), (0x20, 4, 4096)], db [], 5, 6, 7, 8, 1, 2, 3, 4⟩
/-- LOAD of a container in DRAM at A0, whose bytes are `b`. -/
def Ld (b : List Byte) (f : Boot → Boot) : State :=
  Pu b { BD with dev := { BD.dev with mode := .load }
                 boot := f { BD.boot with kind := .base, fromDram := true, loadAddr := A0, loadLen := 4096, loadWindows := [(0, 2 ^ 31)] } }
/-- LOAD from flash slots of 1 MiB. -/
def Lb (f : Boot → Boot) : State := Lf fun b => f { b with
  kind := .base,
      dir := { b.dir with valid := true, baseASize := 2 ^ 20, baseBSize := 2 ^ 20, fwASize := 2 ^ 20, fwBSize := 2 ^ 20 } }
def fh (a n : Nat) : List Byte := payloadAt 16 [(0, 4, a), (4, 4, n)]
def Su (f : Boot
    → Boot) : State := Bb fun b => f { b with dir := { b.dir with valid := true, baseBSize := 4096, fwBSize := 4096 } }
/-- Tile 95 is `x`. -/
def Ti (x : Tile) (f : Fab → Fab := id) : State := { BR with fab := f { BR.fab with tiles := [(95, x)] } }
def on0 : Tile := { state := .on, setReset := false, credits := 16 }
/-- Block memory 47 of tile 95, which is on, is `x`. -/
def Bm (x : BMem) (w : List (Nat × BWord) := []) (y : Tile := { on0 with writesOn := true }) (f : Fab → Fab := id) : State :=
  Ti y fun b => f { b with mems := [(4607, x)], words := w }
/-- A header unit. -/
def hu (op len tag : Nat) : BitVec 256 := BitVec.ofNat 256 (op * 2 ^ 216 + len * 2 ^ 212 + tag * 2 ^ 204)
/-- The block-memory scrubber has come to tile 95. -/
def Sw (x : BMem) (w : List (Nat × BWord) := []) : State :=
  (Bm x w { on0 with writesOn := true } fun b => { b with scrub := { b.scrub with burst := true, tile := 95 } }).modSupply 0 fun u =>
    { u with held := [(9 * 256, 1)] }
/-- `BD` with every right for the pager too. -/
def BP : State := { BD with sec := { BD.sec with acc := { BD.sec.acc with
  entries := [(0, ⟨true, false, true, true, 0, 0, 0, 0, 0x1FFFFFFF⟩), (1, ⟨true, false, true, true, 5, 0, 0, 0,
      0x1FFFFFFF⟩)] } } }
/-- A span header's bytes. -/
def hS (pers tiles cred : Nat) : List Byte := payloadAt 512 [(0, 4, 0x5350414E), (4, 2, 1), (6, 2, pers), (8, 1, 63), (9, 1,
    tiles),
  (0xA, 2, 0xE4), (0xC, 2, cred), (0x14, 4, 19712 * tiles), (0x18, 8, 9)]
def pe0 : Pers := { installed := true, homeSlot := 63, tiles := 1, startOrder := 0xE4, spanCredits := 32, interfaceId := 9
                    imageAddr := A0, imageLen := 2 ^ 21, stateAddr := A0 + 2 ^ 22 }
/-- Slot 63 is `x` with personality 5 that is `p`, over `s`. -/
def Sp (x : Slot) (p : Pers := pe0) (s : State := BP) : State :=
  { s with spn := { s.spn with live := true, westQueue := [63], pers := [(5, p)]
                               slots := [(63, { x with listed := true, defined := true, pers := 5, interfaceId := 9 })] } }
def ld0 : Slot := { state := .loading, headerOk := true, imgPos := 0x200 }
def fv : BitVec 640 := 2 ^ 632
def im (a n : Nat) : List Byte := hS 5 1 32 ++ fh a n ++ leBytes 80 fv.toNat
/-- A staged container with a span section. -/
def cS : List Byte := hb [0x20] 0 2 ++ hS 5 1 32
/-- `En` with the engine `e` and a data memory word. -/
def Ex (i : EngInstr) (regs : List (Nat × BitVec 64)) (f : Ctx
    → Ctx := id) (e : Engine := {}) (dm : List (Nat × EWord) := []) : State :=
  { En i regs f with eng := { (En i regs f).eng with engines := [(95, e)], dmem := dm } }
/-- Context 3 of engine 95 waits for the answer of tag 31, which is `r`. -/
def Wn (r : EngReq) (f : Ctx → Ctx := id) : State :=
  Ex .halt [] (fun c => f { c with state := .waitNoc, wait := .answer, waitTag := 31 }) { reqs := [(31, some r)] }
/-- `s` in HOLD. -/
def Hd (s : State) : State := { s with dev := { s.dev with mode := .hold } }
/-- Flight 3 of the network is `f`. -/
def Fl (f : Flight) (g : Noc → Noc := id) : State := No fun n => g { n with nextId := 4, flight := [(3, some f)] }
/-- Unit 8191 of bank 255, the host's, is `u`. -/
def Bu (u : SUnit) : State := Bs fun p => { p with banks := [(255, { kind := 1 })], units := [(2097151, u)] }
/-- A read of that unit that waits at its bank. -/
def wp (c i t : Nat) : Packet := { pkt0 with addr := 0x103FFFFE0, opcode := 1, srcClass := c, srcIndex := i, tag := t }
/-- `s` in SAFE. -/
def Sf (s : State) : State := { s with dev := { s.dev with mode := .safe } }
/-- `s` with key states. -/
def Ky (ready fail : Bool) (s : State) : State := { s with sec := { s.sec with scm := { s.sec.scm with keyReady := ready, keyFail := fail } } }
/-- `s` with every right for the movers. -/
def Mr (s : State) : State := { s with sec := { s.sec with acc := { s.sec.acc with
  entries := [(0, ⟨true, false, true, true, 4, 0, 0, 0, 0x1FFFFFFF⟩)] } } }
def Rc (p source : Nat) (lock : Bool) : State := { BR with clk := { BR.clk with recovPort := p, source, lock } }
/-- Transmit lane of an Ethernet port with `n` bytes to send. -/
def tE (n : Nat) : Lane := { tx0 with txWptr := n }
def tR (len flags : Nat) : List Byte := leBytes 2 len ++ leBytes 1 flags ++ List.replicate 93 0
def rR : RxWrite := ⟨0, [7], 1, false⟩
/-- `BR` without LANES. -/
def Nl : State := { BR with dev := { BR.dev with ready := { BR.dev.ready with lanes := false } } }
/-- The host port with `f`. -/
def Hp (f : Pci → Pci) (s : State := BR) : State := { s with lan := { s.lan with pci := f s.lan.pci } }
def hr (w : Bool) : HostReq := ⟨0x0FFFFFFC, 0x18007FFFFFC, 4, w, [], false, 1, []⟩
def tk (deadline : Nat) : Task := ⟨0x0504, 9, 5, true, deadline, 3, 2, 4, 0⟩

/-! ### Forms that no decision procedure takes whole -/

theorem allSome {α : Type} {x : Option α} {p : α → Prop} (h : ∀ o ∈ x, p o) : ∀ o, x = some o → p o := h
theorem allHead {α : Type} {l : List α} {p : α → Prop} (h : ∀ a ∈ l, p a) : ∀ a r, l = a :: r → p a :=
  fun _ _ e => h _ (e ▸ List.mem_cons_self ..)
theorem otherNone {α : Type} {k i : Nat} {v : Option α} {q : α} {P : Prop} (h : i ≠ k) :
    tget none [(k, v)] i = some q → P := fun e => by
  simp only [tget, if_neg h] at e
  split at e <;> cases e
theorem cleanUnits (k : Nat) : unitAt (Bs fun p => { p with burst := true, group := 31, nextUnit := 8190 }) k = {} := by
  rw [unitAt, (show (Bs fun p => { p with burst := true, group := 31, nextUnit := 8190 }).spd.units = [] by decide +kernel)]
  rfl
def P1 : Spd := { State.reset.spd with banks := [(0, { kind := 1 })] }
def S1 : State := { BD with spd := P1 }
def zeros : Req := ⟨⟨0, 0⟩, 0, 0x100000000, 32, List.replicate 32 0, 2 ^ 32 - 1⟩
theorem sameSpd {s : State} {p q : Spd} (h : s.spd = p) (e : q = p) : { s with spd := q } = s := by subst e; rw [← h]
/-- Storing zeros into an empty unit of a bank owned by everyone changes nothing. -/
theorem zero_store (s : State) (hm : s.dev.mode = .run) (hr : s.dev.ready.scratch = true) (hs : s.spd = P1) :
    scratchWriteAt zeros [] s = (rOk, s) := by
  have hb : s.bank 0 = { kind := 1 } := by rw [State.bank, hs]; decide +kernel
  have ho : ownershipRefuses s 0 ⟨0, 0⟩ false = none := by
    simp [ownershipRefuses, ownerMatches, hm, hb]
  have he : scratchEnter zeros false false s = (.ok 0, s) := by
    have h1 : scratchOffset zeros.addr = some 0 := by decide +kernel
    have h2 : askew zeros = false := by decide +kernel
    have h3 : zeros.src = ⟨0, 0⟩ := rfl
    have h4 : zeros.size = 32 := rfl
    have h5 : zeros.addr = 4294967296 := rfl
    simp [scratchEnter, h2, hr, h3, h4, moveScratchPointer, h5]
    simp [h5] at h1
    simp [h1, ho]
  have hc : checkPartial zeros 0 [0] s = (some [0], s) := by
    have h1 : wholeUnit zeros 0 = true := by decide +kernel
    simp [checkPartial, h1]
  have hw : storeUnit 0 0 true s = s := by
    have h1 : unitEncode 0 = 0#288 := by decide +kernel
    have h2 : (s.modBank 0 fun x => { x with writeBacks := x.writeBacks.filter fun x => !decide (x = 0) }) = s :=
      sameSpd hs (by rw [hs]; decide +kernel)
    have h3 : unitAt s 0 = {} := by rw [unitAt, hs]; decide +kernel
    have h4 : setUnit 0 ⟨0#288, 0#3⟩ s = s := sameSpd hs (by rw [hs]; decide +kernel)
    have h5 : s.spd.injArm = false := by rw [hs]; decide +kernel
    have h6 : (⟨0#288, 0#3⟩ : SUnit).poisoned = false := by decide +kernel
    simp [storeUnit, h1, h2, h3, h4, h5, h6]
  have hz : mergeUnit zeros 0 0 = 0 ∧ wholeUnit zeros 0 = true ∧ unitsOf zeros 0 = [0] := by decide +kernel
  simp [scratchWriteAt, he, hz, applyUpsets, hc, storeUnits, hw]
theorem zero_write (m : List (Nat × Mailbox)) (u : Sorrel) (a : Lcs) :
    deviceWrite (mbxClass Q.mbx) 2 0x100000000 (List.replicate 32 0)
      { S1 with mbx := m, sor := u, sec := { S1.sec with lcs := a } }
      = (rOk, { S1 with mbx := m, sor := u, sec := { S1.sec with lcs := a } }) := by
  generalize hx : ({ S1 with mbx := m, sor := u, sec := { S1.sec with lcs := a } } : State) = s
  have hm : s.dev.mode = .run := by subst hx; exact (by decide +kernel : S1.dev.mode = .run)
  have hr : s.dev.ready.scratch = true := by subst hx; exact (by decide +kernel : S1.dev.ready.scratch = true)
  have hs : scratchWriteAt zeros [] s = (rOk, s) := zero_store s hm hr (by subst hx; rfl)
  have h1 : s.sec.acc = S1.sec.acc := by subst hx; rfl
  have h2 : S1.sec.acc.old = [] ∧ tablePasses S1.sec.acc.entries 0 0 false true 0x100000000 31 = true := by decide +kernel
  have hj : rightsJudge 0 0 false true 0x100000000 31 s = (true, s) := by simp [rightsJudge, h1, h2]
  have hb : blockWrite 0 0x100000000 (List.replicate 32 0) s = (rOk, s) := by
    unfold blockWrite
    simp only [List.length_replicate, Nat.reduceSub, hj]
    exact hs
  have ht : (List.replicate 32 (0 : Byte)).take (256 - 0x100000000 % 256) = List.replicate 32 0 := by decide
  have hd : (List.replicate 32 (0 : Byte)).drop (256 - 0x100000000 % 256) = [] := by decide
  have hc : mbxClass Q.mbx = 0 := by decide
  simp only [hc, deviceWrite, ht, hd, hb]
  rw [if_neg (by decide)]
  simp
theorem emptyBit (s : State) (h : s.fab.frames = []) (t : Nat) (x : ConfigItem) (j : Nat) : configBit s t x j = false := by
  have hp : Config.logicBit x j % (13564 * 640) / 640 < 13564 := by omega
  simp only [configBit]
  generalize Config.logicBit x j % (13564 * 640) / 640 = f at hp
  simp [readFrame, show ¬(13568 ≤ 4 + f) by omega, h]
theorem emptyNat (s : State) (h : s.fab.frames = []) (t : Nat) (x : ConfigItem) (n : Nat) : configNat s t x n = 0 := by
  have : ∀ l : List Nat, l.foldl (fun a (_ : Nat) => a) 0 = 0 := by intro l; induction l <;> simp_all
  simp [configNat, emptyBit s h, b2n, this]
theorem linkSet : configOn (Fb fun f => { f with frames := [(frameKey 0 (4 + (Config.logicBit (.carryLink 0 1) 0 % (13564 * 640)) / 640), BitVec.allOnes 640)] }) 0 (.carryLink 0 1) = true := by
  have hp : Config.logicBit (.carryLink 0 1) 0 % (13564 * 640) / 640 < 13564 := by omega
  simp only [configOn, configBit]
  generalize Config.logicBit (.carryLink 0 1) 0 % (13564 * 640) / 640 = f at hp
  have hb : Config.logicBit (.carryLink 0 1) 0 % 640 < 640 := Nat.mod_lt _ (by decide)
  rw [show Config.logicBit (.carryLink 0 1) 0 % (13564 * 640) % 640 = Config.logicBit (.carryLink 0 1) 0 % 640 from Nat.mod_mul_left_mod ..]
  rw [readFrame, if_neg (by omega)]
  simp only [Fb, tget, Nat.lt_irrefl, if_false, if_true, BitVec.getLsbD_allOnes, hb, decide_true]
theorem notHeld (s : State) (t gx gy cs : Nat) (h : (s.tile t).setReset = false ∧ (s.tile t).releasing = false) :
    heldReset s t gx gy cs = false := by simp [heldReset, h]
theorem stoppedTile (s : State) (t : Nat) (x : Sink) (h : tileClocks s t = false) : clockRuns s t x = false := by
  simp only [clockRuns, lineRuns, h]
  split <;> rfl
theorem crcFv : crcBytes (BitVec.allOnes 32) (leBytes 80 fv.toNat) = 115070863 := by
  have h : leBytes 80 fv.toNat = List.replicate 16 0 ++ List.replicate 16 0 ++ List.replicate 16 0 ++ List.replicate 16 0
      ++ (List.replicate 15 0 ++ [1]) := by decide +kernel
  have a : crcBytes (BitVec.allOnes 32) (List.replicate 16 0) = 323269802 := by decide +kernel
  have b : crcBytes 323269802 (List.replicate 16 0) = 3874859602 := by decide +kernel
  have c : crcBytes 3874859602 (List.replicate 16 0) = 225922154 := by decide +kernel
  have d : crcBytes 225922154 (List.replicate 16 0) = 2322767049 := by decide +kernel
  have e : crcBytes 2322767049 (List.replicate 15 0 ++ [1]) = 115070863 := by decide +kernel
  unfold crcBytes at *
  simp only [List.foldl_append] at e
  simp only [h, List.foldl_append, a, b, c, d, e]
def barePager : State := { Sp { state := .saving } pe0 BD with sec := { BD.sec with acc := { BD.sec.acc with entries := [] } } }
/-- With an empty rights table the pager's first write of a save is refused. -/
theorem saveRefused (p j t : Nat) (s : State) (hw : s.fab.words = [])
    (he : s.sec.acc.entries = []) (ho : s.sec.acc.old = []) :
    ∃ a, saveTile p j t 6912 s = (rRights, recordViolation 5 0 true a (noteCaptured p t s)) := by
  have hc : captureErrors t s = s := by simp [captureErrors, hw]
  have hj : ∀ a l (u : State), u.sec = s.sec → rightsJudge 5 0 false true a l u = (false, u) := by
    intro a l u hu
    simp only [rightsJudge, hu, ho, he, tablePasses]
    simp
    exact ⟨0, by omega⟩
  have hs : ∀ (d : List Byte) (b : Nat) (u : State), 0 < d.length → u.sec = s.sec →
      ∃ a, storeWrite d b (blockParts b d.length) u = (rRights, recordViolation 5 0 true a u) := by
    intro d b u hl hu
    cases hb : blockParts b d.length with
    | nil => exact absurd (congrArg List.length hb) (by simp [blockParts]; omega)
    | cons x l => exact ⟨x.1, by simp [storeWrite, hj _ _ u hu]⟩
  unfold saveTile
  rw [hc]
  exact hs _ _ _ (by simp [saveRecord, leBytes]) rfl
theorem savesRefused (p t n : Nat) (s : State) (hn : n = 6912) (hw : s.fab.words = [])
    (he : s.sec.acc.entries = []) (ho : s.sec.acc.old = []) :
    ∃ a, saveTiles p n 0 [t] s = (rRights, recordViolation 5 0 true a (noteCaptured p t s)) := by
  obtain ⟨a, h⟩ := saveRefused p 0 t s hw he ho
  rw [← hn] at h
  refine ⟨a, ?_⟩
  rw [saveTiles, if_neg (by omega), Nat.mul_zero, Nat.sub_zero, h]
  exact if_pos (by decide)
theorem refusedMode (a p t : Nat) (s : State) :
    (recordViolation 5 0 true a (noteCaptured p t s)).dev = s.dev := by
  simp [recordViolation, noteCaptured, raiseEvent_dev]
theorem saveWitness : ∃ (i : Nat) (code : Nat) (up : List (Nat × BitVec 72)) (s : State) (u : State),
    inSlotState s i .saving = true ∧ hasPort s i = true ∧ code ≠ 0
    ∧ saveTiles (s.slot i).pers (6912 * tileCount (s.slot i)) 0 (slotTiles (s.slot i))
      (startSave (s.slot i).pers (upsetSlot i up s)) = (code, u)
    ∧ u.dev.mode ≠ .hold := by
  obtain ⟨a, h⟩ := savesRefused 5 0 6912 (startSave 5 barePager) rfl (by decide +kernel) (by decide +kernel) (by decide +kernel)
  have ht : (barePager.slot 63).pers = 5 ∧ slotTiles (barePager.slot 63) = [0]
      ∧ 6912 * tileCount (barePager.slot 63) = 6912 := by
    decide +kernel
  refine ⟨63, rRights, [], barePager, recordViolation 5 0 true a (noteCaptured 5 0 (startSave 5 barePager)),
      by decide +kernel, by decide +kernel, by decide, ?_, ?_⟩
  · rw [ht.1, ht.2.1, ht.2.2]
    exact h
  · rw [refusedMode]
    decide +kernel
theorem erred {α : Type} {e : Except Nat α} {u : Nat}
    (h : (match e with | .error v => v == u | .ok _ => false) = true) : e = .error u := by
  cases e <;> simp_all
theorem rangePlain (rd wr : Bool) (a l : Nat) (s : State) (hl : l ≠ 0) (ho : s.sec.acc.old = [])
    (ht : tablePasses s.sec.acc.entries 0 0 rd wr a (l - 1) = true)
    (hd : ((dramTarget s a).isNone || (dramTarget s (a + l - 1)).isNone) = false)
    (hc : ((channelsOf s a l).all fun c => s.dev.ready.ddrCh.getLsbD c) = true) : RangePlain 0 rd wr a l s := by
  intro m u x
  rw [rangeAccess, if_neg hl]
  have hj : rightsJudge 0 0 rd wr a (l - 1) { s with mbx := m, sor := u, sec := { s.sec with lcs := x } }
      = (true, { s with mbx := m, sor := u, sec := { s.sec with lcs := x } }) := by
    simp [rightsJudge, ho, ht]
  have hd' : ((dramTarget { s with mbx := m, sor := u, sec := { s.sec with lcs := x } } a).isNone
    || (dramTarget { s with mbx := m, sor := u, sec := { s.sec with lcs := x } } (a + l - 1)).isNone) = false := hd
  have hc' : ((channelsOf { s with mbx := m, sor := u, sec := { s.sec with lcs := x } } a l).all
    fun c => s.dev.ready.ddrCh.getLsbD c) = true := hc
  simp only [hj, hd', hc']
  rfl

/-! ### Checks of well-formedness: each check refuses a term that breaks it alone -/

def oneBad (l : List Instr) : Bool := l.all fun i => !i.wf
def q5 : CmdCtx := ⟨18, 0, 0, false, 0⟩

theorem test_wf_headers : ([⟨18, 0, 0, false, 0⟩, ⟨0, 65536, 0, false, 0⟩, ⟨0, 0, 2 ^ 32, false, 0⟩, ⟨0, 0, 0, false, 2 ^ 32⟩] :
    List CmdCtx).all (fun q => !q.wf) = true := by decide +kernel
theorem test_wf_requests : oneBad [.scratchRead { scr 32 0 0 with size := 257 } [],
    .dramRead { scr 32 0 0 with src := ⟨8, 0⟩ } [] true,
    .scratchWrite { scr 32 0 0 with size := 31 } [], .queuePush { scr 32 0 0 with enables := 2 ^ 256 } 0,
    .dramWrite { scr 32 0 0 with addr := 2 ^ 64 } [] true, .queuePop { scr 32 0 0 with src := ⟨0, 128⟩ } 0,
        .queuePush (scr 32 0 0) 2,
    .nocInject (inj 1024 1), .nocInject { inj 860 1 with dest := 1024 }, .nocInject (inj 860 256),
        .nocInject { inj 860 1 with addr := 2 ^ 64 },
    .nocInject { inj 860 1 with data := List.replicate 9 0 }, .nocInject { inj 860 1 with src := ⟨8, 0⟩ },
    .scratchAtomicAdd { scr 8 0 0 with size := 257 } [],
        .scratchAtomicSwap { scr 8 0 0 with size := 257 } []] = true := by decide +kernel
theorem test_wf_system : oneBad [.porNRelease true 8 true, .resetReleaseTimer true 8 true, .cfgRestart 8 true, .holdTileIdle 96,
    .registerWrite .sorrel (2 ^ 26) 4 0 true, .registerWrite .sorrel 0 1 256 true, .latchedLoRead ⟨8, 0⟩ 0 0,
    .latchedLoRead ⟨0, 0⟩ 0 (2 ^ 26), .dividerRampStep 4, .sourceTestDone 2 0 true, .clockMonitorTrip 4, .clkTrimDivWrite 4 0,
    .clkTrimDivWrite 0 65536, .clkStatus q5, .clkReturn q5, .clkSourceSet Q 256 0 0 0 0, .clkTrimSet Q 0 0 65536,
        .clkTest Q 0 256,
    .govLongWait 3, .curClrPeak 3, .curStatus q5, .curQueueRead Q 0 65536, .curHoldings Q 256, .accSetEntry Q 0 0 0 (2 ^ 32),
    .accGetEntry Q 256, .accViolLog q5, .scmStatus q5, .lcsArm Q 256, .lcsCommit Q 0 65536, .evtRaise 384, .evtVecAck 64,
        .msixSend 64,
    .mbxDoorbell 18 0, .mbxRspHeadWrite 0 65536, .mbxDeadline 18 0, .mbxTakeCommand 18 stg, .mbxResync 18,
        .mbxEncV1Write 18 true,
    .spiFrame 256 0 0 [], .spiFrame 0 (2 ^ 24) 0 [], .i2cFrame 128 true 0 0 [], .i2cFrame 0 true (2 ^ 24) 0 [], .devIdentify q5,
    .devHold q5, .devReset q5, .diagSorrel q5, .devModeSet Q 256, .mbxStatus Q 256, .diagEcho Q (List.replicate 241 0),
    .diagRead Q (2 ^ 64) 4, .diagWrite Q 0 4 (List.replicate 225 0), .diagRaise Q 65536,
        .diagEventLog Q 65536] = true := by decide +kernel
theorem test_wf_loading_fabric_spans : oneBad [.cfgFrame (List.replicate 17 0) 0 [], .cfgPllLockTimeout 24, .cfgStatus q5,
    .cfgBaseTrial q5,
    .healthConfirm q5, .fwStatus q5, .cfgLoadHost Q (2 ^ 64) 0, .cfgBaseStage Q 0 (2 ^ 32) stg, .fwStage Q 0 (2 ^ 32) stg,
    .cfgReload Q 256, .cfgOwnerKey Q (2 ^ 64), .fwTrial Q 65536 0, .fpllApply 24, .fpllEnable 24, .fpllLock 24,
        .fpllLockLoss 24,
    .tileEnable 96, .tileDisable 96, .tileDrainIdle 96, .tileDrainTimeout 96, .fabricPortRequest 96 0 [] [],
    .fabricPortRequest 0 0 (List.replicate 9 0) [], .fabricPortRequest 0 0 [] (List.replicate 10 0),
        .fabricPortResponse 96 ⟨0, 0⟩ 0 0 [],
    .fabricPortResponse 0 ⟨8, 0⟩ 0 0 [], .fabricPortResponse 0 ⟨0, 0⟩ 0 6 [], .fabricPortCreditReturn 96 0,
        .fabricPortCreditReturn 0 17,
    .fabricInboundTimeout 96 ⟨0, 0⟩ 0, .fabricInboundTimeout 0 ⟨8, 0⟩ 0, .bramRead 96 0 true 0 ⟨true, true⟩ ⟨true, true⟩ 0,
    .bramRead 0 48 true 0 ⟨true, true⟩ ⟨true, true⟩ 0, .bramRead 0 0 true 65536 ⟨true, true⟩ ⟨true, true⟩ 0,
    .bramWrite 96 0 true 0 0 0 true ⟨true, true⟩ 0, .bramWrite 0 0 true 65536 0 0 true ⟨true, true⟩ 0,
    .bramWrite 0 0 true 0 512 0 true ⟨true, true⟩ 0, .bramWrite 0 0 true 0 0 (2 ^ 72) true ⟨true, true⟩ 0,
    .spanPersInstall Q 65536 0 0 0 0 0 0 stg, .spanPersInstall Q 0 0 0 (2 ^ 64) 0 0 0 stg,
    .spanPersInstall Q 0 0 0 0 (2 ^ 32) 0 0 stg, .spanPersGet Q 65536, .spanUnpin Q 65536, .spanPersRemove Q 65536,
    .spanBind Q 65536 0, .spanSlotEnable Q 256 0, .spanLoad Q 65536 0, .spanPersReset Q 0 256, .spanEvict Q 256,
        .spanSlotStatus Q 256,
    .spanIdleTimer 64, .spanMaxResExpiry 64, .spanStartStep 64, .spanDrainIdle 64, .spanDrainTimeout 64, .spanSaveDone 64 [],
    .spanSaveFail ⟨64, 0⟩, .spanWipeDone 64, .spanHeaderChecked 64 [] true,
        .spanFrame 64 [] true [] true []] = true := by decide +kernel
theorem test_wf_engines : oneBad ((([.alu, .addi, .andi, .ori, .xori, .shi, .movw, .ext, .ins, .get, .ld, .st, .tld, .beq,
    .bne, .blt,
    .bge, .bltu, .bgeu, .bz, .bnz, .j, .jal, .jr, .wait, .waite, .evclr, .dln, .fence, .halt, .pop, .popr, .push, .pushr,
        .ldn, .stn,
    .ldn4, .stn4, .aadd, .aswp, .edge, .edgel, .edger, .illegalInstruction, .waitTickExpiry, .deadlineMiss] : List (Nat → Nat
        → Instr)).flatMap
    fun c => [c 96 0, c 0 4]) ++ [.engineNocResponse 96 0 0 0 [], .engineNocResponse 0 0 8 0 [],
        .engineNocResponse 0 0 0 0 (List.replicate 33 0),
    .edgeEventArrive 960, .edgeRelease 960, .edgeFire 960, .edgeCreditReturn 960, .engMemWalk 96 true [],
        .engMemWriteback 96 true,
    .engClrCounts 96, .clusterEnable 12, .clusterDisable 12, .clusterWipeDone 12, .clusterParked 12, .clusterParkTimeout 12,
    .clusterDrainIdle 12, .clusterDrainTimeout 12, .engLoad Q 256 0 0 0 0, .engLoad Q 0 0 65536 0 0,
        .engLoad Q 0 0 0 (2 ^ 32) 0,
    .engCtxStart Q 256 0 0 0 0, .engCtxStart Q 0 0 65536 0 0, .engCtxStop Q 0 0 256, .engCtxRead Q 0 0 256,
        .engClusterEnable Q 0 256,
    .engPinAssign Q 65536 0 0 0, .engPinAssign Q 0 256 0 0, .engMemRead Q 0 0 65536,
        .engStatus Q 256]) = true := by decide +kernel
theorem test_wf_queues_memories : oneBad [.queueStaleTimer 65536, .doorbellPush 65536 0, .doorbellPush 0 (2 ^ 32),
    .doorbellPop 65536 0,
    .doorbellReadResponse 0 8 0, .doorbellRecordWritten 65536 0, .doorbellRecordWritten 0 8, .queueSpillDone (2 ^ 21) 0,
        .queueSpillDone 0 8,
    .queuePrefetchDone (2 ^ 21) 0, .queuePrefetchDone 0 8, .qmPageCopyDone (2 ^ 21), .qmGrpClrCounts 32,
        .queueCreate Q 65536 0 0 0 0 0 0 0,
    .queueCreate Q 0 256 0 0 0 0 0 0, .queueCreate Q 0 0 0 (2 ^ 32) 0 0 0 0, .queueDestroy Q 65536, .queueReset Q 65536,
    .queuePushCmd Q 65536 0, .queuePopCmd Q 65536, .queueGet Q 0 256, .queueSet Q 0 0 0 (2 ^ 32) 0, .queueGroupStats Q 256,
    .queuePoolStatus q5, .nocHop 120 0 [], .nocHop 0 8 [], .nocHop 0 0 (List.replicate 10 0), .nocLinkReplay 960 0,
        .nocLinkReplay 7 0, .nocLinkReplay 0 9, .nocDeliver 1024, .nocEpochSwitch [120],
    .nocHmCfgWrite 16 true 0, .nocHmCfgWrite 0 true 1024, .scratchWriteback 256, .scratchDrainDone 256, .scratchWipeDone 256,
    .scratchOwnerWrite 256 0 0 true, .scratchOwnerWrite 0 16 0 true, .scratchOwnerWrite 0 0 128 true, .scratchGroupClearDone 32,
    .scrGrantQm Q 256, .scrReturnQm Q 0 0 256, .scrSetOwner Q 0 0 0 256, .scrGroupStatus Q 256, .scrReadUnit Q 0 65536,
    .dramCaParityAlert 8, .dramRefresh 8 true true, .ddrInitDone 8, .ddrSweepDone 8 true [] 0 0, .ddrFillDone 8,
        .ddrDrainDone 8,
    .ddrSelfRefreshEntered 8, .ddrScrubRead 8 0 true, .ddrScrubGapEnd 8, .ddrClrCounts 8, .prechargePowerDown 8,
        .ddrUnfreezeDone 16,
    .ddrMarkWrite 16 0, .ddrMarkWrite 0 (2 ^ 32), .ddrChEnable Q 0 256, .ddrUnfreeze Q 256 0, .ddrSweep Q 0 256,
        .ddrChStatus Q 256,
    .ddrMarkChip Q 0 0 256] = true := by decide +kernel
theorem test_wf_lanes_time : oneBad [.laneQcmdDisable 20, .laneQcmdEnable 20, .laneQcmdSleep 20, .laneQcmdWake 20,
    .quadWakeDone 20,
    .quadDrainIdle 20, .quadDrainTimeout 20, .quadRefLost 20, .quadRefReturn 20, .laneLos 80, .laneRxLock 80,
        .laneRxLockLost 80,
    .laneSignalReturn 80, .laneTxCharacter 80, .laneRxFlushTimer 80, .laneRxCharacter 80 0, .laneRxCharacter 0 1024,
    .laneStreamResponse 80 true 0 0 [], .laneStreamResponse 0 true 0 8 [], .laneRxRptrWrite 80 0, .laneTxWptrWrite 0 (2 ^ 32),
    .laneCfgWrite 80 0, .laneQcfgWrite 20 0, .laneQcfgWrite 0 (2 ^ 32), .ethCfgWrite 8 0, .ethCfgWrite 0 (2 ^ 32),
        .ethRxFrame 8 0 [],
    .ethRxFrame 0 16 [], .tcCopySend 8 0, .ptpFrameSend 0 16 [] true, .ethTxRecord 0 0 8 [], .ethLinkUp 8,
        .ethLinkLoss 8 true true,
    .pcieHostRequest (2 ^ 28) 0 true [], .pcieHostRequest 0 4097 true [], .pcieLinkUp 17 0, .pcieLinkUp 0 8,
        .laneQuadSet Q 256 0 0 0,
    .laneQuadSet Q 0 0 (2 ^ 32) 0, .laneQuadPower Q 0 256, .laneStreamRestart Q 256 0, .laneStreamSet Q 0 0 (2 ^ 64) 0 0 0,
    .laneStreamSet Q 0 0 0 256 0 0, .ethPortSet Q 0 0 0 0 256, .ethPortStatus Q 256, .laneStatus Q 256, .timeGet q5,
        .timePtpStatus q5,
    .timeServoSet Q 0 0 0 0 0 0 65536, .timeSet Q 0 0 0 (2 ^ 32) 0, .timeSet Q 0 0 (2 ^ 48) 0 0, .timeTcSet Q 0 0 256,
        .timeTsRead Q 256,
    .timeHoldover Q 256, .timePtpConfig Q 0 0 0 0 256] = true := by decide +kernel
theorem test_wf_accepts : ([.holdTileIdle 95, .registerWrite .sorrel (2 ^ 26 - 4) 4 (2 ^ 32 - 1) true, .alu 95 3,
    .clusterEnable 11,
    .laneLos 79, .queuePush (rq 65535) 1, .nocHop 119 7 [], .ddrMarkWrite 15 (2 ^ 32 - 1),
        .timeSet Q 1 (2 ^ 64 - 1) (2 ^ 48 - 1) 0 0,
    .bramWrite 95 47 true 65535 511 (2 ^ 72 - 1) true ⟨true, true⟩ 0, .spanIdleTimer 63,
        .evtRaise 383] : List Instr).all (·.wf) = true := by
  decide +kernel

/-! ### The worked examples of the spec -/

/-- 06_engine_instructions.md, the waveform program: the words of its table. -/
theorem test_waveform_program : [0xC1100064, 0x7C40004A, 0x20D40003, 0x18CC000A, 0x08CC1000, 0x0893FFD8, 0x90080000, 0xF50C0000,
      0x80000000, 0x28800000, 0x088805DC].map engDecode
    = [some (.pop 1 1 100), some (.branch 7 1 0 74), some (.ext 3 5 0 3), some (.shi 3 3 0 10), some (.addi 3 3 0x1000),
      some (.addi 2 4 (2 ^ 18 - 40)), some (.wait 2), some (.edgel 4 3), some (.j 0), some (.get 2 0),
          some (.addi 2 2 1500)] := by
  decide +kernel
/-- The same example: entry 1 of waveform 3 is pin 12, Low, SUB 5, OFFSET 1,250. -/
theorem test_waveform_entry : (entryPin 0x03050000000004E2, entryAct 0x03050000000004E2, entrySub 0x03050000000004E2,
    entryOffset 0x03050000000004E2) = (12, 0, 5, 1250) := by decide
/-- 08_network_on_chip.md: a pop by the bar 0 engine goes 13 links, and its answer 13. -/
theorem test_pop_path : (follow 106 13 36, follow 106 12 36 == 106, follow 36 13 106, follow 36 12 106 == 36)
    = (106, false, 36, false) := by decide +kernel
/-- The same example: engine 0's pop of queue 100 goes to pier 106, port 2. -/
theorem test_pop_destination : destinationOf State.reset { inj (8 * 36 + 5) 0x09 with addr := 100 } = some (8 * 106 + 2) := by
  decide +kernel
/-- 12_lanes_ethernet_pcie.md: camera 0's blocks go from hub pier 23 to tile pier 10 in 16 links. -/
theorem test_camera_path : (follow 10 16 119, follow 10 15 119 == 10) = (10, false) := by decide +kernel
/-- 12_lanes_ethernet_pcie.md: quad 12 takes QMODE NRZ at BAUD 1,280,000. -/
theorem test_camera_quad : quadModeOk 12 2 1280000 = true := by decide +kernel
/-- 02_fabric_cells_routing.md: D = 1, M = 32 stays in range under COAST, D = 2, M = 32 does not. -/
theorem test_pll_under_coast :
    ([false, true].map fun low => [0, 1].map fun d => vcoInRange (Bc fun c => { c with vcoLow := low }) 32 d)
      = [[true, true], [true, false]] := by decide +kernel
/-- 03_fabric_memory_arithmetic.md: at 8,192 x 8, address 419 is lane 3 of word 52, its bits 31:24. -/
theorem test_bram_lane : (wordOf 7 419, (readLane 7 419 0xAABBCCDDEEFF1122#72).toNat) = (52, 0xEE) := by decide +kernel
/-- 21_register_summary.md: engine 40's CTX_CFG[0] is at 0x00B2_8100, and DDR_SC_MARK of subchannel 4 at 0x00D2_0108. -/
theorem test_register_offsets :
    ((nextOf (execRegisterWrite (.host ⟨0, 0⟩ 0) 0x00B28100 4 0x40007C06 false BR)).ctx 160).dlSlack = 0x7C06
    ∧ (nextOf (execRegisterWrite (.host ⟨0,
        0⟩ 0) 0x00D20108 4 0x83 false (Sf BR))).ddr = (nextOf (execDdrMarkWrite 4 0x83 (Sf BR))).ddr
    ∧ (nextOf (execDdrMarkWrite 4 0x83 (Sf BR))).ddr ≠ BR.ddr := by
  decide +kernel

/-- 11_scrambling_lifecycle.md, two requests on the reference printer: tile 40's read passes, engine 0's write does not. -/
def tab2 : State := { BR with sec := { BR.sec with acc := { BR.sec.acc with
  entries := [(2, ⟨true, false, true, false, 3, 0, 95, 0x10000000, 0x12FFFFFF⟩), (7, ⟨true, false, true, true, 5, 0, 255,
      0x13040000, 0x1307FFFF⟩)] } } }
theorem test_rights_example :
    ((rightsJudge 3 40 true false 0x0000010000001234 63 tab2).1, (rightsJudge 2 0 false true 0x0000013040000000 31 tab2).1)
      = (true, false) := by decide
/-- 17_management_mailboxes.md, a status read across both ring ends. -/
theorem test_status_read : (fun x : Mailbox => (x.rspTail, x.cmdTail, x.expectSeq, x.reserved, ringLoad x.rspRing 960 16))
      ((nextOf (execEthPortStatus { mbx := 2, seq := 0xFFFF, tag := 0x11, ordered := false, deadline := 0 } 0
        { BR with mbx := [(2, { expectSeq := 0xFFFF, cmdHead := 0x2A3F, cmdTail := 0x2A3F, rspTail := 0x153F, rspHead := 0x153F })] })).mailbox 2)
    = (0x1541, 0x2A40, 0, 0, leBytes 2 0x0A06 ++ leBytes 2 0xFFFF ++ leBytes 2 70 ++ [0,
        1] ++ leBytes 4 0 ++ leBytes 4 0x11) := by
  decide +kernel
/-- 15_current_governor.md, leaving TRIM: 1,776 booked; tick 2 grants the ramp's 32 and takes 750 ticks; the burst stays. -/
def trim2 : State := { BR with
  fab := { BR.fab with tiles := [] }
  gov := { BR.gov with granting := true, standing := true, slewLeft := 0
                       supplies := [(0, { held := [(0, 1434)], newReqs := [⟨kScrub, 0, 6, 1, 0⟩, ⟨kRamp, 1, 2, 32, 0⟩] })] } }
theorem test_leaving_trim : (fun t : State => (booked trim2 0, booked t 0, t.gov.slewLeft, (t.supply 0).queue.map GovReq.kind))
    (nextOf (execGovDecision trim2)) = (1776, 1808, 750, [kScrub]) := by decide +kernel

/-! ### Witnesses: the hypotheses of each statement can be met -/

theorem witness_StepRunsFront :
    (∃ (s : State), s.pending = [])
    ∧ (∃ (s : State), clockedTiles s = [])
    ∧ (∃ (s : State), s.tim.running = false)
    ∧ (∃ (s : State), s.tim.running = true)
    ∧ (∃ (s : State), s.pending = [] ∧ s.tim.running = true ∧ s.clk.vcoLow = false ∧ -(2 ^ 38) ≤ s.tim.rate
        ∧ s.tim.rate ≤ 2 ^ 38 ∧ s.tim.tick + 3 * 2 ^ 48 < 2 ^ 112) :=
  ⟨⟨{}, by decide +kernel⟩,
   ⟨B, by decide +kernel⟩,
   ⟨{}, by decide +kernel⟩,
   ⟨B, by decide +kernel⟩,
   ⟨Bt fun t => { t with rate := 2 ^ 38, tick := 2 ^ 112 - 3 * 2 ^ 48 - 1 }, by decide +kernel⟩⟩

theorem witness_FusesOnlyBlown :
    ∃ (s : State) (t : State), step s = .next t :=
  ⟨{ B with pending := [.lcsFuseBlown], sec := { B.sec with lcs := { B.sec.lcs with blowing := some (1, 2) } }, clk := { B.clk with phase := .off } },
      _, rfl⟩

theorem witness_SecurityEvents :
    (∃ (s : State), s.dev.clockSeen = true ∧ s.sec.scm.keyReady = false ∧ s.sec.scm.keyFail = false ∧ (∀ c, c < 8
        → (s.chan c).pendingEnable = false))
    ∧ (∃ (s : State), s.dev.clockSeen = true ∧ s.sec.scm.keyReady = false ∧ s.sec.scm.keyFail = false ∧ s.sec.scm.attempts < 2)
    ∧ (∃ (s : State), s.dev.clockSeen = true ∧ s.sec.scm.keyReady = false ∧ s.sec.scm.keyFail = false ∧ s.sec.scm.attempts = 2
        ∧ (∀ c, c < 8 → (s.chan c).pendingEnable = false))
    ∧ (∃ (s : State), lifecycle s.fuse ≤ 1 ∧ (∀ c, c < 8 → (s.chan c).state = .off))
    ∧ (∃ (s : State), (2 ≤ lifecycle s.fuse ∨ (∃ c, c < 8 ∧ (s.chan c).state ≠ .off)))
    ∧ (∃ (c : Nat) (s : State), s.dev.clockSeen = true ∧ s.sec.scm.keyReady = false ∧ s.sec.scm.keyFail = false ∧ c < 8
        ∧ (s.chan c).state = .off ∧ (s.chan c).pendingEnable = true)
    ∧ (∃ (c : Nat) (s : State), s.dev.clockSeen = true ∧ s.sec.scm.keyReady = false ∧ s.sec.scm.keyFail = false ∧ c < 8
        ∧ (s.chan c).state = .off ∧ (s.chan c).pendingEnable = true ∧ 2 ≤ s.sec.scm.attempts)
    ∧ (∃ (a : Arm) (s : State), s.sec.lcs.arm = some a ∧ 1500000000 ≤ s.now - a.since)
    ∧ (∃ (a : Arm) (s : State), s.sec.lcs.arm = some a ∧ s.now - a.since < 1500000000)
    ∧ (∃ (g : Nat) (k : Nat) (s : State), 1 ≤ g ∧ g ≤ 3 ∧ k < 2 ∧ s.sec.lcs.blowing = some (g, k) ∧ s.sor.restart = none
        ∧ s.clk.phase = .off)
    ∧ (∃ (g : Nat) (s : State), 1 ≤ g ∧ g ≤ 3 ∧ s.sec.lcs.blowing = some (g, 2) ∧ s.sor.restart = none ∧ s.clk.phase = .off) :=
  ⟨⟨B, by decide +kernel⟩,
   ⟨{ B with sec := { B.sec with scm := { B.sec.scm with attempts := 1 } } }, by decide +kernel⟩,
   ⟨{ B with sec := { B.sec with scm := { B.sec.scm with attempts := 2 } } }, by decide +kernel⟩,
   ⟨{ B with fuse := { lifecycle := 0b110 } }, by decide +kernel⟩,
   ⟨{ B with fuse := { lifecycle := 0b110000 } }, by decide +kernel⟩,
   ⟨7, { B with sec := { B.sec with scm := { B.sec.scm with attempts := 1 } }, ddr := { B.ddr with chans := [(7, { pendingEnable := true })] } },
       by decide +kernel⟩,
   ⟨7, { B with sec := { B.sec with scm := { B.sec.scm with attempts := 2 } }, ddr := { B.ddr with chans := [(7, { pendingEnable := true })] } },
       by decide +kernel⟩,
   ⟨⟨1, 77, 5⟩, { Bt (fun t => { t with tick := 1500000005 * 2 ^ 48 }) with sec := { B.sec with lcs := { B.sec.lcs with arm := some ⟨1, 77, 5⟩ } } },
       by decide +kernel⟩,
   ⟨⟨1, 77, 5⟩, { B with sec := { B.sec with lcs := { B.sec.lcs with arm := some ⟨1, 77, 5⟩ } } }, by decide +kernel⟩,
   ⟨3, 1, { State.reset with sec := { B.sec with lcs := { B.sec.lcs with blowing := some (3, 1) } } }, by decide +kernel⟩,
   ⟨1, { State.reset with sec := { B.sec with lcs := { B.sec.lcs with blowing := some (1, 2) } } }, by decide +kernel⟩⟩

theorem witness_ResetAndReadiness :
    (∃ (s : State), derive s = s.dev.ready)
    ∧ (∃ (s : State), derive s ≠ s.dev.ready)
    ∧ (∃ (s : State), (s.clk.coast = true ∨ s.clk.lock = false)) :=
  ⟨⟨B, by decide +kernel⟩,
   ⟨B0, by decide +kernel⟩,
   ⟨Bc fun c => { c with lock := false }, by decide +kernel⟩⟩

theorem witness_EngineDecodeOfEncode :
    (∃ (i : EngInstr), i.wf = true)
    ∧ (∃ (w : Nat) (i : EngInstr), w < 2 ^ 32 ∧ engDecode w = some i) :=
  ⟨⟨.alu 15 15 15 0, by decide +kernel⟩,
   ⟨0x04D08100, .alu 1 3 4 2, by decide +kernel⟩⟩

theorem witness_FabricCells :
    (∃ (n : Nat) (a : Nat) (b : Nat), a < 4 ^ n ∧ b < 4 ^ n)
    ∧ (∃ (op : Nat), (op = 1 ∨ op = 2 ∨ op = 3 ∨ op = 4 ∨ op = 5 ∨ op = 6))
    ∧ (∃ (p : Place) (dir : Nat) (len : Nat) (q : Place), p.tile < 96 ∧ p.gx < 40 ∧ p.gy < 64 ∧ dir < 4 ∧ len < 4
        ∧ q = segmentEnd p dir len)
    ∧ (∃ (s : State) (t : Nat) (gx : Nat) (gy : Nat) (dir : Nat) (len : Nat), crossesSlot s ⟨t, gx, gy⟩ (segmentEnd ⟨t, gx,
        gy⟩ dir len) = true)
    ∧ (∃ (s : State) (t : Nat) (gx : Nat) (gy : Nat) (dir : Nat) (len : Nat), crossesSlot s ⟨t, gx, gy⟩ (segmentEnd ⟨t, gx,
        gy⟩ dir len) = false)
    ∧ (∃ (s : State) (t : Nat) (x : Sink), configNat s t (.select x) (Config.selectWidth x % 16) = 0)
    ∧ (∃ (s : State) (t : Nat) (q : Nat) (e : Nat) (i : Nat), facing t e = some q
        ∧ (readFrame s q ((e + 2) % 4)).getLsbD i = true)
    ∧ (∃ (s : State) (t : Nat) (gx : Nat) (gy : Nat), configOn s t (.carryLink gx gy) = false)
    ∧ (∃ (s : State) (t : Nat) (gx : Nat) (gy : Nat), configOn s t (.carryLink gx gy) = true ∧ 0 < gy ∧ gy < 64 ∧ gx < 40
        ∧ t < 96)
    ∧ (∃ (s : State) (t : Nat) (gx : Nat) (gy : Nat) (c : Nat) (ab : Nat),
        heldReset s t gx gy (flipFlopSet s t gx gy c ab) = true)
    ∧ (∃ (s : State) (t : Nat) (gx : Nat) (gy : Nat) (c : Nat) (ab : Nat),
        heldReset s t gx gy (flipFlopSet s t gx gy c ab) = false
        ∧ clockRuns s t (.clock gx gy (flipFlopSet s t gx gy c ab)) = false)
    ∧ (∃ (s : State) (t : Nat), (s.tile t).setReset = true)
    ∧ (∃ (s : State) (t : Nat), tileClocks s t = false)
    ∧ (∃ (s : State) (t : Nat) (i : Nat), (i < 19712 ∨ tileClocks s t = false) ∧ i < 2 ^ 15) :=
  ⟨⟨3, 63, 63, by decide +kernel⟩,
   ⟨3, by decide +kernel⟩,
   ⟨⟨95, 39, 63⟩, 0, 3, segmentEnd ⟨95, 39, 63⟩ 0 3, by decide +kernel⟩,
   ⟨{ B with spn := { B.spn with slots := [(63, { defined := true, listed := true })] } }, 0, 39, 0, 1, 0, by decide +kernel⟩,
   ⟨B, 0, 39, 0, 1, 0, by decide +kernel⟩,
   ⟨B, 0, .carryIn 0 0, emptyNat _ (by decide +kernel) _ _ _⟩,
   ⟨Fb fun f => { f with frames := [(frameKey 1 3, 1)] }, 0, 1, 1, 0, by decide +kernel⟩,
   ⟨B, 0, 0, 0, emptyBit _ (by decide +kernel) _ _ _⟩,
   ⟨Fb fun f => { f with frames := [(frameKey 0 (4 + (Config.logicBit (.carryLink 0 1) 0 % (13564 * 640)) / 640), BitVec.allOnes 640)] },
       0, 0, 1, linkSet, by decide +kernel⟩,
   ⟨B, 95, 39, 63, 15, 1, by decide +kernel⟩,
   ⟨Fb fun f => { f with tiles := [(95, { setReset := false })] }, 95, 39, 63, 15, 1, notHeld _ _ _ _ _ (by decide +kernel),
       stoppedTile _ _ _ (by decide +kernel)⟩,
   ⟨B, 95, by decide +kernel⟩,
   ⟨B, 95, by decide +kernel⟩,
   ⟨B, 95, 19712, by decide +kernel⟩⟩

theorem witness_StatusOfClocksAndMemories :
    (∃ (q : CmdCtx) (s : State), MayIssue q 0x0201 0 s)
    ∧ (∃ (q : CmdCtx) (s : State), MayIssue q 0x0301 0 s)
    ∧ (∃ (q : CmdCtx) (sp : Nat) (first : Nat) (s : State), sp < 3 ∧ first < 2 ^ 16 ∧ MayIssue q 0x0302 4 s)
    ∧ (∃ (q : CmdCtx) (sp : Nat) (s : State), sp < 3 ∧ MayIssue q 0x0303 1 s)
    ∧ (∃ (q : CmdCtx) (s : State), MayIssue q 0x0B01 0 s)
    ∧ (∃ (q : CmdCtx) (s : State), MayIssue q 0x0B07 0 s)
    ∧ (∃ (q : CmdCtx) (entry : Nat) (s : State), entry < 64 ∧ MayIssue q 0x0D02 1 s)
    ∧ (∃ (q : CmdCtx) (s : State), MayIssue q 0x0D03 0 s)
    ∧ (∃ (q : CmdCtx) (s : State), MayIssue q 0x0D06 0 s)
    ∧ (∃ (q : CmdCtx) (c : Nat) (s : State), c < 8 ∧ MayIssue q 0x0902 1 s)
    ∧ (∃ (q : CmdCtx) (g : Nat) (s : State), g < 32 ∧ MayIssue q 0x0804 1 s)
    ∧ (∃ (q : CmdCtx) (b : Nat) (u : Nat) (s : State), b < 256 ∧ u < 8192 ∧ MayIssue q 0x0805 4 s)
    ∧ (∃ (q : CmdCtx) (pers : Nat) (s : State), pers < 1024 ∧ s.dev.ready.spanPager = true ∧ MayIssue q 0x0502 2 s)
    ∧ (∃ (q : CmdCtx) (i : Nat) (s : State), i < 64 ∧ s.spn.live = true ∧ (s.slot i).defined = true
        ∧ s.dev.ready.spanPager = true ∧ MayIssue q 0x0509 1 s)
    ∧ (∃ (q : CmdCtx) (n : Nat) (select : Nat) (s : State), n < 2 ^ 16 ∧ select < 2 ∧ MayIssue q 0x0603 3 s)
    ∧ (∃ (q : CmdCtx) (g : Nat) (s : State), g < 32 ∧ MayIssue q 0x0608 1 s)
    ∧ (∃ (q : CmdCtx) (s : State), MayIssue q 0x0609 0 s) :=
  ⟨⟨Q, B, by decide +kernel⟩,
   ⟨Q, B, by decide +kernel⟩,
   ⟨Q, 2, 65535, B, by decide +kernel⟩,
   ⟨Q, 2, B, by decide +kernel⟩,
   ⟨Q, B, by decide +kernel⟩,
   ⟨Q, B, by decide +kernel⟩,
   ⟨Q, 63, B, by decide +kernel⟩,
   ⟨Q, B, by decide +kernel⟩,
   ⟨Q, B, by decide +kernel⟩,
   ⟨Q, 7, B, by decide +kernel⟩,
   ⟨Q, 31, B, by decide +kernel⟩,
   ⟨Q, 255, 8191, B, by decide +kernel⟩,
   ⟨Q, 1023, BR, by decide +kernel⟩,
   ⟨Q, 63, { BR with spn := { BR.spn with live := true, slots := [(63, { defined := true })] } }, by decide +kernel⟩,
   ⟨Q, 65535, 1, B, by decide +kernel⟩,
   ⟨Q, 31, B, by decide +kernel⟩,
   ⟨Q, B, by decide +kernel⟩⟩

theorem witness_StatusOfLanesEnginesAndDevice :
    (∃ (q : CmdCtx) (p : Nat) (s : State), p < 8 ∧ s.dev.ready.lanes = true ∧ MayIssue q 0x0A06 1 s)
    ∧ (∃ (q : CmdCtx) (l : Nat) (s : State), l < 80 ∧ s.dev.ready.lanes = true ∧ MayIssue q 0x0A07 1 s)
    ∧ (∃ (q : CmdCtx) (n : Nat) (k : Nat) (first : Nat) (s : State), n < 96 ∧ k < 4 ∧ first < 13
        ∧ ((s.ctx (4 * n + k)).state = .idle ∨ (s.ctx (4 * n + k)).state = .parked ∨ (s.ctx (4 * n + k)).state = .faulted)
        ∧ MayIssue q 0x0704 3 s)
    ∧ (∃ (q : CmdCtx) (n : Nat) (mem : Nat) (offset : Nat) (s : State), n < 96 ∧ mem < 2 ∧ offset % 32 = 0 ∧ offset ≤ 32736
        ∧ clusterServes s (n / 8) = true ∧ MayIssue q 0x0707 4 s)
    ∧ (∃ (q : CmdCtx) (c : Nat) (s : State), c < 12 ∧ MayIssue q 0x0708 1 s)
    ∧ (∃ (q : CmdCtx) (s : State), MayIssue q 0x0401 0 s)
    ∧ (∃ (q : CmdCtx) (s : State), MayIssue q 0x0C04 0 s)
    ∧ (∃ (q : CmdCtx) (s : State), MayIssue q 0x0101 0 s)
    ∧ (∃ (q : CmdCtx) (m : Nat) (s : State), m < 18 ∧ m ≠ q.mbx ∧ MayIssue q 0x0105 1 s)
    ∧ (∃ (q : CmdCtx) (s : State), MayIssue q 0x0105 1 s)
    ∧ (∃ (q : CmdCtx) (data : List Byte) (s : State), MayIssue q 0x0E01 data.length s)
    ∧ (∃ (q : CmdCtx) (s : State), MayIssue q 0x0E05 0 s)
    ∧ (∃ (q : CmdCtx) (first : Nat) (s : State), first < 2 ^ 16 ∧ MayIssue q 0x0E06 2 s) :=
  ⟨⟨Q, 7, B, by decide +kernel⟩,
   ⟨Q, 79, B, by decide +kernel⟩,
   ⟨Q, 95, 3, 12, B, by decide +kernel⟩,
   ⟨Q, 95, 1, 32736, BR, by decide +kernel⟩,
   ⟨Q, 11, B, by decide +kernel⟩,
   ⟨Q, B, by decide +kernel⟩,
   ⟨Q, B, by decide +kernel⟩,
   ⟨Q, B, by decide +kernel⟩,
   ⟨Q, 17, B, by decide +kernel⟩,
   ⟨Q, B, by decide +kernel⟩,
   ⟨Q, [1, 2, 3], B, by decide +kernel⟩,
   ⟨Q, B, by decide +kernel⟩,
   ⟨Q, 65535, B, by decide +kernel⟩⟩

theorem witness_ClockEvents :
    (∃ (d : Nat) (s : State), d < 4 ∧ (s.clk.div d).ratio ≠ (s.clk.div d).target
        ∧ ramping (s.clk.setDiv d (stepDivider (s.clk.div d))) = true)
    ∧ (∃ (d : Nat) (s : State), d < 4 ∧ (s.clk.div d).ratio ≠ (s.clk.div d).target
        ∧ ramping (s.clk.setDiv d (stepDivider (s.clk.div d))) = false ∧ (s.clk.phase = .startRamp ∨ s.clk.phase = .returnRamp)
        ∧ s.clk.rampHolds = false ∧ s.sor.modeChange = none)
    ∧ (∃ (d : Nat) (s : State), d < 4 ∧ (s.clk.div d).ratio ≠ (s.clk.div d).target
        ∧ ramping (s.clk.setDiv d (stepDivider (s.clk.div d))) = false ∧ s.clk.phase = .coastRamp ∧ s.clk.rampHolds = false
        ∧ s.sor.modeChange = none)
    ∧ (∃ (s : State), s.clk.xoRun = true ∧ (s.clk.xo.edges = false ∨ s.clk.refclk.edges = false) ∧ s.clk.phase = .judging
        ∧ s.clk.attempt = none)
    ∧ (∃ (s : State), s.clk.xoRun = true ∧ s.clk.xo.edges = false ∧ s.clk.phase ≠ .judging)
    ∧ (∃ (s : State) (ppm : Int), s.clk.tests = [⟨.startup, .refclk, .xo⟩] ∧ s.clk.refclk.edges = true ∧ -200 ≤ ppm ∧ ppm ≤ 200)
    ∧ (∃ (s : State) (ppm : Int), s.clk.tests = [⟨.startup, .refclk, .xo⟩] ∧ s.clk.refclk.edges = true
        ∧ (ppm < -200 ∨ 200 < ppm) ∧ s.clk.attempt = none)
    ∧ (∃ (s : State), s.clk.phase = .locking ∧ s.dev.mode ≠ .trim
        ∧ (((List.range 4).any fun d => decide ((s.clk.div d).ratio ≠ nominalRatio d)) = true))
    ∧ (∃ (s : State), s.clk.coast = false ∧ s.clk.lock = true ∧ s.clk.source = 0 ∧ s.clk.xoRun = true ∧ s.clk.xo.stable = true
        ∧ hasTest s.clk .resetStart .xo = false)
    ∧ (∃ (s : State), s.clk.phase = .glide)
    ∧ (∃ (d : Nat) (v : Nat) (s : State), trimOk d v = true ∧ s.dev.mode ≠ .trim)
    ∧ (∃ (d : Nat) (v : Nat), trimOk d v = false)
    ∧ (∃ (d : Nat) (v : Nat) (s : State), trimOk d v = true ∧ s.dev.mode = .trim ∧ s.sor.modeChange = none ∧ s.clk.lock = true
        ∧ s.clk.phase = .running ∧ s.clk.rampHolds = false ∧ (∀ e, e < 4 → e ≠ d → (s.clk.div e).ratio ≤ (s.clk.div e).trim)
        ∧ (s.clk.div d).ratio ≤ v)
    ∧ (∃ (d : Nat) (v : Nat) (s : State), trimOk d v = true ∧ s.dev.mode = .trim ∧ s.sor.modeChange = none ∧ s.clk.lock = true
        ∧ s.clk.phase = .running ∧ s.clk.rampHolds = false ∧ v < (s.clk.div d).ratio ∧ s.clk.rampWait = false) :=
  ⟨⟨1, Bc fun c => { c with div1 := ⟨66, 64, 128⟩ }, by decide +kernel⟩,
   ⟨1, Bc fun c => { c with div1 := ⟨65, 64, 128⟩, phase := .startRamp }, by decide +kernel⟩,
   ⟨1, Bc fun c => { c with div1 := ⟨65, 64, 128⟩, phase := .coastRamp }, by decide +kernel⟩,
   ⟨Bc fun c => { c with xo := {}, phase := .judging, attempt := none, attempts := 2 }, by decide +kernel⟩,
   ⟨Bc fun c => { c with xo := {} }, by decide +kernel⟩,
   ⟨Bc fun c => { c with tests := [⟨.startup, .refclk, .xo⟩], phase := .judging, refclk := ⟨true, false⟩, lock := false },
       -200, by decide +kernel⟩,
   ⟨Bc fun c => { c with tests := [⟨.startup, .refclk, .xo⟩], phase := .judging, refclk := ⟨true, false⟩, lock := false, attempts := 2 },
       201, by decide +kernel⟩,
   ⟨{ State.reset with clk := { State.reset.clk with phase := .locking } }, by decide +kernel⟩,
   ⟨Bc fun c => { c with source := 0 }, by decide +kernel⟩,
   ⟨Bc fun c => { c with phase := .glide, coast := true, lock := false }, by decide +kernel⟩,
   ⟨3, 512, B, by decide +kernel⟩,
   ⟨0, 32, by decide +kernel⟩,
   ⟨1, 200, { Bd (fun d => { d with mode := .trim }) with sor := { B.sor with modeChange := none } }, by decide +kernel⟩,
   ⟨1, 100, { Bd (fun d => { d with mode := .trim }) with clk := { B.clk with div1 := ⟨128, 128, 128⟩ } }, by decide +kernel⟩⟩

theorem witness_ClockCommands :
    (∃ (q : CmdCtx) (primary : Nat) (warm : Nat) (auto : Nat) (policy : Nat) (s : State), primary ≤ 1 ∧ warm ≤ 1 ∧ auto ≤ 1
        ∧ policy ≤ 1 ∧ s.clk.recovPort ≤ 7 ∧ MayIssue q 0x0202 5 s ∧ s.clk.lock = true ∧ s.clk.coast = false
        ∧ s.clk.source = 2 * primary ∧ (s.clk.primaryRecov = true ↔ primary = 1) ∧ s.clk.setPending = false)
    ∧ (∃ (q : CmdCtx) (port : Nat) (warm : Nat) (auto : Nat) (policy : Nat) (s : State), port ≤ 7 ∧ warm ≤ 1 ∧ auto ≤ 1
        ∧ policy ≤ 1 ∧ s.clk.recovPort ≠ port ∧ MayIssue q 0x0202 5 s ∧ s.clk.lock = true ∧ s.clk.coast = false
        ∧ s.clk.source = 0 ∧ s.clk.primaryRecov = false ∧ s.clk.setPending = false)
    ∧ (∃ (q : CmdCtx) (primary : Nat) (port : Nat) (warm : Nat) (auto : Nat) (policy : Nat) (s : State), primary ≤ 1 ∧ port ≤ 7
        ∧ warm ≤ 1 ∧ auto ≤ 1 ∧ policy ≤ 1 ∧ MayIssue q 0x0202 5 s ∧ s.clk.lock = true ∧ s.clk.coast = false
        ∧ s.clk.source ≠ 2 * primary ∧ (s.clk.primaryRecov = true ↔ primary = 0))
    ∧ (∃ (q : CmdCtx) (primary : Nat) (port : Nat) (warm : Nat) (auto : Nat) (policy : Nat) (s : State), primary ≤ 1 ∧ port ≤ 7
        ∧ warm ≤ 1 ∧ auto ≤ 1 ∧ policy ≤ 1 ∧ MayIssue q 0x0202 5 s ∧ s.clk.lock = false ∧ s.clk.setPending = false)
    ∧ (∃ (q : CmdCtx) (primary : Nat) (port : Nat) (warm : Nat) (auto : Nat) (policy : Nat) (s : State), primary < 256
        ∧ port < 256 ∧ warm < 256 ∧ auto < 256 ∧ policy < 256 ∧ (1 < primary ∨ 7 < port ∨ 1 < warm ∨ 1 < auto ∨ 1 < policy)
        ∧ MayIssue q 0x0202 5 s)
    ∧ (∃ (q : CmdCtx) (r1 : Nat) (r2 : Nat) (r3 : Nat) (s : State), 64 ≤ r1 ∧ r1 ≤ 256 ∧ 128 ≤ r2 ∧ r2 ≤ 512 ∧ 256 ≤ r3
        ∧ r3 ≤ 512 ∧ MayIssue q 0x0203 6 s ∧ s.dev.mode ≠ .trim ∧ s.clk.rampWait = false)
    ∧ (∃ (q : CmdCtx) (r1 : Nat) (r2 : Nat) (r3 : Nat) (s : State), 64 ≤ r1 ∧ r1 ≤ 256 ∧ 128 ≤ r2 ∧ r2 ≤ 512 ∧ 256 ≤ r3
        ∧ r3 ≤ 512 ∧ MayIssue q 0x0203 6 s ∧ s.dev.mode = .trim ∧ s.sor.modeChange = none ∧ s.clk.lock = true
        ∧ s.clk.phase = .running ∧ s.clk.rampHolds = false ∧ s.clk.rampWait = false ∧ s.clk.div0.ratio ≤ s.clk.div0.trim
        ∧ s.clk.div1.ratio < r1 ∧ s.clk.div2.ratio ≤ r2 ∧ s.clk.div3.ratio ≤ r3)
    ∧ (∃ (q : CmdCtx) (r1 : Nat) (r2 : Nat) (r3 : Nat) (s : State), 64 ≤ r1 ∧ r1 ≤ 256 ∧ 128 ≤ r2 ∧ r2 ≤ 512 ∧ 256 ≤ r3
        ∧ r3 ≤ 512 ∧ MayIssue q 0x0203 6 s ∧ s.dev.mode = .trim ∧ s.sor.modeChange = none ∧ s.clk.lock = true
        ∧ s.clk.phase = .running ∧ s.clk.rampHolds = false ∧ s.clk.rampWait = false ∧ s.clk.div0.ratio ≤ s.clk.div0.trim
        ∧ (r1 < s.clk.div1.ratio ∨ r2 < s.clk.div2.ratio ∨ r3 < s.clk.div3.ratio))
    ∧ (∃ (q : CmdCtx) (r1 : Nat) (r2 : Nat) (r3 : Nat) (s : State), r1 < 2 ^ 16 ∧ r2 < 2 ^ 16 ∧ r3 < 2 ^ 16
        ∧ (r1 < 64 ∨ 256 < r1 ∨ r2 < 128 ∨ 512 < r2 ∨ r3 < 256 ∨ 512 < r3) ∧ MayIssue q 0x0203 6 s)
    ∧ (∃ (q : CmdCtx) (a : Nat) (b : Nat) (s : State), a ≤ 2 ∧ b ≤ 2 ∧ MayIssue q 0x0204 2 s)
    ∧ (∃ (q : CmdCtx) (a : Nat) (b : Nat) (s : State), a < 256 ∧ b < 256 ∧ (2 < a ∨ 2 < b) ∧ MayIssue q 0x0204 2 s)
    ∧ (∃ (q : CmdCtx) (s : State), MayIssue q 0x0205 0 s ∧ s.clk.coast = true ∧ s.clk.phase ≠ .parked)
    ∧ (∃ (q : CmdCtx) (s : State), MayIssue q 0x0205 0 s ∧ s.clk.coast = true ∧ s.clk.phase = .parked
        ∧ s.clk.primaryRecov = false ∧ s.clk.refclk.edges = true ∧ s.clk.refclk.stable = true)
    ∧ (∃ (q : CmdCtx) (s : State), MayIssue q 0x0205 0 s ∧ s.clk.coast = false ∧ s.clk.lock = true
        ∧ s.clk.source ≠ (if s.clk.primaryRecov then 2 else 0) ∧ s.clk.primaryPassed = false)
    ∧ (∃ (q : CmdCtx) (s : State), (∀ m, ∀ k ∈ (s.mailbox m).tasks, k.opcode ≠ 0x0202 ∧ k.opcode ≠ 0x0205)
        ∧ MayIssue q 0x0205 0 s ∧ s.clk.coast = false ∧ s.clk.lock = true
        ∧ s.clk.source ≠ (if s.clk.primaryRecov then 2 else 0) ∧ s.clk.primaryPassed = true ∧ s.clk.primaryRecov = false
        ∧ s.clk.phase = .running ∧ s.clk.refclk.edges = true ∧ s.clk.refclk.stable = true)
    ∧ (∃ (q : CmdCtx) (s : State), MayIssue q 0x0205 0 s ∧ s.clk.coast = false
        ∧ (s.clk.lock = false ∨ s.clk.source = (if s.clk.primaryRecov then 2 else 0)))
    ∧ (∃ (x : Source) (s : State), (x ≠ .xo ∨ s.clk.xoRun = true) ∧ (x ≠ .recov ∨ recovCandidate s = true))
    ∧ (∃ (s : State), s.clk.phase = .judging ∧ s.clk.attempt = none ∧ s.clk.tests = [] ∧ s.clk.refclk.edges = true
        ∧ s.clk.xoRun = true)
    ∧ (∃ (x : Source) (s : State), ((x = .xo ∧ s.clk.xoRun = false) ∨ (x = .recov ∧ recovCandidate s = false)))
    ∧ (∃ (s : State), (waiting 0x0205 0 s = false ∨ s.clk.phase = .relocking))
    ∧ (∃ (s : State), waiting 0x0205 0 s = true ∧ s.clk.phase ≠ .relocking)
    ∧ (∃ (x : Source) (y : Source) (s : State), s.clk.tests = [⟨.command, x, y⟩]
        ∧ ((s.clk.src x).edges = false ∨ (s.clk.src y).edges = false))
    ∧ (∃ (x : Source) (y : Source) (s : State), s.clk.tests = [⟨.command, x, y⟩] ∧ (s.clk.src x).edges = true
        ∧ (s.clk.src y).edges = true)
    ∧ (∃ (q : Nat) (c : Nat) (s : State), granting s = true ∧ s.gov.slewLeft ≠ 0 ∧ (∀ sp, sp < 3 → (s.supply sp).newReqs = []
        ∧ (s.supply sp).withdrawn = [] ∧ (s.supply sp).returned = []) ∧ (s.supply 1).queue = [⟨7, q, 3, c, 0⟩]
        ∧ (s.supply 2).queue = [] ∧ booked s 1 + c ≤ budget 1) :=
  ⟨⟨Q, 0, 1, 1, 1, Bc fun c => { c with source := 0 }, by decide +kernel⟩,
   ⟨Q, 7, 1, 0, 1, Bc fun c => { c with source := 0 }, by decide +kernel⟩,
   ⟨Q, 1, 7, 1, 0, 1, Bc fun c => { c with source := 0 }, by decide +kernel⟩,
   ⟨Q, 1, 7, 1, 0, 1, Bc fun c => { c with lock := false, coast := true, phase := .glide }, by decide +kernel⟩,
   ⟨Q, 2, 0, 0, 0, 0, B, by decide +kernel⟩,
   ⟨Q, 64, 512, 256, B, by decide +kernel⟩,
   ⟨Q, 256, 512, 512, Bd fun d => { d with mode := .trim }, by decide +kernel⟩,
   ⟨Q, 64, 512, 256, { Bd (fun d => { d with mode := .trim }) with clk := { B.clk with div1 := ⟨128, 128, 128⟩ } },
       by decide +kernel⟩,
   ⟨Q, 63, 128, 256, B, by decide +kernel⟩,
   ⟨Q, 2, 0, B, by decide +kernel⟩,
   ⟨Q, 3, 0, B, by decide +kernel⟩,
   ⟨Q, Bc fun c => { c with coast := true, lock := false, phase := .glide }, by decide +kernel⟩,
   ⟨Q, Bc fun c => { c with coast := true, lock := false, phase := .parked }, by decide +kernel⟩,
   ⟨Q, Bc fun c => { c with source := 1 }, by decide +kernel⟩,
   ⟨Q, Bc fun c => { c with source := 1, primaryPassed := true }, fun _ _ h => absurd h List.not_mem_nil, by decide +kernel⟩,
   ⟨Q, Bc fun c => { c with source := 0 }, by decide +kernel⟩,
   ⟨.refclk, B, by decide +kernel⟩,
   ⟨Bc fun c => { c with phase := .judging, attempt := none, xo := {} }, by decide +kernel⟩,
   ⟨.xo, Bc fun c => { c with xoRun := false }, by decide +kernel⟩,
   ⟨B, by decide +kernel⟩,
   ⟨{ Bc (fun c => { c with coast := true, lock := false, phase := .parked, returnOrdered := true }) with mbx := [(3, { tasks := [⟨0x0205, 1, 2, false, 0, 0, 4, 0, 0⟩], reserved := 4 })] },
       by decide +kernel⟩,
   ⟨.recov, .xo, { Bc (fun c => { c with tests := [⟨.command, .recov, .xo⟩] }) with mbx := [(3, { tasks := [⟨0x0204, 1, 2, false, 0, 0, 4, 9, 0⟩], reserved := 4 })] },
       by decide +kernel⟩,
   ⟨.refclk, .xo,
       { Bc (fun c => { c with tests := [⟨.command, .refclk, .xo⟩] }) with mbx := [(3, { tasks := [⟨0x0204, 1, 2, false, 0, 0, 4, 1, 0⟩], reserved := 4 })] },
       by decide +kernel⟩,
   ⟨19, 14, { (Bg fun g => { g with slewLeft := 3 }).modSupply 1 (fun u => { u with queue := [⟨7, 19, 3, 14, 0⟩] }) with lan := { quads := [(19, { state := .waitGrant, qmode := 3 })] } },
       by decide +kernel⟩⟩

theorem witness_PowerAndHold :
    (∃ (c : Instr) (cfgMode : Nat) (pull : Bool) (s : State), cfgMode < 8 ∧ s.dev.mode = .off
        ∧ (c = .porNRelease false cfgMode pull ∨ c = .resetReleaseTimer false cfgMode pull))
    ∧ (∃ (c : Instr), (c = .porNAssert ∨ c = .supplyMonitorTrip))
    ∧ (∃ (cfgMode : Nat) (s : State), cfgMode < 5 ∧ s.dev.mode ≠ .off ∧ s.dev.compat = false)
    ∧ (∃ (s : State), s.dev.compat = true)
    ∧ (∃ (s : State), s.dev.compat = false)
    ∧ (∃ (ns : Nat) (s : State), 100 ≤ ns ∧ s.dev.clockSeen = true ∧ s.dev.mode ≠ .off ∧ s.dev.mode ≠ .hold)
    ∧ (∃ (ns : Nat) (s : State), (ns < 20 ∨ s.dev.clockSeen = false))
    ∧ (∃ (ns : Nat) (s : State), 20 ≤ ns ∧ ns < 100 ∧ s.dev.clockSeen = true)
    ∧ (∃ (ns : Nat) (s : State), 100 ≤ ns ∧ s.dev.clockSeen = true ∧ s.dev.mode = .hold)
    ∧ (∃ (n : Nat) (s : State), n < 96 ∧ s.dev.mode = .hold ∧ s.dev.busyTiles = 0 ∧ tileClocks s n = true
        ∧ portIdle (s.tile n) = true)
    ∧ (∃ (s : State), s.dev.mode = .hold)
    ∧ (∃ (e : Int) (h : Int) (w : Int) (s : State), s.dev.clockSeen = true ∧ (110 ≤ e ∨ 110 ≤ h ∨ 110 ≤ w))
    ∧ (∃ (e : Int) (h : Int) (w : Int) (s : State), s.dev.clockSeen = true ∧ e < 105 ∧ h < 105 ∧ w < 105)
    ∧ (∃ (e : Int) (h : Int) (w : Int) (s : State), s.dev.clockSeen = true ∧ e < 110 ∧ h < 110 ∧ w < 110
        ∧ (105 ≤ e ∨ 105 ≤ h ∨ 105 ≤ w)) :=
  ⟨⟨.porNRelease false 7 true, 7, true, State.reset, by decide +kernel⟩,
   ⟨.porNAssert, by decide +kernel⟩,
   ⟨4, B, by decide +kernel⟩,
   ⟨Bd fun d => { d with compat := true }, by decide +kernel⟩,
   ⟨B, by decide +kernel⟩,
   ⟨100, B, by decide +kernel⟩,
   ⟨19, B, by decide +kernel⟩,
   ⟨99, B, by decide +kernel⟩,
   ⟨100, Bd fun d => { d with mode := .hold, holdTick := 3 }, by decide +kernel⟩,
   ⟨95, { Bd (fun d => { d with mode := .hold }) with fab := { B.fab with tiles := [(95, { state := .on })] } },
       by decide +kernel⟩,
   ⟨{ Bd (fun d => { d with mode := .hold }) with fab := { B.fab with tiles := [(95, { state := .on })] } }, by decide +kernel⟩,
   ⟨0, 110, -40, B, by decide +kernel⟩,
   ⟨104, -40, 0, Bd fun d => { d with therm := true }, by decide +kernel⟩,
   ⟨105, 0, 109, Bd fun d => { d with therm := true }, by decide +kernel⟩⟩

theorem witness_GovernorBooks :
    (∃ (s : State), s.dev.ready.clock = true ∧ clockHolds s = true ∧ s.gov.granting = false ∧ s.dev.ready.current = false)
    ∧ (∃ (sp : Nat) (s : State), sp < 3 ∧ s.gov.waitWarn ≠ 0 ∧ (s.supply sp).queue ≠ [] ∧ (s.supply sp).warned = false
        ∧ s.gov.waitWarn * 1024 ≤ s.now - (s.supply sp).headSince)
    ∧ (∃ (sp : Nat), sp < 3)
    ∧ (∃ (s : State), granting s = false)
    ∧ (∃ (kind : Nat) (credits : Nat), kind ≤ 9 ∧ credits + standingOf (supplyOf kind) ≤ budget (supplyOf kind))
    ∧ (∃ (kind : Nat) (credits : Nat), kind ≤ 9 ∧ budget (supplyOf kind) < credits + standingOf (supplyOf kind)) :=
  ⟨⟨{ Bg (fun g => { g with granting := false }) with dev := { B.dev with ready := { B.dev.ready with current := false } } },
      by decide +kernel⟩,
   ⟨2, (Bg fun g => { g with waitWarn := 1 }).modSupply 2 fun u => { u with queue := [⟨6, 0, 1, 22, 0⟩], headSince := 0 },
       by decide +kernel⟩,
   ⟨2, by decide +kernel⟩,
   ⟨(Bg (fun g => { g with grantEn := false })).modSupply 0 fun u => { u with newReqs := [⟨0, 1, 2, 16, 0⟩, ⟨8, 0, 2, 32, 0⟩], returned := [(5, 16)], held := [(5, 16)] },
       by decide +kernel⟩,
   ⟨6, 176, by decide +kernel⟩,
   ⟨0, 1819, by decide +kernel⟩⟩

theorem witness_GovernorGrantsInOrder :
    (∃ (s : State), s.gov.standing = true ∧ (∀ sp, sp < 3 → booked s sp ≤ budget sp))
    ∧ (∃ (kind : Nat) (credits : Nat), neverFits (supplyOf kind) credits = false) :=
  ⟨⟨(B.modSupply 0 fun u => { u with queue := [⟨0, 1, 2, 1818, 0⟩] }), by decide +kernel⟩,
   ⟨7, 14, by decide +kernel⟩⟩

theorem witness_ServoEvents :
    (∃ (e : Int) (s : State), -(2 ^ 63) ≤ e ∧ e < 2 ^ 63 ∧ (s.tim.servo = .coast ∨ s.tim.forceHold = true ∨ s.dev.mode = .hold))
    ∧ (∃ (e : Int) (s : State), -(2 ^ 63) ≤ e ∧ e < 2 ^ 63 ∧ (s.tim.servo = .free ∨ s.tim.servo = .grandmaster)
        ∧ s.tim.forceHold = false ∧ s.dev.mode ≠ .hold)
    ∧ (∃ (e : Int) (s : State), -(2 ^ 63) ≤ e ∧ e < 2 ^ 63
        ∧ (s.tim.servo = .acquire ∨ s.tim.servo = .locked ∨ s.tim.servo = .holdover) ∧ s.tim.forceHold = false
        ∧ s.dev.mode ≠ .hold ∧ s.tim.stepThresh * 1000 * 2 ^ 16 ≤ e.natAbs)
    ∧ (∃ (e : Int) (s : State), -(2 ^ 63) ≤ e ∧ e < 2 ^ 63 ∧ s.tim.servo = .acquire ∧ s.tim.forceHold = false
        ∧ s.dev.mode ≠ .hold ∧ e.natAbs < s.tim.stepThresh * 1000 * 2 ^ 16 ∧ 0 ≤ s.tim.kiExp ∧ 0 ≤ s.tim.kpExp
        ∧ s.tim.lockBound * 2 ^ 16 < e.natAbs ∧ s.tim.lockCount ≠ 0)
    ∧ (∃ (e : Int) (s : State), -(2 ^ 63) ≤ e ∧ e < 2 ^ 63 ∧ s.tim.servo = .acquire ∧ s.tim.forceHold = false
        ∧ s.dev.mode ≠ .hold ∧ e.natAbs < s.tim.stepThresh * 1000 * 2 ^ 16 ∧ e.natAbs ≤ s.tim.lockBound * 2 ^ 16
        ∧ s.tim.lockCount ≤ s.tim.lockRun + 1 ∧ s.tim.lockCount ≤ 15)
    ∧ (∃ (s : State), s.tim.servoEn = false ∧ s.tim.servo = .free)
    ∧ (∃ (s : State), s.tim.servoEn = true)
    ∧ (∃ (s : State), s.tim.forceHold = false ∧ (s.tim.servo = .acquire ∨ s.tim.servo = .locked))
    ∧ (∃ (s : State), s.tim.forceHold = false ∧ s.tim.servo ≠ .acquire ∧ s.tim.servo ≠ .locked)
    ∧ (∃ (s : State), s.tim.forceHold = true)
    ∧ (∃ (s : State), s.tim.timeout ≠ 0 ∧ s.dev.mode ≠ .hold ∧ (s.tim.servo = .acquire ∨ s.tim.servo = .locked))
    ∧ (∃ (s : State), s.tim.servo = .holdover) :=
  ⟨⟨-(2 ^ 63), Bt fun t => { t with servo := .coast }, by decide +kernel⟩,
   ⟨2 ^ 63 - 1, Bt fun t => { t with servo := .grandmaster }, by decide +kernel⟩,
   ⟨-655360000, Bt fun t => { t with servo := .holdover }, by decide +kernel⟩,
   ⟨655359999, Bt fun t => { t with servo := .acquire, lockRun := 5 }, by decide +kernel⟩,
   ⟨100 * 2 ^ 16, Bt fun t => { t with servo := .acquire, lockRun := 7 }, by decide +kernel⟩,
   ⟨B, by decide +kernel⟩,
   ⟨Bt fun t => { t with servoEn := true }, by decide +kernel⟩,
   ⟨Bt fun t => { t with servo := .locked }, by decide +kernel⟩,
   ⟨Bt fun t => { t with servo := .holdover }, by decide +kernel⟩,
   ⟨Bt fun t => { t with forceHold := true, servo := .locked }, by decide +kernel⟩,
   ⟨Bt fun t => { t with servo := .locked }, by decide +kernel⟩,
   ⟨Bt fun t => { t with servo := .holdover }, by decide +kernel⟩⟩

theorem witness_TimeCommands :
    (∃ (q : CmdCtx) (kp : Nat) (ki : Nat) (count : Nat) (bound : Nat) (stp : Nat) (timeout : Nat) (limit : Nat) (s : State),
        kp < 256 ∧ ki < 256 ∧ -16 ≤ sgn 8 kp ∧ sgn 8 kp ≤ 15 ∧ -16 ≤ sgn 8 ki ∧ sgn 8 ki ≤ 15 ∧ 1 ≤ count ∧ count ≤ 15
        ∧ bound < 2 ^ 16 ∧ stp < 2 ^ 16 ∧ timeout < 2 ^ 16 ∧ limit < 2 ^ 16 ∧ MayIssue q 0x0B02 12 s
        ∧ s.dev.ready.timebase = true)
    ∧ (∃ (q : CmdCtx) (mode : Nat) (tick : Nat) (sec : Nat) (ns : Nat) (frac : Nat) (s : State), mode ≤ 1 ∧ tick < 2 ^ 64
        ∧ sec < 2 ^ 48 ∧ ns < 10 ^ 9 ∧ frac < 2 ^ 16 ∧ MayIssue q 0x0B03 28 s ∧ s.dev.ready.timebase = true
        ∧ (s.tim.servo = .free ∨ s.tim.servo = .grandmaster))
    ∧ (∃ (q : CmdCtx) (mode : Nat) (tick : Nat) (sec : Nat) (ns : Nat) (frac : Nat) (s : State), mode ≤ 1 ∧ tick < 2 ^ 64
        ∧ sec < 2 ^ 48 ∧ ns < 10 ^ 9 ∧ frac < 2 ^ 16 ∧ MayIssue q 0x0B03 28 s ∧ s.dev.ready.timebase = true
        ∧ s.tim.servo ≠ .free ∧ s.tim.servo ≠ .grandmaster)
    ∧ (∃ (q : CmdCtx) (ports : Nat) (domain : Nat) (every : Nat) (s : State), ports < 256 ∧ domain < 256 ∧ every ≤ 1
        ∧ MayIssue q 0x0B04 3 s ∧ s.dev.ready.timebase = true)
    ∧ (∃ (q : CmdCtx) (p : Nat) (s : State), p < 8 ∧ MayIssue q 0x0B05 1 s ∧ s.dev.ready.timebase = true
        ∧ (s.port p).tsFifo = [])
    ∧ (∃ (q : CmdCtx) (p : Nat) (e : TsEntry) (l : List TsEntry) (s : State), p < 8 ∧ MayIssue q 0x0B05 1 s
        ∧ s.dev.ready.timebase = true ∧ (s.port p).tsFifo = e :: l)
    ∧ (∃ (q : CmdCtx) (p : Nat) (domain : Nat) (transport : Nat) (logSync : Nat) (role : Nat) (s : State), (p < 8 ∨ p = 255)
        ∧ domain ≤ 239 ∧ transport ≤ 2 ∧ logSync < 256 ∧ -7 ≤ sgn 8 logSync ∧ sgn 8 logSync ≤ 0 ∧ role ≤ 1
        ∧ MayIssue q 0x0B06 5 s ∧ s.dev.ready.timebase = true)
    ∧ (∃ (q : CmdCtx) (s : State), MayIssue q 0x0B08 1 s ∧ s.dev.ready.timebase = true)
    ∧ (∃ (q : CmdCtx) (s : State), MayIssue q 0x0B08 1 s ∧ s.dev.ready.timebase = true ∧ s.tim.servo = .locked
        ∧ s.dev.mode ≠ .hold)
    ∧ (∃ (q : CmdCtx) (enter : Nat) (s : State), enter ≤ 1 ∧ MayIssue q 0x0B08 1 s ∧ s.dev.ready.timebase = false)
    ∧ (∃ (q : CmdCtx) (kp : Nat) (ki : Nat) (count : Nat) (s : State), kp < 256 ∧ ki < 256 ∧ -16 ≤ sgn 8 kp ∧ sgn 8 kp ≤ 15
        ∧ -16 ≤ sgn 8 ki ∧ sgn 8 ki ≤ 15 ∧ 1 ≤ count ∧ count ≤ 15 ∧ MayIssue q 0x0B02 12 s ∧ s.dev.ready.timebase = false)
    ∧ (∃ (q : CmdCtx) (mode : Nat) (ns : Nat) (s : State), mode ≤ 1 ∧ ns < 10 ^ 9 ∧ MayIssue q 0x0B03 28 s
        ∧ s.dev.ready.timebase = false)
    ∧ (∃ (q : CmdCtx) (every : Nat) (s : State), every ≤ 1 ∧ MayIssue q 0x0B04 3 s ∧ s.dev.ready.timebase = false)
    ∧ (∃ (q : CmdCtx) (p : Nat) (s : State), p < 8 ∧ MayIssue q 0x0B05 1 s ∧ s.dev.ready.timebase = false)
    ∧ (∃ (q : CmdCtx) (p : Nat) (domain : Nat) (transport : Nat) (logSync : Nat) (role : Nat) (s : State), (p < 8 ∨ p = 255)
        ∧ domain ≤ 239 ∧ transport ≤ 2 ∧ logSync < 256 ∧ -7 ≤ sgn 8 logSync ∧ sgn 8 logSync ≤ 0 ∧ role ≤ 1
        ∧ MayIssue q 0x0B06 5 s ∧ s.dev.ready.timebase = false) :=
  ⟨⟨Q, 240, 15, 15, 65535, 65535, 65535, 0, BR, by decide +kernel⟩,
   ⟨Q, 1, 2 ^ 64 - 1, 2 ^ 48 - 1, 999999999, 65535, BR, by decide +kernel⟩,
   ⟨Q, 1, 3, 1, 5, 0, { BR with tim := { BR.tim with servo := .acquire } }, by decide +kernel⟩,
   ⟨Q, 255, 255, 1, BR, by decide +kernel⟩,
   ⟨Q, 7, BR, by decide +kernel⟩,
   ⟨Q, 7, ⟨3, 9, 1, 2 ^ 63, 5⟩, [⟨1, 2, 3, 4, 5⟩],
       { BR with lan := { BR.lan with ports := [(7, { tsFifo := [⟨3, 9, 1, 2 ^ 63, 5⟩, ⟨1, 2, 3, 4, 5⟩] })] } },
       by decide +kernel⟩,
   ⟨Q, 255, 239, 2, 249, 1, BR, by decide +kernel⟩,
   ⟨Q, BR, by decide +kernel⟩,
   ⟨Q, { BR with tim := { BR.tim with servo := .locked } }, by decide +kernel⟩,
   ⟨Q, 1, Bd fun d => { d with ready := { d.ready with timebase := false } }, by decide +kernel⟩,
   ⟨Q, 240, 15, 15, Bd fun d => { d with ready := { d.ready with timebase := false } }, by decide +kernel⟩,
   ⟨Q, 1, 5, Bd fun d => { d with ready := { d.ready with timebase := false } }, by decide +kernel⟩,
   ⟨Q, 1, Bd fun d => { d with ready := { d.ready with timebase := false } }, by decide +kernel⟩,
   ⟨Q, 7, Bd fun d => { d with ready := { d.ready with timebase := false } }, by decide +kernel⟩,
   ⟨Q, 255, 239, 2, 249, 1, Bd fun d => { d with ready := { d.ready with timebase := false } }, by decide +kernel⟩⟩

theorem witness_RightsJudged :
    (∃ (cls : Nat) (s : State), cls ≠ 1 ∧ cls ≠ 6 ∧ (cls ≠ 7 ∨ lifecycle s.fuse = 1) ∧ s.sec.acc.old = [])
    ∧ (∃ (cls : Nat) (s : State), cls ≠ 1 ∧ cls ≠ 6 ∧ (cls ≠ 7 ∨ lifecycle s.fuse = 1) ∧ s.sec.acc.old ≠ [])
    ∧ (∃ (cls : Nat), (cls = 1 ∨ cls = 6))
    ∧ (∃ (s : State), (lifecycle s.fuse = 0 ∨ lifecycle s.fuse = 3))
    ∧ (∃ (s : State), lifecycle s.fuse = 2) :=
  ⟨⟨0, BD, by decide +kernel⟩,
   ⟨0, { BD with sec := { BD.sec with acc := { BD.sec.acc with old := [[]] } } }, by decide +kernel⟩,
   ⟨6, by decide +kernel⟩,
   ⟨B, by decide +kernel⟩,
   ⟨{ B with fuse := { lifecycle := 0b110000 } }, by decide +kernel⟩⟩

theorem witness_SecurityCommands :
    (∃ (q : CmdCtx) (entry : Nat) (ctl : Nat) (base : Nat) (limit : Nat) (s : State), entry < 64 ∧ ctl < 2 ^ 32 ∧ base < 2 ^ 32
        ∧ limit < 2 ^ 32 ∧ entryOk (rightsOf ctl base limit) = true ∧ MayIssue q 0x0D01 16 s
        ∧ (tget noRights s.sec.acc.entries entry).lock = false)
    ∧ (∃ (q : CmdCtx) (entry : Nat) (ctl : Nat) (base : Nat) (limit : Nat) (s : State), entry < 64 ∧ ctl < 2 ^ 32
        ∧ base < 2 ^ 32 ∧ limit < 2 ^ 32 ∧ entryOk (rightsOf ctl base limit) = true ∧ MayIssue q 0x0D01 16 s
        ∧ (tget noRights s.sec.acc.entries entry).lock = true)
    ∧ (∃ (q : CmdCtx) (entry : Nat) (ctl : Nat) (base : Nat) (limit : Nat) (s : State), entry < 256 ∧ ctl < 2 ^ 32
        ∧ base < 2 ^ 32 ∧ limit < 2 ^ 32 ∧ (63 < entry ∨ entryOk (rightsOf ctl base limit) = false) ∧ MayIssue q 0x0D01 16 s)
    ∧ (∃ (q : CmdCtx) (target : Nat) (s : State), target ≤ 3 ∧ MayIssue q 0x0D04 1 s ∧ s.dev.mode = .safe
        ∧ lifecycle s.fuse < target ∧ s.sec.lcs.blowing = none)
    ∧ (∃ (q : CmdCtx) (target : Nat) (s : State), target ≤ 3 ∧ MayIssue q 0x0D04 1 s
        ∧ (s.dev.mode ≠ .safe ∨ target ≤ lifecycle s.fuse ∨ s.sec.lcs.blowing ≠ none))
    ∧ (∃ (q : CmdCtx) (target : Nat) (s : State), 3 < target ∧ target < 256 ∧ MayIssue q 0x0D04 1 s)
    ∧ (∃ (q : CmdCtx) (a : Arm) (s : State), a.target ≤ 3 ∧ MayIssue q 0x0D05 4 s ∧ s.sec.lcs.arm = some a
        ∧ s.now - a.since ≤ 1500000000 ∧ s.sor.restart = none)
    ∧ (∃ (q : CmdCtx) (target : Nat) (nonce : Nat) (a : Arm) (s : State), target ≤ 3 ∧ nonce < 2 ^ 16 ∧ MayIssue q 0x0D05 4 s
        ∧ s.sec.lcs.arm = some a ∧ s.now - a.since ≤ 1500000000 ∧ (a.target ≠ target ∨ a.nonce.toNat ≠ nonce))
    ∧ (∃ (q : CmdCtx) (target : Nat) (nonce : Nat) (a : Arm) (s : State), target ≤ 3 ∧ nonce < 2 ^ 16 ∧ MayIssue q 0x0D05 4 s
        ∧ s.sec.lcs.arm = some a ∧ 1500000000 < s.now - a.since)
    ∧ (∃ (q : CmdCtx) (target : Nat) (nonce : Nat) (s : State), target ≤ 3 ∧ nonce < 2 ^ 16 ∧ MayIssue q 0x0D05 4 s
        ∧ s.sec.lcs.arm = none)
    ∧ (∃ (q : CmdCtx) (target : Nat) (nonce : Nat) (s : State), 3 < target ∧ target < 256 ∧ nonce < 2 ^ 16
        ∧ MayIssue q 0x0D05 4 s) :=
  ⟨⟨Q, 63, 0xF3010200, 0, 0x1FFFFFFF, B, by decide +kernel⟩,
   ⟨Q, 63, 0xF3010200, 0, 0,
       { B with sec := { B.sec with acc := { B.sec.acc with entries := [(63, ⟨true, true, true, true, 0, 0, 0, 0, 0⟩)] } } },
       by decide +kernel⟩,
   ⟨Q, 64, 0xF3010200, 0, 0, B, by decide +kernel⟩,
   ⟨Q, 3, Bd fun d => { d with mode := .safe }, by decide +kernel⟩,
   ⟨Q, 0, Bd fun d => { d with mode := .safe }, by decide +kernel⟩,
   ⟨Q, 4, Bd fun d => { d with mode := .safe }, by decide +kernel⟩,
   ⟨Q, ⟨1, 77, 0⟩, { B with sec := { B.sec with lcs := { B.sec.lcs with arm := some ⟨1, 77, 0⟩ } } }, by decide +kernel⟩,
   ⟨Q, 1, 78, ⟨1, 77, 0⟩, { B with sec := { B.sec with lcs := { B.sec.lcs with arm := some ⟨1, 77, 0⟩ } } }, by decide +kernel⟩,
   ⟨Q, 1, 77, ⟨1, 77, 0⟩,
       { Bt (fun t => { t with tick := 1500000001 * 2 ^ 48 }) with sec := { B.sec with lcs := { B.sec.lcs with arm := some ⟨1, 77, 0⟩ } } },
       by decide +kernel⟩,
   ⟨Q, 1, 77, B, by decide +kernel⟩,
   ⟨Q, 255, 65535, B, by decide +kernel⟩⟩

theorem witness_LoadEvents :
    (∃ (s : State), mayStart s = true ∧ isFollower s = false ∧ s.boot.dir.valid = true ∧ s.boot.dir.fwTrial = 0
        ∧ fwSlotSize s.boot.dir s.boot.dir.fwActive ≠ 0)
    ∧ (∃ (s : State), mayStart s = true ∧ isFollower s = false ∧ s.boot.dir.valid = true ∧ s.boot.dir.fwTrial = 1
        ∧ fwSlotSize s.boot.dir (!s.boot.dir.fwActive) ≠ 0)
    ∧ (∃ (s : State), mayStart s = true ∧ isFollower s = false ∧ s.boot.dir.valid = false)
    ∧ (∃ (f : Flash) (s : State), mayStart s = true ∧ (isFollower s = true ∨ ((directoryOf false f.dirA).valid = true
        ∧ (directoryOf false f.dirA).fwTrial = 0
        ∧ fwSlotSize (directoryOf false f.dirA) (directoryOf false f.dirA).fwActive ≠ 0))
        ∧ secondLater (directoryOf false f.dirA) (directoryOf true f.dirB) = false)
    ∧ (∃ (h : Header) (g : Header) (s : State), g = loadedHeader s h ∧ awaitsHeader s = true ∧ s.boot.kind = .base
        ∧ headerCode 1 s g = 0 ∧ sourceEnds s (if g.version = 1 then 0x400 else 0x600) = false)
    ∧ (∃ (h : Header) (g : Header) (s : State), g = loadedHeader s h ∧ awaitsHeader s = true ∧ s.boot.kind = .firmware
        ∧ headerCode 0 s g = 0 ∧ sourceEnds s (if g.version = 1 then 0x400 else 0x600) = false)
    ∧ (∃ (h : Header) (g : Header) (s : State) (code : _), g = loadedHeader s h ∧ awaitsHeader s = true ∧ s.boot.kind = .base
        ∧ code = (if sourceEnds s (if g.version = 1 then 0x400 else 0x600) then 0x0A else headerCode 1 s g) ∧ code ≠ 0)
    ∧ (∃ (h : Header) (g : Header) (s : State), g = loadedHeader s h ∧ awaitsHeader s = true ∧ s.boot.kind = .firmware
        ∧ sourceEnds s (if g.version = 1 then 0x400 else 0x600) = false ∧ headerCode 0 s g ≠ 0 ∧ isFollower s = false
        ∧ s.boot.fwTrialRun = false ∧ s.boot.triedOther = false ∧ fwSlotSize s.boot.dir (!s.boot.dir.fwActive) ≠ 0)
    ∧ (∃ (l : List PinSetting) (s : State), mayEnd (.pins l) s = true ∧ s.boot.kind = .base
        ∧ sourceEnds s ((currentSection s).offset + (currentSection s).length) = false)
    ∧ (∃ (l : List (Nat × RightsEntry)) (s : State), mayEnd (.rights l) s = true ∧ s.boot.kind = .base
        ∧ sourceEnds s ((currentSection s).offset + (currentSection s).length) = false)
    ∧ (∃ (s : State), mayEnd .frames s = true ∧ s.boot.kind = .base
        ∧ sourceEnds s ((currentSection s).offset + (currentSection s).length) = false ∧ nextFrameAddr s = none
        ∧ s.boot.blockLeft = 0)
    ∧ (∃ (c : Section) (digestOk : Bool) (s : State) (code : _), mayEnd c s = true ∧ s.boot.kind = .base
        ∧ code = (if sourceEnds s ((currentSection s).offset + (currentSection s).length) then 0x0A else if digestOk then 0 else 0x09)
        ∧ code ≠ 0)
    ∧ (∃ (svn : Nat) (setFmt : Nat) (least : Nat) (s : State), mayEnd (.fwInfo svn setFmt least) s = true
        ∧ s.boot.kind = .firmware ∧ sourceEnds s ((currentSection s).offset + (currentSection s).length) = false ∧ svn < 256
        ∧ setFmt < 256 ∧ arbCount s ≤ svn ∧ svn ≤ 128 ∧ heldMode s = true)
    ∧ (∃ (head : List Byte) (h : List Byte) (v : BitVec 640) (w : BitVec 640) (addr : Nat) (left : Nat) (pos : Nat) (s : State),
        readsSections s = true ∧ s.boot.phase = .frames ∧ moreFrames s = true ∧ h = nextHead s head ∧ ((s.boot.blockLeft ≠ 0
        ∧ addr = s.boot.blockNext ∧ left = s.boot.blockLeft ∧ pos = s.boot.framePos) ∨ (s.boot.blockLeft = 0 ∧ headOk h = true
        ∧ addr = leAt h 0 4 ∧ left = leAt h 4 4 ∧ pos = s.boot.framePos + 16)) ∧ addr < 2 ^ 22
        ∧ w = frameBits { s with boot := { s.boot with framePos := pos } } v ∧ baseFrameCode s addr w = 0)
    ∧ (∃ (head : List Byte) (h : List Byte) (v : BitVec 640) (w : BitVec 640) (addr : Nat) (left : Nat) (pos : Nat) (s : State),
        readsSections s = true ∧ s.boot.phase = .frames ∧ moreFrames s = true ∧ h = nextHead s head ∧ ((s.boot.blockLeft ≠ 0
        ∧ addr = s.boot.blockNext ∧ left = s.boot.blockLeft ∧ pos = s.boot.framePos) ∨ (s.boot.blockLeft = 0 ∧ headOk h = true
        ∧ addr = leAt h 0 4 ∧ left = leAt h 4 4 ∧ pos = s.boot.framePos + 16)) ∧ addr < 2 ^ 22
        ∧ w = frameBits { s with boot := { s.boot with framePos := pos } } v ∧ baseFrameCode s addr w ≠ 0)
    ∧ (∃ (head : List Byte) (s : State), readsSections s = true ∧ s.boot.phase = .frames ∧ moreFrames s = true
        ∧ s.boot.blockLeft = 0 ∧ headOk (nextHead s head) = false)
    ∧ (∃ (s : State), (awaitsHeader s = true ∨ readsSections s = true) ∧ s.boot.kind = .base)
    ∧ (∃ (s : State), awaitsHeader s = true ∧ s.boot.gotByte = false ∧ s.boot.kind = .base)
    ∧ (∃ (s : State), baseRuns s = true)
    ∧ (∃ (s : State), baseRuns s = false) :=
  ⟨⟨Lf fun b => { b with dir := { b.dir with valid := true, fwASize := 4096 } }, by decide +kernel⟩,
   ⟨Lf fun b => { b with dir := { b.dir with valid := true, fwBSize := 4096, fwTrial := 1 } }, by decide +kernel⟩,
   ⟨Lf fun b => b, by decide +kernel⟩,
   ⟨⟨[], [], 5, 6, 7, 8, 1, 2, 3, 4⟩, { Lf (fun b => b) with dev := { B.dev with mode := .load, cfgMode := 2 } },
       by decide +kernel⟩,
   ⟨hBase, hBase, Lb fun b => { b with phase := .header }, by decide +kernel⟩,
   ⟨hFw, hFw, Lb fun b => { b with kind := .firmware, phase := .firmware }, by decide +kernel⟩,
   ⟨hBase, loadedHeader (Ld (hb [3, 0x20] 0) fun b => { b with phase := .header }) hBase, Ld (hb [3,
       0x20] 0) fun b => { b with phase := .header }, 8, by decide +kernel⟩,
   ⟨hBase, hBase, Lb fun b => { b with kind := .firmware, phase := .firmware }, by decide +kernel⟩,
   ⟨[⟨959, 5, true, 1, 3⟩], Lb fun b => { b with phase := .sections, sections := tab [0x14, 0x10] }, by decide +kernel⟩,
   ⟨[(0, ⟨true, false, true, true, 0, 0, 0, 0, 9⟩)], Lb fun b => { b with phase := .sections, sections := tab [0x13, 0x10] },
       by decide +kernel⟩,
   ⟨Lb fun b => { b with phase := .frames, sections := tab [0x10], nextFrame := 19712, usedTiles := [95], usedPlls := [23], usedClusters := [11] },
       by decide +kernel⟩,
   ⟨.frames, false, Lb fun b => { b with phase := .frames, sections := tab [0x10] }, 9, by decide +kernel⟩,
   ⟨128, 255, 1, { Lb fun b => { b with kind := .firmware, phase := .firmware, sections := tab [4] } with dev := { B.dev with mode := .load, cfgMode := 3 } },
       by decide +kernel⟩,
   ⟨fh (95 * 2 ^ 15) 19712, fh (95 * 2 ^ 15) 19712, 2 ^ 600, 2 ^ 600, 95 * 2 ^ 15, 19712, 16,
       Lb fun b => { b with phase := .frames, sections := tab [0x10], usedTiles := [95], framePos := 0 }, by decide +kernel⟩,
   ⟨fh (95 * 2 ^ 15 + 1) 19712, fh (95 * 2 ^ 15 + 1) 19712, 5, 5, 95 * 2 ^ 15 + 1, 19712, 16,
       Lb fun b => { b with phase := .frames, sections := tab [0x10], usedTiles := [95], framePos := 0 }, by decide +kernel⟩,
   ⟨fh 5 19713, Lb fun b => { b with phase := .frames, sections := tab [0x10], usedTiles := [95] }, by decide +kernel⟩,
   ⟨Lf fun b => { b with kind := .base, phase := .frames, sections := tab [0x10] }, by decide +kernel⟩,
   ⟨Lf fun b => { b with kind := .base, phase := .header }, by decide +kernel⟩,
   ⟨Lf fun b => { b with kind := .base, phase := .startup }, by decide +kernel⟩,
   ⟨B, by decide +kernel⟩⟩

theorem witness_StartupAndUpdateEvents :
    (∃ (s : State), startingUpNow s = true ∧ s.boot.step < 3 ∧ bits s.boot.startOrder (2 * s.boot.step) 2 = 3)
    ∧ (∃ (s : State), startingUpNow s = true ∧ s.boot.step < 3 ∧ bits s.boot.startOrder (2 * s.boot.step) 2 = 2)
    ∧ (∃ (s : State), startingUpNow s = true ∧ s.boot.step < 3 ∧ bits s.boot.startOrder (2 * s.boot.step) 2 = 1)
    ∧ (∃ (s : State), startingUpNow s = true ∧ bits s.boot.startOrder (2 * s.boot.step) 2 = 0
        ∧ ((s.boot.usedPlls.any fun n => (s.pll n).rangeErr) = false) ∧ clkStepDone s = false)
    ∧ (∃ (s : State), startingUpNow s = true ∧ bits s.boot.startOrder (2 * s.boot.step) 2 = 0 ∧ s.boot.step < 3
        ∧ ((s.boot.usedPlls.any fun n => (s.pll n).rangeErr) = false) ∧ clkStepDone s = true)
    ∧ (∃ (s : State), startingUpNow s = true ∧ s.boot.step = 3 ∧ bits s.boot.startOrder 6 2 = 1)
    ∧ (∃ (n : Nat) (s : State), startingUpNow s = true ∧ bits s.boot.startOrder (2 * s.boot.step) 2 = 0
        ∧ s.boot.usedPlls.contains n = true ∧ (s.pll n).granted = true ∧ (s.pll n).lock = false)
    ∧ (∃ (s : State), s.boot.wiping = true ∧ s.dev.mode = .load ∧ s.boot.trial = false)
    ∧ (∃ (s : State), s.boot.wiping = true ∧ s.dev.mode = .load ∧ s.boot.trial = true ∧ isFollower s = false
        ∧ slotSize s.boot.dir s.boot.dir.baseActive ≠ 0)
    ∧ (∃ (s : State), windowRuns s = true ∧ s.boot.winWarned = false ∧ s.boot.winLen * 1350000000 ≤ s.now - s.boot.winStart)
    ∧ (∃ (s : State), windowRuns s = true ∧ s.boot.winLen * 1500000000 ≤ s.now - s.boot.winStart)
    ∧ (∃ (k : Nat) (s : State), s.boot.arbBusy = true ∧ nextStep s = some k)
    ∧ (∃ (s : State), s.boot.keyFusing = true ∧ s.fuse.keyFused = false)
    ∧ (∃ (s : State), s.boot.flashBase = some true)
    ∧ (∃ (s : State), s.boot.flashBase = some false) :=
  ⟨⟨Lf fun b => { b with kind := .base, phase := .startup, step := 2, startOrder := 0b00110100 }, by decide +kernel⟩,
   ⟨Lf fun b => { b with kind := .base, phase := .startup, step := 0, startOrder := 0b00110110 }, by decide +kernel⟩,
   ⟨Lf fun b => { b with kind := .base, phase := .startup, step := 2, startOrder := 0b11010010, pins := [⟨959, 5, true, 5, 3⟩, ⟨0, 3, true, 0, 4⟩] },
       by decide +kernel⟩,
   ⟨Lf fun b => { b with kind := .base, phase := .startup, step := 0, startOrder := 0b11100100, usedTiles := [1] },
       by decide +kernel⟩,
   ⟨Lf fun b => { b with kind := .base, phase := .startup, step := 0, startOrder := 0b11100100 }, by decide +kernel⟩,
   ⟨Lf fun b => { b with kind := .base, phase := .startup, step := 3, startOrder := 0b01100011 }, by decide +kernel⟩,
   ⟨3, { Lf fun b => { b with kind := .base, phase := .startup, step := 0, startOrder := 0b11100100, usedPlls := [3] } with fab := { B.fab with plls := [(3, { granted := true })] } },
       by decide +kernel⟩,
   ⟨Lf fun b => { b with wiping := true, kind := .base }, by decide +kernel⟩,
   ⟨Lb fun b => { b with wiping := true, trial := true, slot := true }, by decide +kernel⟩,
   ⟨{ B with tim := { B.tim with tick := 108000000000 * 2 ^ 48 }, boot := { B.boot with winOn := true, winLen := 80 } },
       by decide +kernel⟩,
   ⟨{ B with tim := { B.tim with tick := 120000000000 * 2 ^ 48 }, boot := { B.boot with winOn := true, winLen := 80, trial := true, fwTrialRun := true } },
       by decide +kernel⟩,
   ⟨0, Bb fun b => { b with arbBusy := true, arbTarget := 1 }, by decide +kernel⟩,
   ⟨Bb fun b => { b with keyFusing := true, keyHash := 7 }, by decide +kernel⟩,
   ⟨Bb fun b => { b with flashBase := some true }, by decide +kernel⟩,
   ⟨Bb fun b => { b with flashBase := some false, stageVersion := 7, stageSvn := 8 }, by decide +kernel⟩⟩

theorem witness_UpdateCommands :
    (∃ (q : CmdCtx) (addr : Nat) (len : Nat) (s : State), addr < 2 ^ 64 ∧ len < 2 ^ 32 ∧ MayIssue q 0x0402 12 s ∧ 0 < len
        ∧ heldReady s addr len = true ∧ s.dev.mode = .safe ∧ lifecycle s.fuse ≠ 3
        ∧ rightsJudge (mbxClass q.mbx) 0 true false addr (len - 1) s = (true, s) ∧ (dramTarget s addr).isSome = true
        ∧ (dramTarget s (addr + len - 1)).isSome = true)
    ∧ (∃ (q : CmdCtx) (addr : Nat) (len : Nat) (s : State), addr < 2 ^ 64 ∧ len < 2 ^ 32 ∧ MayIssue q 0x0402 12 s
        ∧ heldReady s addr len = false)
    ∧ (∃ (q : CmdCtx) (addr : Nat) (len : Nat) (s : State), addr < 2 ^ 64 ∧ len < 2 ^ 32 ∧ MayIssue q 0x0402 12 s
        ∧ heldReady s addr len = true ∧ (s.dev.mode ≠ .safe ∨ lifecycle s.fuse = 3))
    ∧ (∃ (q : CmdCtx) (hold : Nat) (s : State), hold ≤ 1 ∧ MayIssue q 0x0403 1 s ∧ s.dev.mode ≠ .hold ∧ s.sor.restart = none)
    ∧ (∃ (q : CmdCtx) (hold : Nat) (s : State), hold < 256 ∧ MayIssue q 0x0403 1 s ∧ (1 < hold ∨ s.dev.mode = .hold))
    ∧ (∃ (q : CmdCtx) (addr : Nat) (len : Nat) (st : Staged) (s : State), addr < 2 ^ 64 ∧ len < 2 ^ 32 ∧ MayIssue q 0x0404 12 s
        ∧ 0 < len ∧ len ≤ slotSize s.boot.dir (!s.boot.dir.baseActive) ∧ heldReady s addr len = true ∧ s.boot.dir.baseTrial = 0
        ∧ s.boot.flashBase = none ∧ rightsJudge (mbxClass q.mbx) 0 true false addr (len - 1) s = (true, s)
        ∧ (dramTarget s addr).isSome = true ∧ (dramTarget s (addr + len - 1)).isSome = true ∧ baseStageCode addr len st s = 0)
    ∧ (∃ (q : CmdCtx) (addr : Nat) (len : Nat) (st : Staged) (s : State), addr < 2 ^ 64 ∧ len < 2 ^ 32 ∧ MayIssue q 0x0404 12 s
        ∧ 0 < len ∧ len ≤ slotSize s.boot.dir (!s.boot.dir.baseActive) ∧ heldReady s addr len = true ∧ s.boot.dir.baseTrial = 0
        ∧ s.boot.flashBase = none ∧ rightsJudge (mbxClass q.mbx) 0 true false addr (len - 1) s = (true, s)
        ∧ (dramTarget s addr).isSome = true ∧ (dramTarget s (addr + len - 1)).isSome = true ∧ baseStageCode addr len st s ≠ 0)
    ∧ (∃ (q : CmdCtx) (addr : Nat) (len : Nat) (s : State), addr < 2 ^ 64 ∧ len < 2 ^ 32 ∧ MayIssue q 0x0404 12 s
        ∧ slotSize s.boot.dir (!s.boot.dir.baseActive) < len)
    ∧ (∃ (q : CmdCtx) (addr : Nat) (len : Nat) (s : State), addr < 2 ^ 64 ∧ len < 2 ^ 32 ∧ MayIssue q 0x0404 12 s
        ∧ len ≤ slotSize s.boot.dir (!s.boot.dir.baseActive) ∧ heldReady s addr len = false)
    ∧ (∃ (q : CmdCtx) (addr : Nat) (len : Nat) (s : State), addr < 2 ^ 64 ∧ len < 2 ^ 32 ∧ MayIssue q 0x0404 12 s
        ∧ len ≤ slotSize s.boot.dir (!s.boot.dir.baseActive) ∧ heldReady s addr len = true
        ∧ (s.boot.dir.baseTrial ≠ 0 ∨ s.boot.flashBase ≠ none))
    ∧ (∃ (q : CmdCtx) (s : State), MayIssue q 0x0405 0 s ∧ s.dev.mode ≠ .hold ∧ s.boot.baseStaged = true ∧ s.sor.restart = none)
    ∧ (∃ (q : CmdCtx) (s : State), MayIssue q 0x0405 0 s ∧ (s.dev.mode = .hold ∨ s.boot.baseStaged = false))
    ∧ (∃ (q : CmdCtx) (addr : Nat) (data : List Byte) (s : State), ReadsPlain (mbxClass q.mbx) 2 addr 48 data s ∧ addr < 2 ^ 64
        ∧ MayIssue q 0x0406 8 s ∧ lifecycle s.fuse = 0 ∧ s.fuse.keyFused = false ∧ s.boot.keyFusing = false)
    ∧ (∃ (q : CmdCtx) (addr : Nat) (s : State), addr < 2 ^ 64 ∧ MayIssue q 0x0406 8 s
        ∧ (lifecycle s.fuse ≠ 0 ∨ s.fuse.keyFused = true))
    ∧ (∃ (q : CmdCtx) (addr : Nat) (s : State), addr < 2 ^ 64 ∧ MayIssue q 0x0406 8 s ∧ lifecycle s.fuse = 0
        ∧ s.fuse.keyFused = false ∧ s.boot.keyFusing = true)
    ∧ (∃ (q : CmdCtx) (addr : Nat) (len : Nat) (st : Staged) (s : State), addr < 2 ^ 64 ∧ len < 2 ^ 32 ∧ MayIssue q 0x0C01 12 s
        ∧ 0 < len ∧ len ≤ fwSlotSize s.boot.dir (!s.boot.dir.fwActive) ∧ heldReady s addr len = true ∧ s.boot.dir.fwTrial = 0
        ∧ s.boot.flashBase = none ∧ rightsJudge (mbxClass q.mbx) 0 true false addr (len - 1) s = (true, s)
        ∧ (dramTarget s addr).isSome = true ∧ (dramTarget s (addr + len - 1)).isSome = true ∧ fwStageCode addr len st s = 0)
    ∧ (∃ (q : CmdCtx) (addr : Nat) (len : Nat) (st : Staged) (s : State), addr < 2 ^ 64 ∧ len < 2 ^ 32 ∧ MayIssue q 0x0C01 12 s
        ∧ 0 < len ∧ len ≤ fwSlotSize s.boot.dir (!s.boot.dir.fwActive) ∧ heldReady s addr len = true ∧ s.boot.dir.fwTrial = 0
        ∧ s.boot.flashBase = none ∧ rightsJudge (mbxClass q.mbx) 0 true false addr (len - 1) s = (true, s)
        ∧ (dramTarget s addr).isSome = true ∧ (dramTarget s (addr + len - 1)).isSome = true ∧ fwStageCode addr len st s ≠ 0)
    ∧ (∃ (q : CmdCtx) (addr : Nat) (len : Nat) (s : State), addr < 2 ^ 64 ∧ len < 2 ^ 32 ∧ MayIssue q 0x0C01 12 s
        ∧ fwSlotSize s.boot.dir (!s.boot.dir.fwActive) < len)
    ∧ (∃ (q : CmdCtx) (addr : Nat) (len : Nat) (s : State), addr < 2 ^ 64 ∧ len < 2 ^ 32 ∧ MayIssue q 0x0C01 12 s
        ∧ len ≤ fwSlotSize s.boot.dir (!s.boot.dir.fwActive) ∧ heldReady s addr len = false)
    ∧ (∃ (q : CmdCtx) (addr : Nat) (len : Nat) (s : State), addr < 2 ^ 64 ∧ len < 2 ^ 32 ∧ MayIssue q 0x0C01 12 s
        ∧ len ≤ fwSlotSize s.boot.dir (!s.boot.dir.fwActive) ∧ heldReady s addr len = true
        ∧ (s.boot.dir.fwTrial ≠ 0 ∨ s.boot.flashBase ≠ none))
    ∧ (∃ (q : CmdCtx) (window : Nat) (both : Nat) (s : State), (window = 0 ∨ (10 ≤ window ∧ window ≤ 3600)) ∧ both ≤ 1
        ∧ MayIssue q 0x0C02 3 s ∧ s.dev.mode ≠ .hold ∧ s.boot.fwStaged = true ∧ (both = 1 → s.boot.baseStaged = true)
        ∧ s.boot.dir.fwTrial = 0 ∧ s.boot.dir.baseTrial = 0 ∧ s.sor.restart = none)
    ∧ (∃ (q : CmdCtx) (window : Nat) (both : Nat) (s : State), window < 2 ^ 16 ∧ both < 256 ∧ MayIssue q 0x0C02 3 s
        ∧ ((window ≠ 0 ∧ (window < 10 ∨ 3600 < window)) ∨ 1 < both))
    ∧ (∃ (q : CmdCtx) (window : Nat) (both : Nat) (s : State), window < 2 ^ 16 ∧ both < 256 ∧ MayIssue q 0x0C02 3 s
        ∧ (window = 0 ∨ (10 ≤ window ∧ window ≤ 3600)) ∧ both ≤ 1 ∧ (s.dev.mode = .hold ∨ s.boot.fwStaged = false ∨ (both = 1
        ∧ s.boot.baseStaged = false)))
    ∧ (∃ (q : CmdCtx) (window : Nat) (both : Nat) (s : State), window < 2 ^ 16 ∧ both < 256 ∧ MayIssue q 0x0C02 3 s
        ∧ (window = 0 ∨ (10 ≤ window ∧ window ≤ 3600)) ∧ both ≤ 1 ∧ s.dev.mode ≠ .hold ∧ s.boot.fwStaged = true
        ∧ s.boot.baseStaged = true ∧ (s.boot.dir.fwTrial ≠ 0 ∨ s.boot.dir.baseTrial ≠ 0))
    ∧ (∃ (q : CmdCtx) (s : State), MayIssue q 0x0C03 0 s ∧ s.boot.fwTrialRun = false ∧ s.boot.trial = false)
    ∧ (∃ (q : CmdCtx) (s : State), MayIssue q 0x0C03 0 s ∧ (s.boot.fwTrialRun = true ∨ s.boot.trial = true)
        ∧ (s.boot.trial = true → s.dev.cfgDone = true))
    ∧ (∃ (q : CmdCtx) (s : State), MayIssue q 0x0C03 0 s ∧ s.boot.trial = true ∧ s.dev.cfgDone = false) :=
  ⟨⟨Q, A0, 4096, { BD with dev := { BD.dev with mode := .safe } }, by decide +kernel⟩,
   ⟨Q, A0, 4096, { BD with dev := { BD.dev with mode := .safe, ready := { BD.dev.ready with ddrCh := 0 } } },
       by decide +kernel⟩,
   ⟨Q, A0, 4096, { BD with fuse := { lifecycle := 0b111000000 } }, by decide +kernel⟩,
   ⟨Q, 1, B, by decide +kernel⟩,
   ⟨Q, 255, B, by decide +kernel⟩,
   ⟨Q, A0, 4096, stg, Pu (hb [0x03, 0x13, 0x14, 0x15, 0x10] 19712) (Su id), by decide +kernel⟩,
   ⟨Q, A0, 4095, stg, Pu (hb [0x03, 0x13, 0x14, 0x15, 0x10] 19712) (Su id), by decide +kernel⟩,
   ⟨Q, A0, 4097, Su id, by decide +kernel⟩,
   ⟨Q, A0, 4096, { Su id with dev := { BD.dev with ready := { BD.dev.ready with ddrCh := 0 } } }, by decide +kernel⟩,
   ⟨Q, A0, 4096, Su fun b => { b with flashBase := some false }, by decide +kernel⟩,
   ⟨Q, Bb fun b => { b with baseStaged := true }, by decide +kernel⟩,
   ⟨Q, Bb fun b => { b with baseStaged := false }, by decide +kernel⟩,
   ⟨{ Q with mbx := 0 }, A0, List.replicate 48 0, BD, by intro _ _ _; cbv, by decide +kernel⟩,
   ⟨Q, A0, { BD with fuse := { keyFused := true } }, by decide +kernel⟩,
   ⟨Q, A0, Bb fun b => { b with keyFusing := true }, by decide +kernel⟩,
   ⟨Q, A0, 4096, stg, Pu (hb [1, 4] 0 ++ List.replicate 64 0 ++ [128, 0, 0] ++ List.replicate 61 0) (Su id), by decide +kernel⟩,
   ⟨Q, A0, 4096, stg, Pu (hb [1, 4] 0 ++ List.replicate 64 0 ++ [129, 0, 0] ++ List.replicate 61 0) (Su id), by decide +kernel⟩,
   ⟨Q, A0, 4097, Su id, by decide +kernel⟩,
   ⟨Q, A0, 4096, { Su id with dev := { BD.dev with ready := { BD.dev.ready with ddrCh := 0 } } }, by decide +kernel⟩,
   ⟨Q, A0, 4096, Su fun b => { b with dir := { b.dir with fwTrial := 2 } }, by decide +kernel⟩,
   ⟨Q, 3600, 1, Bb fun b => { b with baseStaged := true, fwStaged := true }, by decide +kernel⟩,
   ⟨Q, 9, 1, BD, by decide +kernel⟩,
   ⟨Q, 10, 1, Bb fun b => { b with baseStaged := false, fwStaged := true }, by decide +kernel⟩,
   ⟨Q, 0, 1, Bb fun b => { b with baseStaged := true, fwStaged := true, dir := { b.dir with baseTrial := 1 } },
       by decide +kernel⟩,
   ⟨Q, B, by decide +kernel⟩,
   ⟨Q, Bb fun b => { b with fwTrialRun := true, winOn := true, winStart := 5 }, by decide +kernel⟩,
   ⟨Q, Bb fun b => { b with trial := true }, by decide +kernel⟩⟩

theorem witness_FabricClocks :
    (∃ (s : State), s.clk.vcoLow = false)
    ∧ (∃ (s : State), s.clk.vcoLow = true)
    ∧ (∃ (n : Nat) (s : State), n < 24 ∧ pllRefuses s (s.pll n) = true)
    ∧ (∃ (n : Nat) (s : State), n < 24 ∧ pllRefuses s (s.pll n) = false ∧ (s.pll n).m = (s.pll n).appM
        ∧ (s.pll n).d = (s.pll n).appD)
    ∧ (∃ (n : Nat) (s : State), n < 24 ∧ pllRefuses s (s.pll n) = false
        ∧ ((s.pll n).m ≠ (s.pll n).appM ∨ (s.pll n).d ≠ (s.pll n).appD) ∧ (s.pll n).lock = false)
    ∧ (∃ (n : Nat) (s : State), n < 24 ∧ pllRefuses s (s.pll n) = false
        ∧ ((s.pll n).m ≠ (s.pll n).appM ∨ (s.pll n).d ≠ (s.pll n).appD) ∧ (s.pll n).lock = true)
    ∧ (∃ (n : Nat) (s : State), n < 24 ∧ (s.pll n).en = false)
    ∧ (∃ (n : Nat) (s : State), n < 24 ∧ (s.pll n).en = true)
    ∧ (∃ (n : Nat) (s : State), n < 24 ∧ (s.pll n).granted = true ∧ (s.pll n).lock = false
        ∧ vcoInRange s (s.pll n).appM (s.pll n).appD = true)
    ∧ (∃ (n : Nat) (s : State), n < 24 ∧ (s.pll n).granted = true ∧ vcoInRange s (s.pll n).appM (s.pll n).appD = false)
    ∧ (∃ (n : Nat) (bad : Bool) (s : State), n < 24 ∧ (s.pll n).granted = true ∧ (s.pll n).lock = true
        ∧ bad = !vcoInRange s (s.pll n).appM (s.pll n).appD)
    ∧ (∃ (n : Nat) (s : State), n < 96 ∧ (s.tile n).spanOwned = false ∧ (s.tile n).holdStopped = false
        ∧ (s.tile n).state = .off)
    ∧ (∃ (n : Nat) (s : State), n < 96 ∧ (s.tile n).spanOwned = false ∧ (s.tile n).holdStopped = false
        ∧ (s.tile n).state = .draining)
    ∧ (∃ (n : Nat) (s : State), n < 96 ∧ (s.tile n).spanOwned = false ∧ (s.tile n).holdStopped = false
        ∧ ((s.tile n).state = .on ∨ (s.tile n).state = .waitGrant))
    ∧ (∃ (n : Nat) (s : State), n < 96 ∧ (s.tile n).spanOwned = false ∧ (s.tile n).holdStopped = false ∧ (s.tile n).state = .on)
    ∧ (∃ (n : Nat) (s : State), n < 96 ∧ (s.tile n).spanOwned = false ∧ (s.tile n).holdStopped = false
        ∧ (s.tile n).state = .waitGrant)
    ∧ (∃ (n : Nat) (s : State), n < 96 ∧ (s.tile n).spanOwned = false ∧ (s.tile n).holdStopped = false
        ∧ (s.tile n).state = .draining)
    ∧ (∃ (n : Nat) (s : State), n < 96 ∧ (s.tile n).spanOwned = false ∧ (s.tile n).holdStopped = false
        ∧ (s.tile n).state = .off)
    ∧ (∃ (c : Nat → Instr) (n : Nat) (s : State), (c = Instr.tileEnable ∨ c = Instr.tileDisable) ∧ n < 96
        ∧ (s.tile n).spanOwned = false ∧ (s.tile n).holdStopped = true)
    ∧ (∃ (c : Nat → Instr) (n : Nat), (c = Instr.tileEnable ∨ c = Instr.tileDisable) ∧ 96 ≤ n ∧ n < 128)
    ∧ (∃ (c : Nat → Instr) (n : Nat) (s : State), (c = Instr.tileEnable ∨ c = Instr.tileDisable) ∧ n < 96
        ∧ (s.tile n).spanOwned = true)
    ∧ (∃ (n : Nat) (s : State), tileDrains n s = true ∧ portIdle (s.tile n) = true ∧ (s.tile n).pendingEnable = false)
    ∧ (∃ (n : Nat) (s : State), tileDrains n s = true ∧ portIdle (s.tile n) = true ∧ (s.tile n).pendingEnable = true)
    ∧ (∃ (n : Nat) (s : State), tileDrains n s = true ∧ portIdle (s.tile n) = true)
    ∧ (∃ (n : Nat) (s : State), tileDrains n s = true ∧ portIdle (s.tile n) = false) :=
  ⟨⟨B, by decide +kernel⟩,
   ⟨Bc fun c => { c with vcoLow := true }, by decide +kernel⟩,
   ⟨23, { B with fab := { B.fab with plls := [(23, { m := 15 })] } }, by decide +kernel⟩,
   ⟨23, { B with fab := { B.fab with plls := [(23, { m := 16, d := 0, appM := 16, appD := 0, en := true })] } },
       by decide +kernel⟩,
   ⟨0, { B with fab := { B.fab with plls := [(0, { m := 24, appM := 32, granted := true, en := true })] } }, by decide +kernel⟩,
   ⟨0, { B with fab := { B.fab with plls := [(0, { m := 24, appM := 32, lock := true, granted := true, en := true })] } },
       by decide +kernel⟩,
   ⟨23, B, by decide +kernel⟩,
   ⟨23, { B with fab := { B.fab with plls := [(23, { en := true, lock := true, granted := true })] } }, by decide +kernel⟩,
   ⟨23, { B with fab := { B.fab with plls := [(23, { granted := true, en := true })] } }, by decide +kernel⟩,
   ⟨23, { B with fab := { B.fab with plls := [(23, { granted := true, en := true, appM := 33 })] } }, by decide +kernel⟩,
   ⟨23, true, { B with fab := { B.fab with plls := [(23, { granted := true, en := true, lock := true, appM := 33 })] } },
       by decide +kernel⟩,
   ⟨95, B, by decide +kernel⟩,
   ⟨95, Ti { state := .draining }, by decide +kernel⟩,
   ⟨95, Ti { state := .waitGrant }, by decide +kernel⟩,
   ⟨95, Ti { state := .on }, by decide +kernel⟩,
   ⟨95, (Ti { state := .waitGrant }).modSupply 0 fun u => { u with queue := [⟨0, 95, 2, 16, 0⟩] }, by decide +kernel⟩,
   ⟨95, Ti { state := .draining, pendingEnable := true }, by decide +kernel⟩,
   ⟨95, B, by decide +kernel⟩,
   ⟨Instr.tileDisable, 95, Ti { state := .on, holdStopped := true }, by simp, by decide +kernel⟩,
   ⟨Instr.tileDisable, 127, by simp, by decide +kernel⟩,
   ⟨Instr.tileEnable, 95, { B with fab := { B.fab with tiles := [(95, { spanOwned := true })] } }, by simp, by decide +kernel⟩,
   ⟨95, { (B.modSupply 0 fun u => { u with held := [(95, 16)] }) with fab := { B.fab with tiles := [(95, { state := .draining })] } },
       by decide +kernel⟩,
   ⟨95, { (B.modSupply 0 fun u => { u with held := [(95, 16)] }) with fab := { B.fab with tiles := [(95, { state := .draining, pendingEnable := true })] } },
       by decide +kernel⟩,
   ⟨95, Ti { state := .draining }, by decide +kernel⟩,
   ⟨95, Ti { state := .draining, tags := 1, owed := 3 }, by decide +kernel⟩⟩

theorem witness_FabricPorts :
    (∃ (n : Nat) (hd : BitVec 256) (data : List (BitVec 256)) (s : State), n < 96 ∧ portLive s n = true
        ∧ 1 + headerLen hd ≤ (s.tile n).credits ∧ data.length = headerLen hd ∧ (s.tile n).tags.getLsbD (headerTag hd) = false
        ∧ hd.extractLsb' 216 6 ≠ 0x20)
    ∧ (∃ (n : Nat) (hd : BitVec 256) (s : State), n < 96 ∧ portLive s n = true ∧ (s.tile n).credits < 1 + headerLen hd
        ∧ (s.tile n).protoErr = false)
    ∧ (∃ (n : Nat) (hd : BitVec 256) (data : List (BitVec 256)) (s : State), n < 96 ∧ portLive s n = true
        ∧ 1 + headerLen hd ≤ (s.tile n).credits ∧ data.length ≠ headerLen hd ∧ (s.tile n).protoErr = false)
    ∧ (∃ (n : Nat) (hd : BitVec 256) (data : List (BitVec 256)) (s : State), n < 96 ∧ portLive s n = true
        ∧ 1 + headerLen hd ≤ (s.tile n).credits ∧ data.length = headerLen hd ∧ (s.tile n).tags.getLsbD (headerTag hd) = true
        ∧ (s.tile n).protoErr = false)
    ∧ (∃ (n : Nat) (hd : BitVec 256) (data : List (BitVec 256)) (s : State), n < 96 ∧ portLive s n = true
        ∧ 1 + headerLen hd ≤ (s.tile n).credits ∧ data.length = headerLen hd ∧ (s.tile n).tags.getLsbD (headerTag hd) = false
        ∧ hd.extractLsb' 216 6 = 0x20)
    ∧ (∃ (n : Nat) (tag : Nat) (code : Nat) (src : Initiator) (s : State), n < 96 ∧ portLive s n = true ∧ code < 6 ∧ ⟨src,
        tag⟩ ∈ (s.tile n).inbound)
    ∧ (∃ (n : Nat) (tag : Nat) (code : Nat) (src : Initiator) (s : State), n < 96 ∧ portLive s n = true ∧ code < 6 ∧ ⟨src,
        tag⟩ ∉ (s.tile n).inbound ∧ (s.tile n).protoErr = false)
    ∧ (∃ (n : Nat) (k : Nat) (s : State), n < 96 ∧ portLive s n = true ∧ (s.tile n).inboundFree + k ≤ (s.tile n).inboundCfg)
    ∧ (∃ (n : Nat) (k : Nat) (s : State), n < 96 ∧ portLive s n = true ∧ (s.tile n).inboundCfg < (s.tile n).inboundFree + k
        ∧ (s.tile n).protoErr = false)
    ∧ (∃ (n : Nat) (tag : Nat) (src : Initiator) (s : State), n < 96 ∧ ⟨src, tag⟩ ∈ (s.tile n).inbound)
    ∧ (∃ (n : Nat) (s : State), portLive s n = false) :=
  ⟨⟨95, hu 0x12 15 255, List.replicate 15 7, Ti on0, by decide +kernel⟩,
   ⟨95, hu 0x12 15 255, Ti { on0 with credits := 15 }, by decide +kernel⟩,
   ⟨95, hu 0x12 15 255, [1], Ti on0, by decide +kernel⟩,
   ⟨95, hu 0x12 0 255, [], Ti { on0 with tags := 2 ^ 255 }, by decide +kernel⟩,
   ⟨95, hu 0x20 1 255, [1], Ti on0, by decide +kernel⟩,
   ⟨95, 5, 0, ⟨2, 3⟩, Ti { on0 with inbound := [⟨⟨2, 3⟩, 5⟩] }, by decide +kernel⟩,
   ⟨95, 6, 5, ⟨2, 3⟩, Ti { on0 with inbound := [⟨⟨2, 3⟩, 5⟩] }, by decide +kernel⟩,
   ⟨95, 3, Ti { on0 with inboundCfg := 8, inboundFree := 5 }, by decide +kernel⟩,
   ⟨95, 4, Ti { on0 with inboundCfg := 8, inboundFree := 5 }, by decide +kernel⟩,
   ⟨95, 5, ⟨2, 3⟩, { B with fab := { B.fab with tiles := [(95, { state := .on, inbound := [⟨⟨2, 3⟩, 5⟩] })] } },
       by decide +kernel⟩,
   ⟨95, Ti { on0 with state := .off }, by decide +kernel⟩⟩

theorem witness_BlockMemory :
    (∃ (n : Nat) (m : Nat) (a : Nat) (k : Nat) (c : Nat) (i : Nat) (w : Nat) (b : Bool) (next : Bool) (same : Bool) (upset : BitVec 72) (x : BWord) (s : State),
        (∀ o, collision s k b i same = some o → o.write = false) ∧ n < 96 ∧ m < 48 ∧ tileClocks s n = true
        ∧ memberOf s n m b a = (k, c) ∧ portBusy s k b next = false ∧ (s.bmem k).ecc = false
        ∧ i = wordOf ((s.bmem k).port b).width c % 1024 ∧ w = 1024 * k + i
        ∧ x = { s.bword w with data := (s.bword w).data ^^^ upset })
    ∧ (∃ (n : Nat) (m : Nat) (a : Nat) (k : Nat) (c : Nat) (i : Nat) (b : Bool) (next : Bool) (same : Bool) (o : BOp) (s : State),
        n < 96 ∧ m < 48 ∧ tileClocks s n = true ∧ memberOf s n m b a = (k, c) ∧ portBusy s k b next = false
        ∧ (s.bmem k).ecc = false ∧ i = wordOf ((s.bmem k).port b).width c % 1024 ∧ collision s k b i same = some o
        ∧ o.write = true)
    ∧ (∃ (n : Nat) (m : Nat) (a : Nat) (k : Nat) (c : Nat) (i : Nat) (w : Nat) (b : Bool) (next : Bool) (same : Bool) (s : State),
        (∀ o, collision s k b i same = some o → o.write = false) ∧ n < 96 ∧ m < 48 ∧ tileClocks s n = true
        ∧ memberOf s n m b a = (k, c) ∧ portBusy s k b next = false ∧ (s.bmem k).ecc = true
        ∧ i = wordOf ((s.bmem k).port b).width c % 1024 ∧ w = 1024 * k + i ∧ flipCount (s.bword w).flips = 0)
    ∧ (∃ (n : Nat) (m : Nat) (a : Nat) (k : Nat) (c : Nat) (i : Nat) (w : Nat) (b : Bool) (next : Bool) (same : Bool) (s : State),
        (∀ o, collision s k b i same = some o → o.write = false) ∧ n < 96 ∧ m < 48 ∧ tileClocks s n = true
        ∧ memberOf s n m b a = (k, c) ∧ portBusy s k b next = false ∧ (s.bmem k).ecc = true
        ∧ i = wordOf ((s.bmem k).port b).width c % 1024 ∧ w = 1024 * k + i ∧ flipCount (s.bword w).flips = 1)
    ∧ (∃ (n : Nat) (m : Nat) (a : Nat) (k : Nat) (c : Nat) (i : Nat) (w : Nat) (b : Bool) (next : Bool) (same : Bool) (s : State),
        (∀ o, collision s k b i same = some o → o.write = false) ∧ n < 96 ∧ m < 48 ∧ tileClocks s n = true
        ∧ memberOf s n m b a = (k, c) ∧ portBusy s k b next = false ∧ (s.bmem k).ecc = true
        ∧ i = wordOf ((s.bmem k).port b).width c % 1024 ∧ w = 1024 * k + i ∧ flipCount (s.bword w).flips = 2
        ∧ s.fab.scrub.dbeHold = false)
    ∧ (∃ (n : Nat) (m : Nat) (a : Nat) (en : Nat) (k : Nat) (c : Nat) (i : Nat) (w : Nat) (b : Bool) (next : Bool) (same : Bool) (mask : BitVec 72) (s : State),
        n < 96 ∧ m < 48 ∧ tileClocks s n = true ∧ (s.tile n).writesOn = true ∧ memberOf s n m b a = (k, c)
        ∧ portBusy s k b next = false ∧ (s.bmem k).ecc = false ∧ i = wordOf ((s.bmem k).port b).width c % 1024
        ∧ w = 1024 * k + i ∧ collision s k b i same = none ∧ mask = laneMask ((s.bmem k).port b).width c en)
    ∧ (∃ (n : Nat) (m : Nat) (a : Nat) (k : Nat) (c : Nat) (i : Nat) (w : Nat) (next : Bool) (o : BOp) (s : State), n < 96
        ∧ m < 48 ∧ tileClocks s n = true ∧ (s.tile n).writesOn = true ∧ memberOf s n m true a = (k, c)
        ∧ portBusy s k true next = false ∧ (s.bmem k).ecc = false ∧ i = wordOf (s.bmem k).portB.width c % 1024
        ∧ w = 1024 * k + i ∧ collision s k true i true = some o ∧ o.write = true)
    ∧ (∃ (n : Nat) (m : Nat) (a : Nat) (d : Nat) (k : Nat) (c : Nat) (w : Nat) (b : Bool) (next : Bool) (s : State), n < 96
        ∧ m < 48 ∧ tileClocks s n = true ∧ (s.tile n).writesOn = true ∧ memberOf s n m b a = (k, c)
        ∧ portBusy s k b next = false ∧ (s.bmem k).ecc = true ∧ ((s.bmem k).port b).width = 1 ∧ c < 1024 ∧ w = 1024 * k + c
        ∧ d < 2 ^ 64 ∧ (((s.bmem k).port b).rdw = 1 → flipCount (s.bword w).flips = 0))
    ∧ (∃ (n : Nat) (m : Nat) (a : Nat) (en : Nat) (k : Nat) (c : Nat) (i : Nat) (w : Nat) (b : Bool) (next : Bool) (mask : BitVec 72) (s : State),
        n < 96 ∧ m < 48 ∧ tileClocks s n = true ∧ (s.tile n).writesOn = true ∧ memberOf s n m b a = (k, c)
        ∧ portBusy s k b next = false ∧ (s.bmem k).ecc = true ∧ (((s.bmem k).port b).width ≠ 1 ∨ en % 256 ≠ 255)
        ∧ i = wordOf ((s.bmem k).port b).width c % 1024 ∧ w = 1024 * k + i ∧ mask = laneMask ((s.bmem k).port b).width c en
        ∧ flipCount (s.bword w).flips = 0)
    ∧ (∃ (n : Nat) (m : Nat) (a : Nat) (en : Nat) (k : Nat) (c : Nat) (i : Nat) (w : Nat) (b : Bool) (next : Bool) (mask : BitVec 72) (s : State),
        n < 96 ∧ m < 48 ∧ tileClocks s n = true ∧ (s.tile n).writesOn = true ∧ memberOf s n m b a = (k, c)
        ∧ portBusy s k b next = false ∧ (s.bmem k).ecc = true ∧ (((s.bmem k).port b).width ≠ 1 ∨ en % 256 ≠ 255)
        ∧ i = wordOf ((s.bmem k).port b).width c % 1024 ∧ w = 1024 * k + i ∧ mask = laneMask ((s.bmem k).port b).width c en
        ∧ flipCount (s.bword w).flips = 1)
    ∧ (∃ (n : Nat) (m : Nat) (a : Nat) (en : Nat) (k : Nat) (c : Nat) (i : Nat) (w : Nat) (b : Bool) (next : Bool) (mask : BitVec 72) (s : State),
        n < 96 ∧ m < 48 ∧ tileClocks s n = true ∧ (s.tile n).writesOn = true ∧ memberOf s n m b a = (k, c)
        ∧ portBusy s k b next = false ∧ (s.bmem k).ecc = true ∧ (((s.bmem k).port b).width ≠ 1 ∨ en % 256 ≠ 255)
        ∧ i = wordOf ((s.bmem k).port b).width c % 1024 ∧ w = 1024 * k + i ∧ mask = laneMask ((s.bmem k).port b).width c en
        ∧ flipCount (s.bword w).flips = 2)
    ∧ (∃ (n : Nat) (m : Nat) (a : Nat) (d : Nat) (en : Nat) (k : Nat) (c : Nat) (b : Bool) (clear : Bool) (same : Bool) (upset : BitVec 72) (i : Instr) (s : State),
        n < 96 ∧ m < 48 ∧ tileClocks s n = true ∧ memberOf s n m b a = (k, c) ∧ ((s.bmem k).port b).merging = true
        ∧ (i = Instr.bramRead n m b a ⟨true, clear⟩ ⟨true, same⟩ upset ∨ (i = Instr.bramWrite n m b a en d clear ⟨true,
        same⟩ upset ∧ (s.tile n).writesOn = true)))
    ∧ (∃ (n : Nat) (m : Nat) (a : Nat) (k : Nat) (c : Nat) (b : Bool) (s : State), n < 96 ∧ m < 48 ∧ tileClocks s n = true
        ∧ memberOf s n m b a = (k, c))
    ∧ (∃ (n : Nat) (s : State), tileClocks s n = false)
    ∧ (∃ (n : Nat) (s : State), (tileClocks s n = false ∨ (s.tile n).writesOn = false))
    ∧ (∃ (n : Nat) (m : Nat) (a : Nat) (i : Nat) (b : Bool) (s : State), a < depthAt ((s.bmem (48 * n + m)).port b).width
        ∧ i < (s.bmem (48 * n + m)).cascade ∧ m % 12 + i < 12)
    ∧ (∃ (s : State), scrubMode s = true ∧ s.fab.scrub.en = true ∧ s.fab.scrub.burst = false ∧ s.fab.scrub.waitGrant = false
        ∧ scrubsTile s s.fab.scrub.tile = true)
    ∧ (∃ (s : State), s.fab.scrub.burst = true ∧ scrubMode s = true ∧ portLive s s.fab.scrub.tile = true ∧ s.dev.mode ≠ .hold
        ∧ (∃ m ∈ eccMems s s.fab.scrub.tile, (s.bmem (48 * s.fab.scrub.tile + m)).walk < 1023)
        ∧ (∀ m ∈ eccMems s s.fab.scrub.tile, (s.bmem (48 * s.fab.scrub.tile + m)).writeBack = none
        ∧ (s.bword ((48 * s.fab.scrub.tile + m) * 1024 + (s.bmem (48 * s.fab.scrub.tile + m)).walk)).flips = 0))
    ∧ (∃ (m : Nat) (k : Nat) (w : Nat) (s : State), s.fab.scrub.burst = true ∧ scrubMode s = true
        ∧ portLive s s.fab.scrub.tile = true ∧ s.dev.mode ≠ .hold ∧ eccMems s s.fab.scrub.tile = [m]
        ∧ k = 48 * s.fab.scrub.tile + m ∧ (s.bmem k).writeBack = none ∧ (s.bmem k).walk < 1024 ∧ w = 1024 * k + (s.bmem k).walk
        ∧ flipCount (s.bword w).flips = 1)
    ∧ (∃ (m : Nat) (k : Nat) (w : Nat) (v : BitVec 72) (s : State), s.fab.scrub.burst = true ∧ scrubMode s = true
        ∧ portLive s s.fab.scrub.tile = true ∧ s.dev.mode ≠ .hold ∧ eccMems s s.fab.scrub.tile = [m]
        ∧ k = 48 * s.fab.scrub.tile + m ∧ (s.bmem k).writeBack = some (w, v) ∧ (s.bmem k).walk < 1024)
    ∧ (∃ (s : State), s.fab.scrub.burst = true ∧ scrubMode s = true ∧ portLive s s.fab.scrub.tile = true ∧ s.dev.mode ≠ .hold
        ∧ (∀ m ∈ eccMems s s.fab.scrub.tile, 1024 ≤ (s.bmem (48 * s.fab.scrub.tile + m)).walk
        ∧ (s.bmem (48 * s.fab.scrub.tile + m)).writeBack = none))
    ∧ (∃ (s : State), s.fab.scrub.burst = true ∧ (scrubMode s = false ∨ portLive s s.fab.scrub.tile = false)) :=
  ⟨⟨95, 47, 8191, 4607, 8191, 1023, 1024 * 4607 + 1023, true, true, true, 2 ^ 71, { data := 2 ^ 71 },
      Bm { portB := { width := 7 } }, allSome (by decide +kernel), by decide +kernel⟩,
   ⟨95, 46, 1024, 4607, 0, 0, false, true, true, ⟨true, true, 0, 3, { data := 2 }⟩,
       Bm { last := some ⟨true, true, 0, 3, { data := 2 }⟩ } [] { on0 with writesOn := true } fun b => { b with mems := [(4606, { cascade := 2 }), (4607, { last := some ⟨true, true, 0, 3, { data := 2 }⟩ })] },
       by decide +kernel⟩,
   ⟨95, 47, 1023, 4607, 1023, 1023, 1024 * 4607 + 1023, true, true, true, Bm { ecc := true } [(4607 * 1024 + 1023,
       { data := 2 ^ 60 })], allSome (by decide +kernel), by decide +kernel⟩,
   ⟨95, 47, 0, 4607, 0, 0, 1024 * 4607, true, true, true, Bm { ecc := true } [(4607 * 1024, { data := 5, flips := 4 })],
       allSome (by decide +kernel), by decide +kernel⟩,
   ⟨95, 47, 0, 4607, 0, 0, 1024 * 4607, true, true, true, Bm { ecc := true } [(4607 * 1024, { data := 5, flips := 6 })],
       allSome (by decide +kernel), by decide +kernel⟩,
   ⟨95, 47, 1023, 254, 4607, 1023, 1023, 1024 * 4607 + 1023, true, false, true, 2 ^ 64 - 2 ^ 8,
       Bm { portB := { width := 0, rdw := 1 } }, by decide +kernel⟩,
   ⟨95, 47, 0, 4607, 0, 0, 1024 * 4607, true, ⟨false, true, 0, 3, {}⟩,
       Bm { portB := { width := 2 }, last := some ⟨false, true, 0, 3, {}⟩ } [(4607 * 1024, { data := 2 })], by decide +kernel⟩,
   ⟨95, 47, 1023, 2 ^ 64 - 1, 4607, 1023, 1024 * 4607 + 1023, false, true,
       Bm { ecc := true, portA := { width := 1, rdw := 1 } } [] { on0 with writesOn := true } fun b => { b with scrub := { b.scrub with injArm := true, injTile := 95, injMem := 47, injFlip := 129 } },
       by decide +kernel⟩,
   ⟨95, 47, 1023, 254, 4607, 1023, 1023, 1024 * 4607 + 1023, true, true, 2 ^ 64 - 2 ^ 8,
       Bm { ecc := true, portB := { width := 1 } } [(4607 * 1024 + 1023, { data := 5 })], by decide +kernel⟩,
   ⟨95, 47, 1023, 254, 4607, 1023, 1023, 1024 * 4607 + 1023, true, true, 2 ^ 64 - 2 ^ 8,
       Bm { ecc := true, portB := { width := 1 } } [(4607 * 1024 + 1023, { data := 5, flips := 2 })], by decide +kernel⟩,
   ⟨95, 47, 1023, 254, 4607, 1023, 1023, 1024 * 4607 + 1023, true, true, 2 ^ 64 - 2 ^ 8,
       Bm { ecc := true, portB := { width := 1 } } [(4607 * 1024 + 1023, { data := 5, flips := 3 })], by decide +kernel⟩,
   ⟨95, 47, 1, 1, 1, 4607, 1, true, true, true, 1, Instr.bramWrite 95 47 true 1 1 1 true ⟨true, true⟩ 1,
       Bm { portB := { merging := true } }, by decide +kernel⟩,
   ⟨95, 47, 1, 4607, 1, true, Bm { portB := { merging := true, out := 7 } }, by decide +kernel⟩,
   ⟨95, Ti { on0 with holdStopped := true }, by decide +kernel⟩,
   ⟨95, Ti on0, by decide +kernel⟩,
   ⟨95, 44, 1023, 3, true, Bm {} [] on0 fun b => { b with mems := [(4604, { cascade := 4, portB := { width := 0 } })] },
       by decide +kernel⟩,
   ⟨{ BR with fab := { B.fab with tiles := [(0, { state := .on, writesOn := true })], mems := [(0, { ecc := true, portB := { width := 1 } })] } },
       by decide +kernel⟩,
   ⟨Sw { ecc := true, walk := 1022 }, by decide +kernel⟩,
   ⟨47, 4607, 1024 * 4607 + 1023, Sw { ecc := true, walk := 1023 } [(4607 * 1024 + 1023, { data := 5, flips := 2 })],
       by decide +kernel⟩,
   ⟨47, 4607, 7, 9, Sw { ecc := true, walk := 8, writeBack := some (7, 9) } [(4607 * 1024 + 7, { data := 5, flips := 2 })],
       by decide +kernel⟩,
   ⟨Sw { ecc := true, walk := 1024 }, by decide +kernel⟩,
   ⟨{ Sw { ecc := true, walk := 8 } with dev := { BR.dev with mode := .load } }, by decide +kernel⟩⟩

theorem witness_SlotsChoose :
    (∃ (l : List (Nat × Pers)) (e : Nat × Pers), bestOf l = some e)
    ∧ (∃ (i : Nat) (c : Nat) (e : Nat × Pers) (s : State), s.dev.mode ≠ .hold ∧ s.dev.ready.spanPager = true
        ∧ (s.slot i).state = .empty ∧ bestOf (candidates s i) = some e ∧ c = (s.pers e.1).spanCredits + 8 ∧ c ≤ 1818)
    ∧ (∃ (s : State), s.dev.mode = .hold)
    ∧ (∃ (i : Nat) (s : State), s.dev.mode ≠ .hold ∧ (s.slot i).state = .waitGrant ∧ (s.pers (s.slot i).pers).inDemand = false
        ∧ s.dev.ready.spanPager = false)
    ∧ (∃ (i : Nat) (s : State), (s.slot i).state = .empty ∧ candidates s i = [])
    ∧ (∃ (i : Nat) (s : State), ((s.slot i).state = .resident ∨ (s.slot i).state = .starting)
        ∧ ((s.pers (s.slot i).pers).pinned = true ∨ s.spn.pagerEn = false))
    ∧ (∃ (i : Nat) (e : Nat × Pers) (s : State), s.dev.mode ≠ .hold ∧ s.dev.ready.spanPager = true ∧ s.spn.pagerEn = true
        ∧ (s.slot i).state = .resident ∧ (s.pers (s.slot i).pers).pinned = false ∧ e ∈ candidates s i)
    ∧ (∃ (i : Nat) (s : State), s.dev.mode ≠ .hold ∧ s.dev.ready.spanPager = true ∧ s.spn.pagerEn = true
        ∧ (s.slot i).state = .resident ∧ (s.pers (s.slot i).pers).pinned = false ∧ candidates s i = []) :=
  ⟨⟨[(9, { age := 4 }), (3, { age := 2 }), (2, { age := 3 })], (3, { age := 2 }), by decide +kernel⟩,
   ⟨63, 1818, (1023, { installed := true, homeSlot := 63, inDemand := true, spanCredits := 1810 }),
       Sb fun p => { p with live := true, slots := [(63, { defined := true, enabled := true, state := .empty })], pers := [(1023, { installed := true, homeSlot := 63, inDemand := true, spanCredits := 1810 })] },
       by decide +kernel⟩,
   ⟨{ Sp { state := .resident } with dev := { BP.dev with mode := .hold } }, by decide +kernel⟩,
   ⟨63, { Sp { state := .waitGrant } with dev := { BP.dev with ready := { BP.dev.ready with spanPager := false } } },
       by decide +kernel⟩,
   ⟨63, Sb fun p => { p with live := true, slots := [(63, { defined := true, enabled := true, state := .empty })] },
       by decide +kernel⟩,
   ⟨63, Sp { state := .starting, idle := true } { pe0 with pinned := true }, by decide +kernel⟩,
   ⟨63, (6, { installed := true, homeSlot := 63, inDemand := true }),
       Sb fun p => { p with live := true, slots := [(63, { defined := true, enabled := true, state := .resident, pers := 5, idle := true })], pers := [(5, { installed := true, homeSlot := 63 }), (6, { installed := true, homeSlot := 63, inDemand := true })] },
       by decide +kernel⟩,
   ⟨63, Sp { state := .resident, idle := true, evictIdle := true }, by decide +kernel⟩⟩

theorem witness_SpanStarts :
    (∃ (i : Nat) (up : List (Nat × BitVec 640)) (ac : Bool) (b : List Byte) (r : Bool) (s : State) (u : State),
        inSlotState s i .loading = true ∧ (s.slot i).headerOk = false ∧ hasPort s i = true
        ∧ storeRead up ac (blockParts (s.pers (s.slot i).pers).imageAddr 512) s = ((0, b), u)
        ∧ headerMatches u i (spanHeaderOf b) = true
        ∧ r = ((s.pers (s.slot i).pers).stateValid && !(s.pers (s.slot i).pers).stateless))
    ∧ (∃ (i : Nat) (code : Nat) (up : List (Nat × BitVec 640)) (ac : Bool) (b : List Byte) (s : State) (u : State),
        inSlotState s i .loading = true ∧ (s.slot i).headerOk = false ∧ hasPort s i = true
        ∧ storeRead up ac (blockParts (s.pers (s.slot i).pers).imageAddr 512) s = ((code, b), u) ∧ (code = 0
        → headerMatches u i (spanHeaderOf b) = false))
    ∧ (∃ (i : Nat) (s : State), (s.pers (s.slot i).pers).homeSlot = i)
    ∧ (∃ (i : Nat) (s : State), inSlotState s i .loading = true ∧ (s.slot i).headerOk = true ∧ hasPort s i = true
        ∧ (s.slot i).restore = false ∧ (s.slot i).imgLeft = 0 ∧ (s.pers (s.slot i).pers).imageLen < (s.slot i).imgPos + 16)
    ∧ (∃ (i : Nat) (code : Nat) (addr : Nat) (v : BitVec 640) (up : List (Nat × BitVec 640)) (ac : Bool) (s : State) (u : State),
        inSlotState s i .loading = true ∧ (s.slot i).headerOk = true ∧ hasPort s i = true
        ∧ readDue up ac i s = (.refused code, addr, v, u))
    ∧ (∃ (i : Nat) (addr : Nat) (sc : Nat) (v : BitVec 640) (c : BitVec 32) (up : List (Nat × BitVec 640)) (cu : List (Nat × BitVec 640)) (ac : Bool) (ca : Bool) (s : State) (u : State) (w : State),
        (c = crcBytes (if addr % 2 ^ 15 = 0 ∨ ((u.slot i).restore = true
        ∧ addr % 2 ^ 15 = 13568) then BitVec.allOnes 32 else (u.slot i).crc) (leBytes 80 v.toNat))
        ∧ inSlotState s i .loading = true ∧ (s.slot i).headerOk = true ∧ hasPort s i = true ∧ readDue up ac i s = (.frame,
        addr, v, u) ∧ frameCheck u i addr v = 0 ∧ readStateCrc cu ca i u = ((0, sc), w)
        ∧ crcCheck (u.slot i) (addr % 2 ^ 15) ((u.slot i).nextFrame / framesPerTile (u.slot i)) c sc = 0
        ∧ (w.slot i).nextFrame + 1 < framesPerTile (w.slot i) * tileCount (w.slot i))
    ∧ (∃ (i : Nat) (addr : Nat) (sc : Nat) (v : BitVec 640) (c : BitVec 32) (up : List (Nat × BitVec 640)) (cu : List (Nat × BitVec 640)) (ac : Bool) (ca : Bool) (s : State) (u : State) (w : State),
        (c = crcBytes (if addr % 2 ^ 15 = 0 ∨ ((u.slot i).restore = true
        ∧ addr % 2 ^ 15 = 13568) then BitVec.allOnes 32 else (u.slot i).crc) (leBytes 80 v.toNat))
        ∧ inSlotState s i .loading = true ∧ (s.slot i).headerOk = true ∧ hasPort s i = true ∧ readDue up ac i s = (.frame,
        addr, v, u) ∧ frameCheck u i addr v = 0 ∧ readStateCrc cu ca i u = ((0, sc), w)
        ∧ crcCheck (u.slot i) (addr % 2 ^ 15) ((u.slot i).nextFrame / framesPerTile (u.slot i)) c sc = 0
        ∧ framesPerTile (w.slot i) * tileCount (w.slot i) ≤ (w.slot i).nextFrame + 1)
    ∧ (∃ (i : Nat) (addr : Nat) (v : BitVec 640) (up : List (Nat × BitVec 640)) (ac : Bool) (s : State) (u : State),
        inSlotState s i .loading = true ∧ (s.slot i).headerOk = true ∧ hasPort s i = true ∧ readDue up ac i s = (.frame, addr,
        v, u) ∧ frameCheck u i addr v ≠ 0)
    ∧ (∃ (i : Nat) (n : Nat) (s : State), inSlotState s i .starting = true ∧ (s.slot i).clkLeft = 0 ∧ (s.slot i).step < 4
        ∧ bits (s.pers (s.slot i).pers).startOrder (2 * (s.slot i).step) 2 = 0 ∧ n < 24
        ∧ bit (s.pers (s.slot i).pers).pllMask n = true ∧ (s.pll n).lock = false)
    ∧ (∃ (i : Nat) (k : Nat) (s : State), inSlotState s i .starting = true ∧ (s.slot i).clkLeft = 0 ∧ (s.slot i).step < 4
        ∧ bits (s.pers (s.slot i).pers).startOrder (2 * (s.slot i).step) 2 = 0 ∧ (∀ n, n < 24
        → bit (s.pers (s.slot i).pers).pllMask n = true → (s.pll n).lock = true) ∧ k = tileCount (s.slot i))
    ∧ (∃ (i : Nat) (s : State), inSlotState s i .starting = true ∧ (s.slot i).clkLeft = 0 ∧ (s.slot i).step < 3
        ∧ bits (s.pers (s.slot i).pers).startOrder (2 * (s.slot i).step) 2 = 1 ∧ (s.slot i).rstDone = false)
    ∧ (∃ (i : Nat) (s : State), inSlotState s i .starting = true ∧ (s.slot i).clkLeft = 0 ∧ (s.slot i).step < 3
        ∧ bits (s.pers (s.slot i).pers).startOrder (2 * (s.slot i).step) 2 = 2 ∧ (s.slot i).outDone = true
        ∧ (s.slot i).restore = false)
    ∧ (∃ (i : Nat) (s : State), inSlotState s i .starting = true ∧ (s.slot i).clkLeft = 0 ∧ (s.slot i).step < 3
        ∧ bits (s.pers (s.slot i).pers).startOrder (2 * (s.slot i).step) 2 = 2 ∧ (s.slot i).outDone = true
        ∧ (s.slot i).restore = true ∧ (∀ n ∈ slotTiles (s.slot i), (s.tile n).setReset = false))
    ∧ (∃ (i : Nat) (s : State), inSlotState s i .starting = true ∧ (s.slot i).clkLeft = 0 ∧ (s.slot i).step < 3
        ∧ bits (s.pers (s.slot i).pers).startOrder (2 * (s.slot i).step) 2 = 3)
    ∧ (∃ (i : Nat) (s : State), inSlotState s i .starting = true ∧ (s.slot i).clkLeft = 0 ∧ (s.slot i).step = 3
        ∧ bits (s.pers (s.slot i).pers).startOrder 6 2 = 3 ∧ (s.pers (s.slot i).pers).homeSlot = i) :=
  ⟨⟨63, [], false, hS 5 1 32, true, Pu (hS 5 1 32) (Sp { state := .loading } { pe0 with stateValid := true }),
      (let s : State := Pu (hS 5 1 32) (Sp { state := .loading } { pe0 with stateValid := true }); (storeRead [] false (blockParts A0 512) s).2),
      by decide +kernel⟩,
   ⟨63, 0, [], false, hS 6 1 32, Pu (hS 6 1 32) (Sp { state := .loading }),
       (let s : State := Pu (hS 6 1 32) (Sp { state := .loading }); (storeRead [] false (blockParts A0 512) s).2),
       by decide +kernel⟩,
   ⟨63, Sb fun p => { p with live := true, westQueue := [63], slots := [(63, { defined := true, state := .loading, pers := 5, interfaceId := 9 })], pers := [(5, { installed := true, homeSlot := 63 })] },
       by decide +kernel⟩,
   ⟨63, Sp ld0 { pe0 with imageLen := 0x20F }, by decide +kernel⟩,
   ⟨63, 2, 0, 0, [], false, Sp ld0 pe0 BD, (let s : State := Sp ld0 pe0 BD; (readDue [] false 63 s).2.2.2), by decide +kernel⟩,
   ⟨63, 0, 0, fv, _, [], [], false, true, Pu (im 0 19712) (Sp ld0),
       (let s : State := Pu (im 0 19712) (Sp ld0); (readDue [] false 63 s).2.2.2),
       (let s : State := Pu (im 0 19712) (Sp ld0); (readDue [] false 63 s).2.2.2), rfl, by decide +kernel⟩,
   ⟨63, 19711, 0, fv, 115070863, [], [], false, true,
       Pu (im 19711 1) (Sp { ld0 with nextFrame := 19711, crc := BitVec.allOnes 32, tileCrc := [4179896432] }),
       (let s : State := Pu (im 19711 1) (Sp { ld0 with nextFrame := 19711, crc := BitVec.allOnes 32, tileCrc := [4179896432] }); (readDue [] false 63 s).2.2.2),
       (let s : State := Pu (im 19711 1) (Sp { ld0 with nextFrame := 19711, crc := BitVec.allOnes 32, tileCrc := [4179896432] }); (readDue [] false 63 s).2.2.2),
       crcFv.symm.trans (congrFun (congrArg crcBytes (by decide +kernel)) _), by decide +kernel⟩,
   ⟨63, 1, fv, [], false, Pu (im 1 19712) (Sp ld0),
       (let s : State := Pu (im 1 19712) (Sp ld0); (readDue [] false 63 s).2.2.2), by decide +kernel⟩,
   ⟨63, 23, Sb fun p => { p with live := true, slots := [(63, { defined := true, state := .starting, pers := 5 })], pers := [(5, { installed := true, homeSlot := 63, startOrder := 0b11100100, pllMask := 2 ^ 23 })] },
       by decide +kernel⟩,
   ⟨63, 1, Sb fun p => { p with live := true, slots := [(63, { defined := true, state := .starting, pers := 5 })], pers := [(5, { installed := true, homeSlot := 63, startOrder := 0b11100100 })] },
       by decide +kernel⟩,
   ⟨63, Sb fun p => { p with live := true, slots := [(63, { defined := true, state := .starting, pers := 5, step := 1 })], pers := [(5, { installed := true, homeSlot := 63, startOrder := 0b11100100 })] },
       by decide +kernel⟩,
   ⟨63, Sp { state := .starting, step := 2, outDone := true }, by decide +kernel⟩,
   ⟨63, { Sp { state := .starting, step := 2, outDone := true, restore := true } with fab := { BP.fab with tiles := [(0, { setReset := false, owed := 3, inboundCfg := 7 })] } },
       by decide +kernel⟩,
   ⟨63, Sb fun p => { p with live := true, slots := [(63, { defined := true, state := .starting, pers := 5, step := 2 })], pers := [(5, { installed := true, homeSlot := 63, startOrder := 0b10110100 })] },
       by decide +kernel⟩,
   ⟨63, Sp { state := .starting, step := 3, outDone := true, rstDone := true } { pe0 with startOrder := 0xE4, asked := true },
       by decide +kernel⟩⟩

theorem witness_SpanLeaves :
    (∃ (i : Nat) (s : State), (inSlotState s i .resident = true ∨ inSlotState s i .starting = true) ∧ idleNow s i = true)
    ∧ (∃ (i : Nat) (s : State), inSlotState s i .resident = true ∧ (s.pers (s.slot i).pers).maxRes ≠ 0)
    ∧ (∃ (i : Nat) (s : State), inSlotState s i .draining = true ∧ (∀ n ∈ slotTiles (s.slot i), portIdle (s.tile n) = true)
        ∧ (s.pers (s.slot i).pers).stateless = false)
    ∧ (∃ (i : Nat) (s : State), inSlotState s i .draining = true ∧ (∀ n ∈ slotTiles (s.slot i), portIdle (s.tile n) = true)
        ∧ (s.pers (s.slot i).pers).stateless = true)
    ∧ (∃ (i : Nat) (s : State), inSlotState s i .draining = true ∧ (s.pers (s.slot i).pers).homeSlot = i)
    ∧ (∃ (i : Nat) (n : Nat) (s : State) (u : State), inSlotState s i .saving = true ∧ hasPort s i = true
        ∧ n < 6912 * tileCount (s.slot i)
        ∧ u = (saveTiles (s.slot i).pers n 0 (slotTiles (s.slot i)) (startSave (s.slot i).pers s)).2 ∧ u.dev.mode ≠ .hold)
    ∧ (∃ (i : Nat), i < 64)
    ∧ (∃ (i : Nat) (s : State), inSlotState s i .wiping = true ∧ (hasPort s i = true ∨ (s.slot i).nextFrame = 0))
    ∧ (∃ (i : Nat) (up : List (Nat × BitVec 72)) (s : State) (u : State), inSlotState s i .saving = true ∧ hasPort s i = true
        ∧ saveTiles (s.slot i).pers (6912 * tileCount (s.slot i)) 0 (slotTiles (s.slot i)) (startSave (s.slot i).pers (upsetSlot i up s)) = (0,
        u) ∧ u.dev.mode ≠ .hold)
    ∧ (∃ (i : Nat) (code : Nat) (up : List (Nat × BitVec 72)) (s : State) (u : State), inSlotState s i .saving = true
        ∧ hasPort s i = true ∧ code ≠ 0
        ∧ saveTiles (s.slot i).pers (6912 * tileCount (s.slot i)) 0 (slotTiles (s.slot i)) (startSave (s.slot i).pers (upsetSlot i up s)) = (code,
        u) ∧ u.dev.mode ≠ .hold)
    ∧ (∃ (s : State), (∀ e ∈ s.fab.words, e.2.flips = 0)) :=
  ⟨⟨63, Sp { state := .starting }, by decide +kernel⟩,
   ⟨63, Sb fun p => { p with live := true, slots := [(63, { defined := true, state := .resident, pers := 5 })], pers := [(5, { installed := true, homeSlot := 63, maxRes := 7 })] },
       by decide +kernel⟩,
   ⟨63, Sb fun p => { p with live := true, slots := [(63, { defined := true, state := .draining, pers := 5 })], pers := [(5, { installed := true, homeSlot := 63, maxRes := 7 })] },
       by decide +kernel⟩,
   ⟨63, Sp { state := .draining, enabled := true } { pe0 with stateless := true, inDemand := true }, by decide +kernel⟩,
   ⟨63, { Sp { state := .draining } with fab := { BP.fab with tiles := [(0, { setReset := false, owed := 3, credits := 7, state := .draining })] } },
       by decide +kernel⟩,
   ⟨63, 0, Sp { state := .saving }, (let s : State := Sp { state := .saving }; (saveTiles 5 0 0 [0] (startSave 5 s)).2),
       by decide +kernel⟩,
   ⟨63, by decide +kernel⟩,
   ⟨63, { Sp { state := .wiping, enabled := true, wipeAbort := true, nextFrame := 5 } with fab := { BP.fab with frames := [(0, 5), (4, 5), (5, 7)] } },
       by decide +kernel⟩,
   ⟨63, [(7, 1)], Sp { state := .saving, col0 := 1 }, (let s : State := Sp { state := .saving, col0 := 1 }; startSave 5 s),
       by decide +kernel, by decide +kernel, by decide +kernel, by decide +kernel⟩,
   saveWitness,
   ⟨B, by decide +kernel⟩⟩

theorem witness_SpanCommands :
    (∃ (q : CmdCtx) (queue : Nat) (pers : Nat) (s : State), queue < 65536 ∧ pers < 1024 ∧ MayIssue q 0x0503 4 s
        ∧ s.dev.ready.spanPager = true ∧ (s.queue queue).state ≠ .disabled ∧ (s.queue queue).destroying = false
        ∧ (s.pers pers).installed = true ∧ 1024 ≤ (s.queue queue).pers ∧ (s.pers pers).demandDepth = 0
        ∧ (s.pers pers).pinned = false ∧ (s.pers pers).asked = false ∧ (s.pers pers).inDemand = false
        ∧ (s.slot (s.pers pers).homeSlot).state = .disabled)
    ∧ (∃ (q : CmdCtx) (queue : Nat) (s : State), queue < 65536 ∧ MayIssue q 0x0503 4 s ∧ s.dev.ready.spanPager = true
        ∧ (s.queue queue).state ≠ .disabled ∧ (s.queue queue).destroying = false ∧ 1024 ≤ (s.queue queue).pers)
    ∧ (∃ (q : CmdCtx) (queue : Nat) (pers : Nat) (s : State), queue < 65536 ∧ pers < 1024 ∧ MayIssue q 0x0503 4 s
        ∧ s.dev.ready.spanPager = true
        ∧ ((s.queue queue).state = .disabled ∨ (s.queue queue).destroying = true ∨ (s.pers pers).installed = false))
    ∧ (∃ (q : CmdCtx) (i : Nat) (s : State), i < 64 ∧ MayIssue q 0x0504 2 s ∧ s.dev.ready.spanPager = true ∧ s.spn.live = true
        ∧ (s.slot i).defined = true ∧ (s.slot i).state = .disabled ∧ candidates s i = [])
    ∧ (∃ (q : CmdCtx) (i : Nat) (s : State), i < 64 ∧ MayIssue q 0x0504 2 s ∧ s.dev.ready.spanPager = true ∧ s.spn.live = true
        ∧ (s.slot i).defined = true ∧ (s.slot i).state = .saving ∧ (s.slot i).enabled = false)
    ∧ (∃ (q : CmdCtx) (i : Nat) (s : State), i < 64 ∧ MayIssue q 0x0504 2 s ∧ s.dev.ready.spanPager = true ∧ s.spn.live = true
        ∧ (s.slot i).defined = true ∧ (s.slot i).state = .empty ∧ waiting 0x0504 i s = false)
    ∧ (∃ (q : CmdCtx) (i : Nat) (s : State), i < 64 ∧ MayIssue q 0x0504 2 s ∧ s.dev.ready.spanPager = true ∧ s.spn.live = true
        ∧ (s.slot i).defined = true ∧ (s.slot i).state = .resident ∧ waiting 0x0504 i s = false)
    ∧ (∃ (q : CmdCtx) (pers : Nat) (pin : Nat) (s : State), pers < 1024 ∧ pin ≤ 1 ∧ MayIssue q 0x0505 3 s
        ∧ s.dev.ready.spanPager = true ∧ (s.pers pers).blocked = false ∧ (s.pers pers).installed = true
        ∧ residentNow s pers = false ∧ (s.slot (s.pers pers).homeSlot).state = .disabled)
    ∧ (∃ (q : CmdCtx) (pers : Nat) (s : State), pers < 1024 ∧ MayIssue q 0x0505 3 s ∧ s.dev.ready.spanPager = true
        ∧ (s.pers pers).blocked = false ∧ (s.pers pers).installed = true ∧ residentNow s pers = true
        ∧ (s.slot (s.pers pers).homeSlot).state = .resident)
    ∧ (∃ (q : CmdCtx) (pers : Nat) (pin : Nat) (s : State), pers < 1024 ∧ pin ≤ 1 ∧ MayIssue q 0x0505 3 s
        ∧ s.dev.ready.spanPager = true ∧ ((s.pers pers).blocked = true ∨ (s.pers pers).installed = false))
    ∧ (∃ (q : CmdCtx) (i : Nat) (s : State), i < 64 ∧ MayIssue q 0x0506 1 s ∧ s.dev.ready.spanPager = true ∧ s.spn.live = true
        ∧ (s.slot i).defined = true ∧ ((s.slot i).state = .resident ∨ (s.slot i).state = .starting))
    ∧ (∃ (q : CmdCtx) (i : Nat) (s : State), i < 64 ∧ MayIssue q 0x0506 1 s ∧ s.dev.ready.spanPager = true ∧ s.spn.live = true
        ∧ (s.slot i).defined = true ∧ ((s.slot i).state = .draining ∨ (s.slot i).state = .saving))
    ∧ (∃ (q : CmdCtx) (i : Nat) (s : State), i < 64 ∧ MayIssue q 0x0506 1 s ∧ s.dev.ready.spanPager = true ∧ s.spn.live = true
        ∧ (s.slot i).defined = true ∧ ((s.slot i).state = .empty ∨ (s.slot i).state = .disabled))
    ∧ (∃ (q : CmdCtx) (i : Nat) (s : State), i < 64 ∧ MayIssue q 0x0506 1 s ∧ s.dev.ready.spanPager = true ∧ s.spn.live = true
        ∧ (s.slot i).defined = true
        ∧ ((s.slot i).state = .waitGrant ∨ (s.slot i).state = .loading ∨ (s.slot i).state = .wiping))
    ∧ (∃ (q : CmdCtx) (pers : Nat) (s : State), pers < 1024 ∧ MayIssue q 0x0507 2 s ∧ s.dev.ready.spanPager = true
        ∧ (s.slot (s.pers pers).homeSlot).state = .disabled)
    ∧ (∃ (q : CmdCtx) (pers : Nat) (discard : Nat) (s : State), pers < 1024 ∧ discard ≤ 1 ∧ MayIssue q 0x0508 3 s
        ∧ s.dev.ready.spanPager = true ∧ operatedIn s pers = none ∧ (s.slot (s.pers pers).homeSlot).state = .disabled)
    ∧ (∃ (q : CmdCtx) (pers : Nat) (s : State), pers < 1024 ∧ MayIssue q 0x050A 2 s ∧ s.dev.ready.spanPager = true
        ∧ operatedIn s pers = none ∧ waiting 0x0505 pers s = false ∧ (s.slot (s.pers pers).homeSlot).state = .disabled)
    ∧ (∃ (q : CmdCtx) (pers : Nat) (maxRes : Nat) (depth : Nat) (sa : Nat) (sl : Nat) (ia : Nat) (sta : Nat) (st : Staged) (h : Header) (x : SpanHeader) (e : SectionEntry) (s : State),
        RangePlain (mbxClass q.mbx) true false sa sl s ∧ pers < 1024 ∧ maxRes < 65536 ∧ depth < 65536 ∧ sa < 2 ^ 64
        ∧ sl < 2 ^ 32 ∧ ia < 2 ^ 64 ∧ sta < 2 ^ 64 ∧ MayIssue q 0x0501 40 s ∧ s.dev.ready.spanPager = true
        ∧ operatedIn s pers = none ∧ h = stagedHeader s sa st ∧ headerCode 2 s h = 0 ∧ h.totalLen ≤ sl ∧ st.digestsOk = true
        ∧ stagedSpan s sa h = some (x, e) ∧ installReason s pers x ia e.length sta = 0 ∧ (s.slot x.homeSlot).state = .disabled)
    ∧ (∃ (q : CmdCtx) (pers : Nat) (maxRes : Nat) (depth : Nat) (sa : Nat) (sl : Nat) (ia : Nat) (sta : Nat) (why : Nat) (st : Staged) (x : SpanHeader) (e : SectionEntry) (s : State),
        pers < 1024 ∧ maxRes < 65536 ∧ depth < 65536 ∧ sa < 2 ^ 64 ∧ sl < 2 ^ 32 ∧ ia < 2 ^ 64 ∧ sta < 2 ^ 64
        ∧ MayIssue q 0x0501 40 s ∧ s.spn.live = true ∧ stagedSpan s sa (stagedHeader s sa st) = some (x, e)
        ∧ why = installReason s pers x ia e.length sta ∧ why ≠ 0)
    ∧ (∃ (q : CmdCtx) (c : Instr) (op : Nat) (len : Nat) (pers : Nat) (x : Nat) (s : State), pers < 65536 ∧ x ≤ 1
        ∧ MayIssue q op len s ∧ (c, op, len) ∈ [(Instr.spanPersGet q pers, 0x0502, 2), (.spanLoad q pers x, 0x0505, 3),
        (.spanUnpin q pers, 0x0507, 2), (.spanPersReset q pers x, 0x0508, 3), (.spanPersRemove q pers, 0x050A, 2)]
        ∧ 1024 ≤ pers)
    ∧ (∃ (q : CmdCtx) (c : Instr) (op : Nat) (len : Nat) (pers : Nat) (x : Nat) (s : State), pers < 65536 ∧ x ≤ 1
        ∧ MayIssue q op len s ∧ (c, op, len) ∈ [(Instr.spanPersGet q pers, 0x0502, 2), (.spanLoad q pers x, 0x0505, 3),
        (.spanUnpin q pers, 0x0507, 2), (.spanPersReset q pers x, 0x0508, 3), (.spanPersRemove q pers, 0x050A, 2)]
        ∧ pers < 1024 ∧ s.dev.ready.spanPager = false)
    ∧ (∃ (q : CmdCtx) (c : Instr) (op : Nat) (len : Nat) (pers : Nat) (x : Nat) (s : State), pers < 65536 ∧ x ≤ 1
        ∧ MayIssue q op len s ∧ (c, op, len) ∈ [(Instr.spanPersGet q pers, 0x0502, 2), (.spanLoad q pers x, 0x0505, 3),
        (.spanUnpin q pers, 0x0507, 2), (.spanPersReset q pers x, 0x0508, 3), (.spanPersRemove q pers, 0x050A, 2)]
        ∧ pers < 1024 ∧ s.dev.ready.spanPager = true ∧ (op = 0x0508 ∨ op = 0x050A) ∧ operatedIn s pers ≠ none)
    ∧ (∃ (q : CmdCtx) (c : Instr) (op : Nat) (len : Nat) (i : Nat) (x : Nat) (s : State), i < 256 ∧ x ≤ 1 ∧ MayIssue q op len s
        ∧ (c, op, len) ∈ [(Instr.spanSlotEnable q i x, 0x0504, 2), (.spanEvict q i, 0x0506, 1), (.spanSlotStatus q i, 0x0509,
        1)] ∧ (64 ≤ i ∨ (s.spn.live = true ∧ (s.slot i).defined = false)))
    ∧ (∃ (q : CmdCtx) (c : Instr) (op : Nat) (len : Nat) (i : Nat) (x : Nat) (s : State), i < 256 ∧ x ≤ 1 ∧ MayIssue q op len s
        ∧ (c, op, len) ∈ [(Instr.spanSlotEnable q i x, 0x0504, 2), (.spanEvict q i, 0x0506, 1), (.spanSlotStatus q i, 0x0509,
        1)] ∧ i < 64 ∧ (s.spn.live = false ∨ ((s.slot i).defined = true ∧ s.dev.ready.spanPager = false))) :=
  ⟨⟨Q, 65535, 1023,
      { Sb (fun p => { p with live := true, pers := [(1023, { installed := true, homeSlot := 63 })] }) with qm := { BD.qm with queues := [(65535, { state := .active })] } },
      by decide +kernel⟩,
   ⟨Q, 65535, { BD with qm := { BD.qm with queues := [(65535, { state := .active })] } }, by decide +kernel⟩,
   ⟨Q, 65535, 1023, BP, by decide +kernel⟩,
   ⟨Q, 63, Sb fun p => { p with live := true, slots := [(63, { defined := true })] }, by decide +kernel⟩,
   ⟨Q, 63, Sb fun p => { p with live := true, slots := [(63, { defined := true, state := .saving })] }, by decide +kernel⟩,
   ⟨Q, 63, Sb fun p => { p with live := true, slots := [(63, { defined := true, state := .empty, enabled := true })] },
       by decide +kernel⟩,
   ⟨Q, 63, Sp { state := .resident, enabled := true }, by decide +kernel⟩,
   ⟨Q, 5, 1, Sp {}, by decide +kernel⟩,
   ⟨Q, 5, Sp { state := .resident, enabled := true }, by decide +kernel⟩,
   ⟨Q, 1023, 1, Sb fun p => { p with live := true, pers := [(1023, { installed := true, blocked := true, homeSlot := 63 })] },
       by decide +kernel⟩,
   ⟨Q, 63, Sb fun p => { p with live := true, slots := [(63, { defined := true, state := .resident, enabled := true, pers := 5 })] },
       by decide +kernel⟩,
   ⟨Q, 63, Sp { state := .saving, enabled := true }, by decide +kernel⟩,
   ⟨Q, 63, Sp { state := .empty, enabled := true }, by decide +kernel⟩,
   ⟨Q, 63, Sp { state := .wiping, enabled := true }, by decide +kernel⟩,
   ⟨Q, 1023, Sb fun p => { p with live := true, pers := [(1023, { installed := true, homeSlot := 63, pinned := true })] },
       by decide +kernel⟩,
   ⟨Q, 1023, 1, Sb fun p => { p with live := true, pers := [(1023, { installed := true, homeSlot := 63 })] },
       by decide +kernel⟩,
   ⟨Q, 1023, Sb fun p => { p with live := true, pers := [(1023, { installed := true, homeSlot := 63, blocked := true })] },
       by decide +kernel⟩,
   ⟨Q, 5, 65535, 65535, A0, 4096, A0 + 8192, A0 + 2 ^ 21, stg,
       (let s : State := Pu (cS ++ List.replicate 256 0) (Sb fun p => { p with live := true, storeBase := A0, storeSize := 2 ^ 30, slots := [(63, { defined := true, listed := true, interfaceId := 9 })] }); stagedHeader s A0 stg),
       spanHeaderOf (hS 5 1 32), ⟨0x20, true, 0x600, 2⟩,
       Pu (cS ++ List.replicate 256 0) (Sb fun p => { p with live := true, storeBase := A0, storeSize := 2 ^ 30, slots := [(63, { defined := true, listed := true, interfaceId := 9 })] }),
       rangePlain _ _ _ _ _ (by decide) (by decide +kernel) (by decide +kernel) (by decide +kernel) (by decide +kernel),
       by decide +kernel⟩,
   ⟨Q, 6, 65535, 65535, A0, 4096, A0 + 8192, A0 + 2 ^ 21, 2, stg, spanHeaderOf (hS 5 1 32), ⟨0x20, true, 0x600, 2⟩,
       Pu (cS ++ List.replicate 256 0) (Sb fun p => { p with live := true, storeBase := A0, storeSize := 2 ^ 30, slots := [(63, { defined := true, listed := true, interfaceId := 9 })] }),
       by decide +kernel⟩,
   ⟨Q, Instr.spanLoad Q 1024 1, 0x0505, 3, 1024, 1, BP, by decide +kernel⟩,
   ⟨Q, Instr.spanPersReset Q 1023 1, 0x0508, 3, 1023, 1,
       { BP with dev := { BP.dev with ready := { BP.dev.ready with spanPager := false } } }, by decide +kernel⟩,
   ⟨Q, Instr.spanPersRemove Q 5, 0x050A, 2, 5, 1, Sp { state := .draining }, by decide +kernel⟩,
   ⟨Q, Instr.spanEvict Q 62, 0x0506, 1, 62, 1, Sp {}, by decide +kernel⟩,
   ⟨Q, Instr.spanSlotStatus Q 63, 0x0509, 1, 63, 1, BP, by decide +kernel⟩⟩

theorem witness_QueuePushes :
    (∃ (r : Req) (half : Nat) (s : State), s.dev.ready.queues = true ∧ halfOf (r.addr % 65536) ≠ half)
    ∧ (∃ (r : Req) (half : Nat) (q : Nat) (s : State), q = r.addr % 65536 ∧ halfOf q = half ∧ queueRefusal s q r.src.cls 0 ≠ 0)
    ∧ (∃ (r : Req) (half : Nat) (q : Nat) (s : State), q = r.addr % 65536 ∧ halfOf q = half ∧ queueRefusal s q r.src.cls 0 = 0
        ∧ (s.queue q).capacity ≤ depthOf (s.queue q))
    ∧ (∃ (r : Req) (half : Nat) (q : Nat) (e : PageEntry) (s : State) (u : State), q = r.addr % 65536 ∧ halfOf q = half
        ∧ queueRefusal s q r.src.cls 0 = 0 ∧ depthOf (s.queue q) < (s.queue q).capacity
        ∧ lookup (vpage (s.queue q) (s.queue q).tail) s = (e, u) ∧ (e.whr = .dram ∨ e.whr = .moving ∨ (e.whr = .none
        ∧ freePage u = none)))
    ∧ (∃ (r : Req) (half : Nat) (q : Nat) (v : Nat) (e : PageEntry) (s : State) (u : State), q = r.addr % 65536
        ∧ halfOf q = half ∧ queueRefusal s q r.src.cls 0 = 0 ∧ depthOf (s.queue q) < (s.queue q).capacity
        ∧ v = vpage (s.queue q) (s.queue q).tail ∧ lookup v s = (e, u) ∧ e.whr = .scratch)
    ∧ (∃ (r : Req) (half : Nat) (q : Nat) (v : Nat) (p : Nat) (e : PageEntry) (s : State) (u : State), q = r.addr % 65536
        ∧ halfOf q = half ∧ queueRefusal s q r.src.cls 0 = 0 ∧ depthOf (s.queue q) < (s.queue q).capacity
        ∧ v = vpage (s.queue q) (s.queue q).tail ∧ lookup v s = (e, u) ∧ e.whr = .none ∧ freePage u = some p)
    ∧ (∃ (v : Nat) (s : State), (inCache s v = true ∨ s.dev.ready.qspill = false))
    ∧ (∃ (s : State) (p : Nat), freePage s = some p) :=
  ⟨⟨rq 65535, 0, Qu qx, by decide +kernel⟩,
   ⟨rq 65535, 1, 65535, Qu { qx with access := 0xFE }, by decide +kernel⟩,
   ⟨rq 65535, 1, 65535, Qu { qx with tail := 512 }, by decide +kernel⟩,
   ⟨rq 65535, 1, 65535, ⟨.dram, false, 65535, 0, 0⟩,
       Qu qx fun m => { m with map := [(8, ⟨.dram, false, 65535, 0, 0⟩)], cached := [(8, true)] },
       (let s : State := Qu qx fun m => { m with map := [(8, ⟨.dram, false, 65535, 0, 0⟩)], cached := [(8, true)] }; s),
       by decide +kernel⟩,
   ⟨rq 65535, 1, 65535, 8, ⟨.scratch, false, 65535, 7, 0⟩,
       Qu { qx with tail := 1 } fun m => { m with map := [(8, ⟨.scratch, false, 65535, 7, 0⟩)], used := [(7, true)] },
       (let s : State := Qu { qx with tail := 1 } fun m => { m with map := [(8, ⟨.scratch, false, 65535, 7, 0⟩)], used := [(7, true)] }; s),
       by decide +kernel⟩,
   ⟨rq 65535, 1, 65535, 8, 0, {}, { Qu qx with dev := { BD.dev with ready := { BD.dev.ready with qspill := false } } },
       (let s : State := { Qu qx with dev := { BD.dev with ready := { BD.dev.ready with qspill := false } } }; s),
       by decide +kernel⟩,
   ⟨8, Qu qx fun m => { m with map := [(8, ⟨.dram, false, 65535, 0, 0⟩)], cached := [(8, true)] }, by decide +kernel⟩,
   ⟨Qu qx fun m => { m with returning := 1 }, 64, by decide +kernel⟩⟩

theorem witness_QueuePops :
    (∃ (r : Req) (half : Nat) (q : Nat) (s : State), q = r.addr % 65536 ∧ halfOf q = half ∧ queueRefusal s q r.src.cls 4 ≠ 0)
    ∧ (∃ (r : Req) (half : Nat) (q : Nat) (s : State), q = r.addr % 65536 ∧ halfOf q = half ∧ queueRefusal s q r.src.cls 4 = 0
        ∧ (s.queue q).paused = true)
    ∧ (∃ (r : Req) (half : Nat) (q : Nat) (s : State), q = r.addr % 65536 ∧ halfOf q = half ∧ queueRefusal s q r.src.cls 4 = 0
        ∧ (s.queue q).paused = false ∧ depthOf (s.queue q) = 0)
    ∧ (∃ (r : Req) (half : Nat) (q : Nat) (e : PageEntry) (s : State) (u : State), q = r.addr % 65536 ∧ halfOf q = half
        ∧ queueRefusal s q r.src.cls 4 = 0 ∧ (s.queue q).paused = false ∧ depthOf (s.queue q) ≠ 0
        ∧ lookup (vpage (s.queue q) (s.queue q).head) s = (e, u) ∧ (e.whr ≠ .scratch ∨ (s.queue q).held ≠ []))
    ∧ (∃ (r : Req) (half : Nat) (q : Nat) (d : Nat) (e : PageEntry) (s : State) (u : State) (w : State), q = r.addr % 65536
        ∧ halfOf q = half ∧ queueRefusal s q r.src.cls 4 = 0 ∧ (s.queue q).paused = false ∧ depthOf (s.queue q) ≠ 0
        ∧ (s.queue q).held = [] ∧ lookup (vpage (s.queue q) (s.queue q).head) s = (e, u) ∧ e.whr = .scratch
        ∧ checkUnit (128 * e.spage + (s.queue q).head % 128) 0 u = (some d, w) ∧ d < 2 ^ 256)
    ∧ (∃ (r : Req) (half : Nat) (q : Nat) (e : PageEntry) (s : State) (u : State) (w : State), q = r.addr % 65536
        ∧ halfOf q = half ∧ queueRefusal s q r.src.cls 4 = 0 ∧ (s.queue q).paused = false ∧ depthOf (s.queue q) ≠ 0
        ∧ (s.queue q).held = [] ∧ lookup (vpage (s.queue q) (s.queue q).head) s = (e, u) ∧ e.whr = .scratch
        ∧ checkUnit (128 * e.spage + (s.queue q).head % 128) 0 u = (none, w)) :=
  ⟨⟨rq 65535, 1, 65535, Qu { qx with access := 0x0F }, by decide +kernel⟩,
   ⟨rq 65535, 1, 65535, Qu { qx with paused := true }, by decide +kernel⟩,
   ⟨rq 65535, 1, 65535, Qu qx, by decide +kernel⟩,
   ⟨rq 65535, 1, 65535, ⟨.scratch, false, 65535, 7, 0⟩,
       Qu { qx with tail := 1, held := [.doorbell 0] } fun m => { m with map := [(8, ⟨.scratch, false, 65535, 7, 0⟩)], used := [(7, true)] },
       (let s : State := Qu { qx with tail := 1, held := [.doorbell 0] } fun m => { m with map := [(8, ⟨.scratch, false, 65535, 7, 0⟩)], used := [(7, true)] }; s),
       by decide +kernel⟩,
   ⟨rq 65535, 1, 65535, 0, ⟨.scratch, false, 65535, 7, 0⟩,
       Qu { qx with tail := 1 } fun m => { m with map := [(8, ⟨.scratch, false, 65535, 7, 0⟩)], used := [(7, true)] },
       (let s : State := Qu { qx with tail := 1 } fun m => { m with map := [(8, ⟨.scratch, false, 65535, 7, 0⟩)], used := [(7, true)] }; s),
       (let s : State := Qu { qx with tail := 1 } fun m => { m with map := [(8, ⟨.scratch, false, 65535, 7, 0⟩)], used := [(7, true)] }; (checkUnit 896 0 s).2),
       by decide +kernel⟩,
   ⟨rq 65535, 1, 65535, ⟨.scratch, false, 65535, 7, 0⟩,
       { Qu { qx with tail := 1 } (fun m => { m with map := [(8, ⟨.scratch, false, 65535, 7, 0⟩)], used := [(7, true)] }) with spd := { BD.spd with units := [(896, { poison := 3 })] } },
       (let s : State := { Qu { qx with tail := 1 } (fun m => { m with map := [(8, ⟨.scratch, false, 65535, 7, 0⟩)], used := [(7, true)] }) with spd := { BD.spd with units := [(896, { poison := 3 })] } }; s),
       (let s : State := { Qu { qx with tail := 1 } (fun m => { m with map := [(8, ⟨.scratch, false, 65535, 7, 0⟩)], used := [(7, true)] }) with spd := { BD.spd with units := [(896, { poison := 3 })] } }; (checkUnit 896 0 s).2),
       by decide +kernel⟩⟩

theorem witness_QueueSignals :
    (∃ (q : Nat) (s : State), staleRuns s (s.queue q) = true)
    ∧ (∃ (s : State), s.qm.staleEn = false)
    ∧ (∃ (g : Nat), g < 32)
    ∧ (∃ (q : Nat) (b : Nat) (g : _), b < 7 ∧ q < 65536 ∧ g = q / 2048)
    ∧ (∃ (q : Nat) (s : State), (s.queue q).state = .active ∧ 1024 ≤ (s.queue q).pers ∧ (s.queue q).held = [])
    ∧ (∃ (q : Nat) (s : State), (s.queue q).state ≠ .active)
    ∧ (∃ (v : Nat) (x : Spill) (e : PageEntry) (s : State), s.dev.ready.queues = true
        ∧ (s.qm.spills.find? (fun y => y.page = v) = some x) ∧ e = s.page v ∧ s.qm.doomed.contains v = false
        ∧ (s.queue e.queue).state ≠ .faulted)
    ∧ (∃ (v : Nat) (resp : Nat) (x : Spill) (e : PageEntry) (s : State), s.dev.ready.queues = true
        ∧ (s.qm.spills.find? (fun y => y.page = v) = some x) ∧ e = s.page v ∧ s.qm.doomed.contains v = false ∧ resp ≠ 0
        ∧ (s.queue e.queue).state ≠ .faulted)
    ∧ (∃ (v : Nat) (x : Spill) (e : PageEntry) (s : State), s.dev.ready.queues = true
        ∧ (s.qm.spills.find? (fun y => y.page = v) = some x) ∧ e = s.page v ∧ s.qm.doomed.contains v = false
        ∧ (s.queue e.queue).state = .faulted)
    ∧ (∃ (v : Nat) (x : Spill) (s : State), s.dev.ready.queues = true ∧ (s.qm.spills.find? (fun y => y.page = v) = some x)
        ∧ s.qm.doomed.contains v = true)
    ∧ (∃ (v : Nat) (p : Nat) (q : Nat) (s : State) (t : State), s.dev.ready.queues = true ∧ s.qm.fetches = [(v, p)]
        ∧ q = (s.page v).queue ∧ (s.queue q).state = .active
        ∧ (s.page v).seq = ((s.queue q).head / 128 + pageAhead (s.queue q) v) % 2 ^ 25
        ∧ t = queueCount q 5 (setEntry v ⟨.scratch, false, q, p,
        (s.page v).seq⟩ (fillPage v p { s with qm := { s.qm with fetches := [] } })))
    ∧ (∃ (v : Nat) (p : Nat) (resp : Nat) (s : State), s.dev.ready.queues = true ∧ s.qm.fetches = [(v, p)]
        ∧ (s.queue (s.page v).queue).state = .active
        ∧ (resp ≠ 0 ∨ (s.page v).seq ≠ ((s.queue (s.page v).queue).head / 128 + pageAhead (s.queue (s.page v).queue) v) % 2 ^ 25))
    ∧ (∃ (v : Nat) (p : Nat) (s : State), s.dev.ready.queues = true ∧ s.qm.copies = [(v, p)])
    ∧ (∃ (v : Nat) (p : Nat) (j : Nat) (s : State), p ≠ (s.page v).spage ∧ j < 128)
    ∧ (∃ (s : State), s.dev.ready.scratch = true ∧ s.spd.autoGranted = false)
    ∧ (∃ (s : State), pagesLeaving s = [] ∧ (∀ e ∈ s.qm.queues, duePages s (s.queue e.1) = []) ∧ s.qm.spilling = false
        ∧ s.qm.spillLow ≤ freeCount s ∧ (∀ e ∈ s.qm.queues, e.2.destroying = false ∧ e.2.resetting = false)) :=
  ⟨⟨65535, Qu { qx with tail := 1, staleUs := 1000000 }, by decide +kernel⟩,
   ⟨Qu qx fun m => { m with staleEn := false }, by decide +kernel⟩,
   ⟨31, by decide +kernel⟩,
   ⟨65535, 6, 31, by decide +kernel⟩,
   ⟨65535, Qu qx, by decide +kernel⟩,
   ⟨65535, Qu { qx with state := .faulted }, by decide +kernel⟩,
   ⟨8, ⟨8, List.replicate 128 5⟩, ⟨.moving, false, 65535, 7, 0⟩,
       Qu { qx with tail := 300 } fun m => { m with map := [(8, ⟨.moving, false, 65535, 7, 0⟩)], used := [(7, true)], spills := [⟨8, List.replicate 128 5⟩] },
       by decide +kernel⟩,
   ⟨8, 6, ⟨8, []⟩, ⟨.moving, false, 65535, 7, 0⟩,
       Qu { qx with tail := 300 } fun m => { m with map := [(8, ⟨.moving, false, 65535, 7, 0⟩)], used := [(7, true)], spills := [⟨8, []⟩] },
       by decide +kernel⟩,
   ⟨8, ⟨8, []⟩, ⟨.moving, false, 65535, 7, 0⟩,
       Qu { qx with tail := 300, state := .faulted } fun m => { m with map := [(8, ⟨.moving, false, 65535, 7, 0⟩)], used := [(7, true)], spills := [⟨8, []⟩] },
       by decide +kernel⟩,
   ⟨8, ⟨8, []⟩, Qu { qx with tail := 300 } fun m => { m with map := [(8, ⟨.moving, false, 65535, 7, 0⟩)], used := [(7, true)], spills := [⟨8, []⟩], doomed := [8] },
       by decide +kernel⟩,
   ⟨8, 7, 65535, Qu { qx with tail := 1 } fun m => { m with map := [(8, ⟨.dram, false, 65535, 0, 0⟩)], cached := [(8, true)], fetches := [(8, 7)], used := [(7, true)] },
       (let s : State := Qu { qx with tail := 1 } fun m => { m with map := [(8, ⟨.dram, false, 65535, 0, 0⟩)], cached := [(8, true)], fetches := [(8, 7)], used := [(7, true)] }; queueCount 65535 5 (setEntry 8 ⟨.scratch,
       false, 65535, 7, 0⟩ (fillPage 8 7 { s with qm := { s.qm with fetches := [] } }))), by decide +kernel⟩,
   ⟨8, 7, 6, Qu { qx with tail := 1 } fun m => { m with map := [(8, ⟨.dram, false, 65535, 0, 0⟩)], cached := [(8, true)], fetches := [(8, 7)], used := [(7, true)] },
       by decide +kernel⟩,
   ⟨8, 70, Qu { qx with tail := 1 } fun m => { m with map := [(8, ⟨.scratch, false, 65535, 7, 0⟩)], used := [(7, true), (70, true)], copies := [(8, 70)] },
       by decide +kernel⟩,
   ⟨8, 70, 127, Qu { qx with tail := 1 } fun m => { m with map := [(8, ⟨.scratch, false, 65535, 7, 0⟩)], used := [(7, true), (70, true)], copies := [(8, 70)] },
       by decide +kernel⟩,
   ⟨{ State.reset with dev := { State.reset.dev with ready := { State.reset.dev.ready with scratch := true } } },
       by decide +kernel⟩,
   ⟨Qu { qx with tail := 1 } fun m => { m with map := [(8, ⟨.scratch, false, 65535, 7, 0⟩)], used := [(7, true)] },
       by decide +kernel⟩⟩

theorem witness_Doorbells :
    (∃ (q : Nat) (hi : Nat) (s : State), s.dev.ready.queues = true ∧ q < 65536 ∧ hi < 2 ^ 32 ∧ s.qm.bells = []
        ∧ postedBefore s = [] ∧ doorbellRoom s q = true)
    ∧ (∃ (q : Nat) (hi : Nat) (s : State), s.dev.ready.queues = true ∧ q < 65536 ∧ hi < 2 ^ 32 ∧ s.qm.bells = []
        ∧ (postedBefore s ≠ [] ∨ doorbellRoom s q = false))
    ∧ (∃ (q : Nat) (a : Nat) (s : State) (g : _), s.dev.ready.queues = true ∧ q < 65536 ∧ s.qm.doorbells = []
        ∧ doorbellRoom s q = true ∧ s.qm.bells = [⟨q, true, a, [g]⟩])
    ∧ (∃ (s : State), (∀ e ∈ s.qm.queues, e.2.held = []))
    ∧ (∃ (q : Nat) (resp : Nat) (a : Nat) (code : Nat) (item : BitVec 256) (data : List Byte) (s : State) (u : State),
        s.qm.doorbells = [⟨q, true, a, [], [], false⟩] ∧ s.qm.bells = [] ∧ moverRead a 32 (resp,
        leBytes 32 item.toNat) { s with qm := { s.qm with doorbells := [] } } = ((code, data), u) ∧ code ≠ 0)
    ∧ (∃ (q : Nat) (resp : Nat) (a : Nat) (item : BitVec 256) (data : List Byte) (s : State) (u : State),
        s.qm.doorbells = [⟨q, true, a, [], [], false⟩] ∧ s.qm.bells = [] ∧ moverRead a 32 (resp,
        leBytes 32 item.toNat) { s with qm := { s.qm with doorbells := [] } } = ((0, data), u) ∧ u.dev.ready.queues = true
        ∧ queueRefusal u q 0 0 = 0)
    ∧ (∃ (q : Nat) (hi : Nat) (s : State), s.dev.ready.queues = true ∧ q < 65536 ∧ hi < 2 ^ 32 ∧ s.qm.bells = []
        ∧ postedBefore s = [] ∧ doorbellRoom s q = true ∧ s.qm.doorbells = [])
    ∧ (∃ (code : Nat) (outcome : Nat), code < 8 ∧ outcome < 3)
    ∧ (∃ (q : Nat) (resp : Nat) (code : Nat) (d : DoorbellOp) (s : State) (u : State), s.qm.doorbells = [d] ∧ d.queue = q
        ∧ d.push = false ∧ d.first ≠ [] ∧ d.firstDone = false ∧ moverWrite d.addr d.first resp s = (code, u))
    ∧ (∃ (q : Nat) (resp : Nat) (code : Nat) (d : DoorbellOp) (s : State) (u : State) (w : State), s.qm.doorbells = [d]
        ∧ d.queue = q ∧ d.push = false ∧ d.first ≠ [] ∧ d.firstDone = true ∧ s.qm.bells = []
        ∧ moverWrite (d.addr + 32) d.second resp s = (code, u) ∧ w = (if code = 0 then u else queueCause q 6 u)) :=
  ⟨⟨65535, 2 ^ 32 - 1, Qu qx, by decide +kernel⟩,
   ⟨65535, 256, Qu qx fun m => { m with doorbells := (List.range 64).map fun a => ⟨65535 - a, true, a, [], [], false⟩ },
       by decide +kernel⟩,
   ⟨65535, A0, Qu qx fun m => { m with bells := [⟨65535, true, A0, [5]⟩] }, 5, by decide +kernel⟩,
   ⟨Qu qx, by decide +kernel⟩,
   ⟨65535, 6, 5, 6, 5, leBytes 32 5,
       { Qu qx (fun m => { m with doorbells := [⟨65535, true, 5, [], [], false⟩] }) with sec := { BD.sec with acc := { BD.sec.acc with entries := [(0, ⟨true, false, true, true, 4, 0, 0, 0, 0x1FFFFFFF⟩)] } } },
       (let s : State := { Qu qx (fun m => { m with doorbells := [⟨65535, true, 5, [], [], false⟩] }) with sec := { BD.sec with acc := { BD.sec.acc with entries := [(0, ⟨true, false, true, true, 4, 0, 0, 0, 0x1FFFFFFF⟩)] } } }; (moverRead 5 32 (6,
       leBytes 32 5) { s with qm := { s.qm with doorbells := [] } }).2), by decide +kernel⟩,
   ⟨65535, 0, 5, 7, leBytes 32 7,
       { Qu qx (fun m => { m with doorbells := [⟨65535, true, 5, [], [], false⟩] }) with sec := { BD.sec with acc := { BD.sec.acc with entries := [(0, ⟨true, false, true, true, 4, 0, 0, 0, 0x1FFFFFFF⟩)] } } },
       (let s : State := { Qu qx (fun m => { m with doorbells := [⟨65535, true, 5, [], [], false⟩] }) with sec := { BD.sec with acc := { BD.sec.acc with entries := [(0, ⟨true, false, true, true, 4, 0, 0, 0, 0x1FFFFFFF⟩)] } } }; (moverRead 5 32 (0,
       leBytes 32 7) { s with qm := { s.qm with doorbells := [] } }).2), by decide +kernel⟩,
   ⟨65535, 256, Qu { qx with paused := true }, by decide +kernel⟩,
   ⟨7, 2, by decide +kernel⟩,
   ⟨65535, 6, 6, ⟨65535, false, 5, [1], [2], false⟩,
       { Qu qx (fun m => { m with doorbells := [⟨65535, false, 5, [1], [2], false⟩] }) with sec := { BD.sec with acc := { BD.sec.acc with entries := [(0, ⟨true, false, true, true, 4, 0, 0, 0, 0x1FFFFFFF⟩)] } } },
       (let s : State := { Qu qx (fun m => { m with doorbells := [⟨65535, false, 5, [1], [2], false⟩] }) with sec := { BD.sec with acc := { BD.sec.acc with entries := [(0, ⟨true, false, true, true, 4, 0, 0, 0, 0x1FFFFFFF⟩)] } } }; (moverWrite 5 [1] 6 s).2),
       by decide +kernel⟩,
   ⟨65535, 6, 2, ⟨65535, false, A0, [1], [2], true⟩,
       Qu qx fun m => { m with doorbells := [⟨65535, false, A0, [1], [2], true⟩] },
       (let s : State := Qu qx fun m => { m with doorbells := [⟨65535, false, A0, [1], [2], true⟩] }; (moverWrite (A0 + 32) [2] 6 s).2),
       (let s : State := Qu qx fun m => { m with doorbells := [⟨65535, false, A0, [1], [2], true⟩] }; queueCause 65535 6 (moverWrite (A0 + 32) [2] 6 s).2),
       by decide +kernel⟩⟩

theorem witness_QueueCommands :
    (∃ (q : CmdCtx) (queue : Nat) (access : Nat) (prefetch : Nat) (capacity : Nat) (base : Nat) (count : Nat) (stale : Nat) (flags : Nat) (s : State),
        queue < 65536 ∧ access < 256 ∧ prefetch < 256 ∧ capacity < 2 ^ 32 ∧ base < 2 ^ 32 ∧ count < 2 ^ 32 ∧ stale < 2 ^ 32
        ∧ flags < 256 ∧ MayIssue q 0x0601 21 s ∧ createReason s queue prefetch capacity base count stale = 0
        ∧ s.dev.ready.queues = true ∧ (s.queue queue).state = .disabled ∧ (s.queue queue).destroying = false)
    ∧ (∃ (q : CmdCtx) (queue : Nat) (access : Nat) (prefetch : Nat) (capacity : Nat) (base : Nat) (count : Nat) (stale : Nat) (flags : Nat) (s : State),
        queue < 65536 ∧ access < 256 ∧ prefetch < 256 ∧ capacity < 2 ^ 32 ∧ base < 2 ^ 32 ∧ count < 2 ^ 32 ∧ stale < 2 ^ 32
        ∧ flags < 256 ∧ MayIssue q 0x0601 21 s ∧ createReason s queue prefetch capacity base count stale ≠ 0)
    ∧ (∃ (q : CmdCtx) (queue : Nat) (s : State), queue < 65536 ∧ MayIssue q 0x0602 2 s ∧ s.dev.ready.queues = true
        ∧ (s.queue queue).state ≠ .disabled ∧ (s.queue queue).pers = 0xFFFF ∧ (s.queue queue).held = [] ∧ (∀ e ∈ s.qm.map,
        e.2.queue ≠ queue))
    ∧ (∃ (q : CmdCtx) (queue : Nat) (access : Nat) (prefetch : Nat) (stale : Nat) (flags : Nat) (s : State), queue < 65536
        ∧ access < 256 ∧ 1 ≤ prefetch ∧ prefetch ≤ 15 ∧ stale ≤ 1000000 ∧ flags < 256 ∧ MayIssue q 0x0604 9 s
        ∧ s.dev.ready.queues = true ∧ (s.queue queue).state ≠ .disabled)
    ∧ (∃ (q : CmdCtx) (queue : Nat) (s : State), queue < 65536 ∧ MayIssue q 0x0605 2 s ∧ s.dev.ready.queues = true
        ∧ (s.queue queue).state ≠ .disabled ∧ (s.queue queue).held = [] ∧ 1024 ≤ (s.queue queue).pers ∧ (∀ e ∈ s.qm.map,
        e.2.queue ≠ queue))
    ∧ (∃ (s : State) (q : Nat) (x : Queue), s.qm.queues = [(q, x)] ∧ (∀ v ∈ s.qm.doomed, (s.page v).queue ≠ q)
        ∧ x.destroying = true ∧ x.resetting = false)
    ∧ (∃ (s : State) (q : Nat) (x : Queue), s.qm.queues = [(q, x)] ∧ (∀ v ∈ s.qm.doomed, (s.page v).queue ≠ q)
        ∧ x.resetting = true ∧ x.destroying = false)
    ∧ (∃ (q : CmdCtx) (queue : Nat) (s : State), queue < 65536 ∧ MayIssue q 0x0606 40 s ∧ s.dev.ready.queues = true
        ∧ queueRefusal s queue 0 0 = 0 ∧ (s.queue queue).capacity ≤ depthOf (s.queue queue))
    ∧ (∃ (q : CmdCtx) (queue : Nat) (e : PageEntry) (s : State) (u : State), queue < 65536 ∧ MayIssue q 0x0606 40 s
        ∧ s.dev.ready.queues = true ∧ queueRefusal s queue 0 0 = 0 ∧ depthOf (s.queue queue) < (s.queue queue).capacity
        ∧ lookup (vpage (s.queue queue) (s.queue queue).tail) s = (e, u) ∧ e.whr = .scratch)
    ∧ (∃ (q : CmdCtx) (queue : Nat) (code : Nat) (s : State), queue < 65536 ∧ MayIssue q 0x0606 40 s
        ∧ s.dev.ready.queues = true ∧ code = queueRefusal s queue 0 0 ∧ code ≠ 0)
    ∧ (∃ (q : CmdCtx) (queue : Nat) (s : State), queue < 65536 ∧ MayIssue q 0x0607 2 s ∧ s.dev.ready.queues = true
        ∧ queueRefusal s queue 0 4 = 0 ∧ (s.queue queue).paused = true)
    ∧ (∃ (q : CmdCtx) (queue : Nat) (s : State), queue < 65536 ∧ MayIssue q 0x0607 2 s ∧ s.dev.ready.queues = true
        ∧ queueRefusal s queue 0 4 = 0 ∧ (s.queue queue).paused = false ∧ depthOf (s.queue queue) = 0)
    ∧ (∃ (q : CmdCtx) (queue : Nat) (d : Nat) (e : PageEntry) (s : State) (u : State) (w : State), queue < 65536
        ∧ MayIssue q 0x0607 2 s ∧ s.dev.ready.queues = true ∧ queueRefusal s queue 0 4 = 0 ∧ (s.queue queue).paused = false
        ∧ depthOf (s.queue queue) ≠ 0 ∧ (s.queue queue).held = []
        ∧ lookup (vpage (s.queue queue) (s.queue queue).head) s = (e, u) ∧ e.whr = .scratch
        ∧ checkUnit (128 * e.spage + (s.queue queue).head % 128) 0 u = (some d, w))
    ∧ (∃ (q : CmdCtx) (queue : Nat) (e : PageEntry) (s : State) (u : State), queue < 65536 ∧ MayIssue q 0x0607 2 s
        ∧ s.dev.ready.queues = true ∧ queueRefusal s queue 0 4 = 0 ∧ (s.queue queue).paused = false
        ∧ depthOf (s.queue queue) ≠ 0 ∧ lookup (vpage (s.queue queue) (s.queue queue).head) s = (e, u) ∧ e.whr = .moving)
    ∧ (∃ (q : CmdCtx) (c : Instr) (op : Nat) (len : Nat) (queue : Nat) (access : Nat) (prefetch : Nat) (stale : Nat) (flags : Nat) (item : BitVec 256) (s : State),
        queue < 65536 ∧ access < 256 ∧ 1 ≤ prefetch ∧ prefetch ≤ 15 ∧ stale ≤ 1000000 ∧ flags < 256 ∧ MayIssue q op len s
        ∧ (c, op, len) ∈ [(Instr.queueDestroy q queue, 0x0602, 2), (.queueSet q queue access prefetch stale flags, 0x0604, 9),
        (.queueReset q queue, 0x0605, 2), (.queuePushCmd q queue item, 0x0606, 40), (.queuePopCmd q queue, 0x0607, 2)]
        ∧ s.dev.ready.queues = false)
    ∧ (∃ (q : CmdCtx) (c : Instr) (op : Nat) (len : Nat) (queue : Nat) (access : Nat) (prefetch : Nat) (stale : Nat) (flags : Nat) (item : BitVec 256) (s : State),
        queue < 65536 ∧ access < 256 ∧ 1 ≤ prefetch ∧ prefetch ≤ 15 ∧ stale ≤ 1000000 ∧ flags < 256 ∧ MayIssue q op len s
        ∧ (c, op, len) ∈ [(Instr.queueDestroy q queue, 0x0602, 2), (.queueSet q queue access prefetch stale flags, 0x0604, 9),
        (.queueReset q queue, 0x0605, 2), (.queuePushCmd q queue item, 0x0606, 40), (.queuePopCmd q queue, 0x0607, 2)]
        ∧ s.dev.ready.queues = true ∧ (s.queue queue).state = .disabled)
    ∧ (∃ (q : CmdCtx) (queue : Nat) (access : Nat) (prefetch : Nat) (stale : Nat) (flags : Nat) (s : State), queue < 65536
        ∧ access < 256 ∧ prefetch < 256 ∧ stale < 2 ^ 32 ∧ flags < 256 ∧ MayIssue q 0x0604 9 s
        ∧ (prefetch = 0 ∨ 15 < prefetch ∨ 1000000 < stale))
    ∧ (∃ (q : CmdCtx) (queue : Nat) (x : Nat) (s : State), queue < 65536 ∧ x < 256 ∧ MayIssue q 0x0603 3 s ∧ 1 < x)
    ∧ (∃ (q : CmdCtx) (queue : Nat) (x : Nat) (s : State), queue < 65536 ∧ x < 256 ∧ MayIssue q 0x0608 1 s ∧ 31 < x) :=
  ⟨⟨Q, 65534, 255, 15, 8192, 0, 64, 1000000, 255, { Qu {} with qm := { (Qu {}).qm with queues := [] } }, by decide +kernel⟩,
   ⟨Q, 65534, 255, 15, 8193, 0, 64, 1000001, 255, Qu {}, by decide +kernel⟩,
   ⟨Q, 65535, Qu qx, by decide +kernel⟩,
   ⟨Q, 65535, 255, 15, 1000000, 255, Qu qx, by decide +kernel⟩,
   ⟨Q, 65535, Qu qx, by decide +kernel⟩,
   ⟨Qu { qx with destroying := true }, 65535, { qx with destroying := true }, by decide +kernel⟩,
   ⟨Qu { qx with resetting := true }, 65535, { qx with resetting := true }, by decide +kernel⟩,
   ⟨Q, 65535, Qu { qx with tail := 512 }, by decide +kernel⟩,
   ⟨Q, 65535, ⟨.scratch, false, 65535, 7, 0⟩,
       Qu qx fun m => { m with map := [(8, ⟨.scratch, false, 65535, 7, 0⟩)], used := [(7, true)] },
       (let s : State := Qu qx fun m => { m with map := [(8, ⟨.scratch, false, 65535, 7, 0⟩)], used := [(7, true)] }; s),
       by decide +kernel⟩,
   ⟨Q, 65535, 2, Qu { qx with access := 0xFE }, by decide +kernel⟩,
   ⟨Q, 65535, Qu { qx with paused := true }, by decide +kernel⟩,
   ⟨Q, 65535, Qu qx, by decide +kernel⟩,
   ⟨Q, 65535, 0, ⟨.scratch, false, 65535, 7, 0⟩,
       Qu { qx with tail := 1 } fun m => { m with map := [(8, ⟨.scratch, false, 65535, 7, 0⟩)], used := [(7, true)] },
       (let s : State := Qu { qx with tail := 1 } fun m => { m with map := [(8, ⟨.scratch, false, 65535, 7, 0⟩)], used := [(7, true)] }; s),
       (let s : State := Qu { qx with tail := 1 } fun m => { m with map := [(8, ⟨.scratch, false, 65535, 7, 0⟩)], used := [(7, true)] }; (checkUnit 896 0 s).2),
       by decide +kernel⟩,
   ⟨Q, 65535, ⟨.moving, false, 65535, 7, 0⟩,
       Qu { qx with tail := 1 } fun m => { m with map := [(8, ⟨.moving, false, 65535, 7, 0⟩)], used := [(7, true)] },
       (let s : State := Qu { qx with tail := 1 } fun m => { m with map := [(8, ⟨.moving, false, 65535, 7, 0⟩)], used := [(7, true)] }; s),
       by decide +kernel⟩,
   ⟨Q, Instr.queueSet Q 65535 255 15 1000000 255, 0x0604, 9, 65535, 255, 15, 1000000, 255, 0,
       { Qu qx with dev := { BD.dev with ready := { BD.dev.ready with queues := false } } }, by decide +kernel⟩,
   ⟨Q, Instr.queueDestroy Q 65534, 0x0602, 2, 65534, 255, 15, 1000000, 255, 0, Qu qx, by decide +kernel⟩,
   ⟨Q, 65535, 255, 15, 1000001, 255, Qu qx, by decide +kernel⟩,
   ⟨Q, 65535, 2, Qu qx, by decide +kernel⟩,
   ⟨Q, 65535, 32, Qu qx, by decide +kernel⟩⟩

theorem witness_ComputeInstructions :
    (∃ (n : Nat) (k : Nat) (fn : Nat) (d : Nat) (a : Nat) (b : Nat) (s : State) (x : BitVec 64) (y : BitVec 64),
        Issues n k (.alu fn d a b) s ∧ x = (s.ctx (4 * n + k)).reg a ∧ y = (s.ctx (4 * n + k)).reg b)
    ∧ (∃ (n : Nat) (k : Nat) (d : Nat) (a : Nat) (kind : Nat) (m : Nat) (s : State), Issues n k (.shi d a kind m) s)
    ∧ (∃ (n : Nat) (k : Nat) (d : Nat) (a : Nat) (pos : Nat) (len : Nat) (l : Nat) (s : State), Issues n k (.ext d a pos len) s
        ∧ l = (if len = 0 then 64 else len))
    ∧ (∃ (n : Nat) (k : Nat) (d : Nat) (a : Nat) (pos : Nat) (len : Nat) (l : Nat) (s : State), Issues n k (.ins d a pos len) s
        ∧ l = (if len = 0 then 64 else len))
    ∧ (∃ (n : Nat) (k : Nat) (d : Nat) (lane : Nat) (imm : Nat) (keep : Bool) (s : State), Issues n k (.movw d lane keep imm) s)
    ∧ (∃ (w : Nat) (fn : Nat) (d : Nat) (a : Nat) (b : Nat), engDecode w = some (.alu fn d a b))
    ∧ (∃ (w : Nat) (fn : Nat) (d : Nat) (a : Nat) (b : Nat), engDecode w = some (.alu fn d a b) ∧ fn = 15)
    ∧ (∃ (w : Nat) (d : Nat) (a : Nat) (kind : Nat) (m : Nat), engDecode w = some (.shi d a kind m))
    ∧ (∃ (w : Nat) (d : Nat) (a : Nat) (pos : Nat) (len : Nat),
        (engDecode w = some (.ext d a pos len) ∨ engDecode w = some (.ins d a pos len)))
    ∧ (∃ (w : Nat) (d : Nat) (lane : Nat) (imm : Nat) (keep : Bool), engDecode w = some (.movw d lane keep imm))
    ∧ (∃ (w : Nat) (d : Nat) (sel : Nat), engDecode w = some (.get d sel))
    ∧ (∃ (n : Nat) (k : Nat) (d : Nat) (a : Nat) (imm : Nat) (s : State), Issues n k (.addi d a imm) s)
    ∧ (∃ (n : Nat) (k : Nat) (d : Nat) (a : Nat) (imm : Nat) (s : State), Issues n k (.andi d a imm) s)
    ∧ (∃ (n : Nat) (k : Nat) (d : Nat) (a : Nat) (imm : Nat) (s : State), Issues n k (.ori d a imm) s)
    ∧ (∃ (n : Nat) (k : Nat) (d : Nat) (a : Nat) (imm : Nat) (s : State), Issues n k (.xori d a imm) s)
    ∧ (∃ (n : Nat) (k : Nat) (d : Nat) (sel : Nat) (s : State), Issues n k (.get d sel) s) :=
  ⟨⟨95, 3, 9, 15, 14, 13, En (.alu 9 15 14 13) [(13, 1), (14, BitVec.allOnes 64)], BitVec.allOnes 64, 1, by decide +kernel⟩,
   ⟨95, 3, 15, 15, 3, 63, En (.shi 15 15 3 63) [(15, 5)], by decide +kernel⟩,
   ⟨95, 3, 15, 15, 0, 0, 64, En (.ext 15 15 0 0) [(15, 5)], by decide +kernel⟩,
   ⟨95, 3, 15, 14, 63, 1, 1, En (.ins 15 14 63 1) [(14, 5), (15, 6)], by decide +kernel⟩,
   ⟨95, 3, 15, 3, 65535, true, En (.movw 15 3 true 65535) [(15, 5)], by decide +kernel⟩,
   ⟨0x04D08100, 1, 3, 4, 2, by decide +kernel⟩,
   ⟨EngInstr.encode (.alu 15 1 3 0), 15, 1, 3, 0, by decide +kernel⟩,
   ⟨EngInstr.encode (.shi 15 14 3 63), 15, 14, 3, 63, by decide +kernel⟩,
   ⟨EngInstr.encode (.ins 15 14 63 1), 15, 14, 63, 1, by decide +kernel⟩,
   ⟨EngInstr.encode (.movw 15 3 true 65535), 15, 3, 65535, true, by decide +kernel⟩,
   ⟨EngInstr.encode (.get 15 6), 15, 6, by decide +kernel⟩,
   ⟨95, 3, 15, 15, 0x3FFFF, En (.addi 15 15 0x3FFFF) [(15, 0)], by decide +kernel⟩,
   ⟨95, 3, 15, 15, 0x3FFFF, En (.andi 15 15 0x3FFFF) [(15, BitVec.allOnes 64)], by decide +kernel⟩,
   ⟨95, 3, 15, 15, 0x3FFFF, En (.ori 15 15 0x3FFFF) [(15, 2 ^ 40)], by decide +kernel⟩,
   ⟨95, 3, 15, 15, 0x3FFFF, En (.xori 15 15 0x3FFFF) [(15, BitVec.allOnes 64)], by decide +kernel⟩,
   ⟨95, 3, 15, 0, En (.get 15 0) [], by decide +kernel⟩⟩

theorem witness_MemoryAndBranchInstructions :
    (∃ (c : Nat → Nat
        → Instr) (i : EngInstr) (n : Nat) (k : Nat) (d : Nat) (size : Nat) (sg : Bool) (s : State) (x : BitVec 64) (w : BitVec 64),
        ((∃ a off, c = Instr.ld ∧ i = .ld d a size sg off
        ∧ x = (s.ctx (4 * n + k)).reg a + (BitVec.ofNat 15 off).signExtend 64) ∨ (∃ a b, c = Instr.tld ∧ i = .tld d a b size sg
        ∧ x = (s.ctx (4 * n + k)).reg a + (s.ctx (4 * n + k)).reg b <<< size)) ∧ Issues n k i s ∧ x.toNat < 32768
        ∧ x.toNat % 2 ^ size = 0 ∧ (eword s true n (x.toNat / 8)).data = w ∧ flipCount (eword s true n (x.toNat / 8)).flips ≤ 1)
    ∧ (∃ (n : Nat) (k : Nat) (r : Nat) (a : Nat) (size : Nat) (off : Nat) (s : State) (x : BitVec 64),
        Issues n k (.st r a size off) s ∧ x = (s.ctx (4 * n + k)).reg a + (BitVec.ofNat 15 off).signExtend 64 ∧ x.toNat < 32768
        ∧ x.toNat % 2 ^ size = 0 ∧ (size = 3 ∨ flipCount (eword s true n (x.toNat / 8)).flips ≤ 1))
    ∧ (∃ (c : Nat → Nat → Instr) (i : EngInstr) (n : Nat) (k : Nat) (size : Nat) (s : State) (x : BitVec 64), ((∃ d a sg off,
        c = Instr.ld ∧ i = .ld d a size sg off
        ∧ x = (s.ctx (4 * n + k)).reg a + (BitVec.ofNat 15 off).signExtend 64) ∨ (∃ d a b sg, c = Instr.tld
        ∧ i = .tld d a b size sg ∧ x = (s.ctx (4 * n + k)).reg a + (s.ctx (4 * n + k)).reg b <<< size) ∨ (∃ r a off,
        c = Instr.st ∧ i = .st r a size off ∧ x = (s.ctx (4 * n + k)).reg a + (BitVec.ofNat 15 off).signExtend 64) ∨ (∃ a b,
        c = Instr.edgel ∧ i = .edgel a b ∧ size = 3 ∧ x = (s.ctx (4 * n + k)).reg b)) ∧ Issues n k i s
        ∧ (32768 ≤ x.toNat ∨ x.toNat % 2 ^ size ≠ 0))
    ∧ (∃ (n : Nat) (k : Nat) (d : Nat) (a : Nat) (size : Nat) (off : Nat) (sg : Bool) (s : State) (x : BitVec 64),
        Issues n k (.ld d a size sg off) s ∧ x = (s.ctx (4 * n + k)).reg a + (BitVec.ofNat 15 off).signExtend 64
        ∧ x.toNat < 32768 ∧ x.toNat % 2 ^ size = 0 ∧ flipCount (eword s true n (x.toNat / 8)).flips = 2)
    ∧ (∃ (c : Nat → Nat → Instr) (n : Nat) (k : Nat) (s : State), c ∈ [Instr.alu, .addi, .andi, .ori, .xori, .shi, .movw,
        .ext, .ins, .get, .ld, .st, .tld, .beq, .bne, .blt, .bge, .bltu, .bgeu, .bz, .bnz, .j, .jal, .jr, .wait, .waite,
        .evclr, .dln, .fence, .halt, .pop, .popr, .push, .pushr, .ldn, .stn, .ldn4, .stn4, .aadd, .aswp, .edge, .edgel,
        .edger, .illegalInstruction] ∧ mayIssue s n k = true
        ∧ flipCount (eword s false n ((s.ctx (4 * n + k)).pc.toNat / 2)).flips = 2)
    ∧ (∃ (c : Nat → Nat
        → Instr) (n : Nat) (k : Nat) (cond : Nat) (a : Nat) (b : Nat) (target : Nat) (s : State) (x : BitVec 64) (y : BitVec 64),
        (c, cond) ∈ [(Instr.beq, 0), (Instr.bne, 1), (Instr.blt, 2), (Instr.bge, 3), (Instr.bltu, 4), (Instr.bgeu, 5),
        (Instr.bz, 6), (Instr.bnz, 7)] ∧ Issues n k (.branch cond a b target) s ∧ x = (s.ctx (4 * n + k)).reg a
        ∧ y = (s.ctx (4 * n + k)).reg b)
    ∧ (∃ (n : Nat) (k : Nat) (target : Nat) (s : State), Issues n k (.j target) s)
    ∧ (∃ (n : Nat) (k : Nat) (d : Nat) (target : Nat) (s : State), Issues n k (.jal d target) s)
    ∧ (∃ (n : Nat) (k : Nat) (a : Nat) (s : State), Issues n k (.jr a) s) :=
  ⟨⟨Instr.tld, .tld 15 14 13 3 true, 95, 3, 15, 3, true, Ex (.tld 15 14 13 3 true) [(13, 4), (14, 32728)] id {} [(393215,
      ⟨BitVec.allOnes 64 <<< 63, 1⟩)], 32760, BitVec.allOnes 64 <<< 63, Or.inr ⟨14, 13, rfl, rfl, by decide +kernel⟩,
      by decide +kernel⟩,
   ⟨95, 3, 15, 14, 0, 0, Ex (.st 15 14 0 0) [(14, 32767), (15, 0x1FF)], 32767, by decide +kernel⟩,
   ⟨Instr.edgel, .edgel 15 14, 95, 3, 3, Ex (.edgel 15 14) [(14, 32764)], 32764, Or.inr (Or.inr (Or.inr ⟨15, 14, rfl, rfl,
       rfl, by decide +kernel⟩)), by decide +kernel⟩,
   ⟨95, 3, 15, 14, 3, 0, false, Ex (.ld 15 14 3 false 0) [(14, 32760)] id {} [(393215, ⟨5, 3⟩)], 32760, by decide +kernel⟩,
   ⟨Instr.fence, 95, 3, En (.alu 0 0 0 0) [] |> fun s => { s with eng := { s.eng with imem := [(393215, ⟨5, 3⟩)] } }, by simp,
       by decide +kernel⟩,
   ⟨Instr.bge, 95, 3, 3, 14, 13, 8191, En (.branch 3 14 13 8191) [(13, BitVec.allOnes 64), (14, BitVec.allOnes 64)],
       BitVec.allOnes 64, BitVec.allOnes 64, by simp, by decide +kernel⟩,
   ⟨95, 3, 8191, En (.j 8191) [], by decide +kernel⟩,
   ⟨95, 3, 15, 8191, En (.jal 15 8191) [], by decide +kernel⟩,
   ⟨95, 3, 15, En (.jr 15) [(15, BitVec.allOnes 64)], by decide +kernel⟩⟩

theorem witness_WaitInstructions :
    (∃ (n : Nat) (k : Nat) (a : Nat) (s : State), Issues n k (.wait a) s ∧ (s.cluster (n / 8)).state = .on
        ∧ (s.ctx (4 * n + k)).stopAtWait = false ∧ (s.ctx (4 * n + k)).stopNow = false
        ∧ ((s.ctx (4 * n + k)).needTime = false ∨ (s.engine n).timeInvalid = false))
    ∧ (∃ (c : Nat → Nat → Instr) (i : EngInstr) (n : Nat) (k : Nat) (s : State), ((∃ a, c = Instr.wait ∧ i = .wait a
        ∧ ((s.ctx (4 * n + k)).needTime = false ∨ (s.engine n).timeInvalid = false)) ∨ (∃ m, c = Instr.waite ∧ i = .waite m))
        ∧ Issues n k i s ∧ ((s.ctx (4 * n + k)).stopAtWait = true ∨ (s.ctx (4 * n + k)).stopNow = true))
    ∧ (∃ (c : Nat → Nat → Instr) (i : EngInstr) (n : Nat) (k : Nat) (s : State), ((∃ a, c = Instr.wait ∧ i = .wait a
        ∧ ((s.ctx (4 * n + k)).needTime = false ∨ (s.engine n).timeInvalid = false)) ∨ (∃ m, c = Instr.waite ∧ i = .waite m))
        ∧ Issues n k i s ∧ (s.ctx (4 * n + k)).stopAtWait = false ∧ (s.ctx (4 * n + k)).stopNow = false
        ∧ (s.cluster (n / 8)).state = .parking)
    ∧ (∃ (n : Nat) (k : Nat) (a : Nat) (s : State), Issues n k (.wait a) s ∧ (s.ctx (4 * n + k)).needTime = true
        ∧ (s.engine n).timeInvalid = true)
    ∧ (∃ (n : Nat) (k : Nat) (mask : Nat) (s : State), Issues n k (.waite mask) s ∧ (s.cluster (n / 8)).state = .on
        ∧ (s.ctx (4 * n + k)).stopAtWait = false ∧ (s.ctx (4 * n + k)).stopNow = false)
    ∧ (∃ (n : Nat) (k : Nat) (mask : Nat) (s : State), Issues n k (.evclr mask) s)
    ∧ (∃ (n : Nat) (k : Nat) (a : Nat) (s : State), Issues n k (.dln a) s)
    ∧ (∃ (n : Nat) (k : Nat) (s : State), Issues n k .fence s ∧ (s.ctx (4 * n + k)).posted = 0)
    ∧ (∃ (n : Nat) (k : Nat) (s : State), Issues n k .fence s ∧ (s.ctx (4 * n + k)).posted ≠ 0)
    ∧ (∃ (n : Nat) (k : Nat) (s : State), Issues n k .halt s) :=
  ⟨⟨95, 3, 15, En (.wait 15) [(15, 7)], by decide +kernel⟩,
   ⟨Instr.wait, .wait 15, 95, 3, Ex (.wait 15) [(15, 7)] fun c => { c with stopAtWait := true }, Or.inl ⟨15, rfl, rfl,
       by decide +kernel⟩, by decide +kernel⟩,
   ⟨Instr.waite, .waite 5, 95, 3,
       { Ex (.waite 5) [(15, 7)] with eng := { (Ex (.waite 5) [(15, 7)]).eng with clusters := [(11, { state := .parking })] } },
       Or.inr ⟨5, rfl, rfl⟩, by decide +kernel⟩,
   ⟨95, 3, 15, { En (.wait 15) [(15, 7)] (fun c => { c with needTime := true }) with eng := { (En (.wait 15) [(15, 7)] (fun c => { c with needTime := true })).eng with engines := [(95, { timeInvalid := true })] } },
       by decide +kernel⟩,
   ⟨95, 3, 0xFFFF, En (.waite 0xFFFF) [], by decide +kernel⟩,
   ⟨95, 3, 0xFFFF, En (.evclr 0xFFFF) [], by decide +kernel⟩,
   ⟨95, 3, 15, En (.dln 15) [(15, 7)], by decide +kernel⟩,
   ⟨95, 3, En .fence [], by decide +kernel⟩,
   ⟨95, 3, En .fence [] fun c => { c with posted := 8 }, by decide +kernel⟩,
   ⟨95, 3, En .halt [], by decide +kernel⟩⟩

theorem witness_RequestAndEdgeInstructions :
    (∃ (c : Nat → Nat → Instr) (i : EngInstr) (r : EngReq) (n : Nat) (k : Nat) (s : State), (∀ v, v = (s.ctx (4 * n + k)).reg
        → ∀ g4 : Nat → List (BitVec 64), g4 = (fun g => [v (4 * g), v (4 * g + 1), v (4 * g + 2), v (4 * g + 3)]) → (∃ g st q,
        c = Instr.pop ∧ i = .pop g st q ∧ r = ⟨k, false, .pop g st, BitVec.ofNat 64 q, []⟩) ∨ (∃ g st a, c = Instr.popr
        ∧ i = .popr g st a ∧ r = ⟨k, false, .pop g st, (v a).setWidth 16 |>.setWidth 64, []⟩) ∨ (∃ g st p q, c = Instr.push
        ∧ i = .push g st p q ∧ r = ⟨k, p, .push st, BitVec.ofNat 64 q, g4 g⟩) ∨ (∃ g st p a, c = Instr.pushr
        ∧ i = .pushr g st p a ∧ r = ⟨k, p, .push st, (v a).setWidth 16 |>.setWidth 64, g4 g⟩) ∨ (∃ d a o, c = Instr.ldn
        ∧ i = .ldn d a o ∧ r = ⟨k, false, .load d, v a + (BitVec.ofNat 17 o).signExtend 64, []⟩) ∨ (∃ x a p o, c = Instr.stn
        ∧ i = .stn x a p o ∧ r = ⟨k, p, .store, v a + (BitVec.ofNat 17 o).signExtend 64, [v x]⟩) ∨ (∃ g a o, c = Instr.ldn4
        ∧ i = .ldn4 g a o ∧ r = ⟨k, false, .load4 g, v a + (BitVec.ofNat 17 o).signExtend 64, []⟩) ∨ (∃ g a p o, c = Instr.stn4
        ∧ i = .stn4 g a p o ∧ r = ⟨k, p, .store, v a + (BitVec.ofNat 17 o).signExtend 64, g4 g⟩) ∨ (∃ d a b, c = Instr.aadd
        ∧ i = .aadd d a b ∧ r = ⟨k, false, .atomic true d, v a, [v b]⟩) ∨ (∃ d a b, c = Instr.aswp ∧ i = .aswp d a b ∧ r = ⟨k,
        false, .atomic false d, v a, [v b]⟩)) ∧ Issues n k i s ∧ outstanding (s.engine n) < 32
        ∧ (r.posted = false ∨ (s.ctx (4 * n + k)).posted < 8) ∧ (∃ tag, tag < 32 ∧ tget none (s.engine n).reqs tag = none))
    ∧ (∃ (c : Nat → Nat → Instr) (i : EngInstr) (r : EngReq) (n : Nat) (k : Nat) (s : State), (∀ v, v = (s.ctx (4 * n + k)).reg
        → ∀ g4 : Nat → List (BitVec 64), g4 = (fun g => [v (4 * g), v (4 * g + 1), v (4 * g + 2), v (4 * g + 3)]) → (∃ g st q,
        c = Instr.pop ∧ i = .pop g st q ∧ r = ⟨k, false, .pop g st, BitVec.ofNat 64 q, []⟩) ∨ (∃ g st a, c = Instr.popr
        ∧ i = .popr g st a ∧ r = ⟨k, false, .pop g st, (v a).setWidth 16 |>.setWidth 64, []⟩) ∨ (∃ g st p q, c = Instr.push
        ∧ i = .push g st p q ∧ r = ⟨k, p, .push st, BitVec.ofNat 64 q, g4 g⟩) ∨ (∃ g st p a, c = Instr.pushr
        ∧ i = .pushr g st p a ∧ r = ⟨k, p, .push st, (v a).setWidth 16 |>.setWidth 64, g4 g⟩) ∨ (∃ d a o, c = Instr.ldn
        ∧ i = .ldn d a o ∧ r = ⟨k, false, .load d, v a + (BitVec.ofNat 17 o).signExtend 64, []⟩) ∨ (∃ x a p o, c = Instr.stn
        ∧ i = .stn x a p o ∧ r = ⟨k, p, .store, v a + (BitVec.ofNat 17 o).signExtend 64, [v x]⟩) ∨ (∃ g a o, c = Instr.ldn4
        ∧ i = .ldn4 g a o ∧ r = ⟨k, false, .load4 g, v a + (BitVec.ofNat 17 o).signExtend 64, []⟩) ∨ (∃ g a p o, c = Instr.stn4
        ∧ i = .stn4 g a p o ∧ r = ⟨k, p, .store, v a + (BitVec.ofNat 17 o).signExtend 64, g4 g⟩) ∨ (∃ d a b, c = Instr.aadd
        ∧ i = .aadd d a b ∧ r = ⟨k, false, .atomic true d, v a, [v b]⟩) ∨ (∃ d a b, c = Instr.aswp ∧ i = .aswp d a b ∧ r = ⟨k,
        false, .atomic false d, v a, [v b]⟩)) ∧ Issues n k i s ∧ 32 ≤ outstanding (s.engine n)
        ∧ (r.posted = false ∨ (s.ctx (4 * n + k)).posted < 8))
    ∧ (∃ (c : Nat → Nat → Instr) (i : EngInstr) (r : EngReq) (n : Nat) (k : Nat) (s : State), (∀ v, v = (s.ctx (4 * n + k)).reg
        → ∀ g4 : Nat → List (BitVec 64), g4 = (fun g => [v (4 * g), v (4 * g + 1), v (4 * g + 2), v (4 * g + 3)]) → (∃ g st q,
        c = Instr.pop ∧ i = .pop g st q ∧ r = ⟨k, false, .pop g st, BitVec.ofNat 64 q, []⟩) ∨ (∃ g st a, c = Instr.popr
        ∧ i = .popr g st a ∧ r = ⟨k, false, .pop g st, (v a).setWidth 16 |>.setWidth 64, []⟩) ∨ (∃ g st p q, c = Instr.push
        ∧ i = .push g st p q ∧ r = ⟨k, p, .push st, BitVec.ofNat 64 q, g4 g⟩) ∨ (∃ g st p a, c = Instr.pushr
        ∧ i = .pushr g st p a ∧ r = ⟨k, p, .push st, (v a).setWidth 16 |>.setWidth 64, g4 g⟩) ∨ (∃ d a o, c = Instr.ldn
        ∧ i = .ldn d a o ∧ r = ⟨k, false, .load d, v a + (BitVec.ofNat 17 o).signExtend 64, []⟩) ∨ (∃ x a p o, c = Instr.stn
        ∧ i = .stn x a p o ∧ r = ⟨k, p, .store, v a + (BitVec.ofNat 17 o).signExtend 64, [v x]⟩) ∨ (∃ g a o, c = Instr.ldn4
        ∧ i = .ldn4 g a o ∧ r = ⟨k, false, .load4 g, v a + (BitVec.ofNat 17 o).signExtend 64, []⟩) ∨ (∃ g a p o, c = Instr.stn4
        ∧ i = .stn4 g a p o ∧ r = ⟨k, p, .store, v a + (BitVec.ofNat 17 o).signExtend 64, g4 g⟩) ∨ (∃ d a b, c = Instr.aadd
        ∧ i = .aadd d a b ∧ r = ⟨k, false, .atomic true d, v a, [v b]⟩) ∨ (∃ d a b, c = Instr.aswp ∧ i = .aswp d a b ∧ r = ⟨k,
        false, .atomic false d, v a, [v b]⟩)) ∧ Issues n k i s ∧ r.posted = true ∧ 8 ≤ (s.ctx (4 * n + k)).posted)
    ∧ (∃ (t : Nat) (sub : Nat), t < 2 ^ 64 ∧ sub < 16)
    ∧ (∃ (p : Nat) (s : State), (∀ e ∈ (s.pin p).returning, s.now < e))
    ∧ (∃ (p : Nat) (s : State), (∀ e ∈ (s.pin p).returning, e ≤ s.now))
    ∧ (∃ (c : Nat → Nat
        → Instr) (i : EngInstr) (n : Nat) (k : Nat) (p : Nat) (act : Nat) (tm : Nat) (sub : Nat) (time : Nat) (adv : Nat) (s : State) (u : State),
        (∀ v, v = (s.ctx (4 * n + k)).reg → (∃ x, c = Instr.edge ∧ i = .edge x act sub p ∧ tm = (v x).toNat
        ∧ adv = 0) ∨ (∃ x a, c = Instr.edger ∧ i = .edger x a ∧ p = (v a).toNat / 2 ^ 54 ∧ act = (v a).toNat / 2 ^ 52 % 4
        ∧ sub = (v a).toNat / 2 ^ 48 % 16 ∧ tm = ((v x).toNat + (v a).toNat % 2 ^ 32) % 2 ^ 64 ∧ adv = 0) ∨ (∃ x a w,
        c = Instr.edgel ∧ i = .edgel x a ∧ (v a).toNat < 32768 ∧ (v a).toNat % 8 = 0
        ∧ (eword s true n ((v a).toNat / 8)).data = w ∧ flipCount (eword s true n ((v a).toNat / 8)).flips ≤ 1
        ∧ p = w.toNat / 2 ^ 54 ∧ act = w.toNat / 2 ^ 52 % 4 ∧ sub = w.toNat / 2 ^ 48 % 16
        ∧ tm = ((v x).toNat + w.toNat % 2 ^ 32) % 2 ^ 64 ∧ adv = 8)) ∧ Issues n k i s ∧ u = creditsDue p s
        ∧ judgeEdge u n p tm sub = .accept time false)
    ∧ (∃ (c : Nat → Nat
        → Instr) (i : EngInstr) (n : Nat) (k : Nat) (p : Nat) (act : Nat) (tm : Nat) (sub : Nat) (adv : Nat) (s : State) (u : State),
        (∀ v, v = (s.ctx (4 * n + k)).reg → (∃ x, c = Instr.edge ∧ i = .edge x act sub p ∧ tm = (v x).toNat
        ∧ adv = 0) ∨ (∃ x a, c = Instr.edger ∧ i = .edger x a ∧ p = (v a).toNat / 2 ^ 54 ∧ act = (v a).toNat / 2 ^ 52 % 4
        ∧ sub = (v a).toNat / 2 ^ 48 % 16 ∧ tm = ((v x).toNat + (v a).toNat % 2 ^ 32) % 2 ^ 64 ∧ adv = 0) ∨ (∃ x a w,
        c = Instr.edgel ∧ i = .edgel x a ∧ (v a).toNat < 32768 ∧ (v a).toNat % 8 = 0
        ∧ (eword s true n ((v a).toNat / 8)).data = w ∧ flipCount (eword s true n ((v a).toNat / 8)).flips ≤ 1
        ∧ p = w.toNat / 2 ^ 54 ∧ act = w.toNat / 2 ^ 52 % 4 ∧ sub = w.toNat / 2 ^ 48 % 16
        ∧ tm = ((v x).toNat + w.toNat % 2 ^ 32) % 2 ^ 64 ∧ adv = 8)) ∧ Issues n k i s ∧ u = creditsDue p s
        ∧ judgeEdge u n p tm sub = .stall)
    ∧ (∃ (c : Nat → Nat
        → Instr) (i : EngInstr) (n : Nat) (k : Nat) (p : Nat) (act : Nat) (tm : Nat) (sub : Nat) (adv : Nat) (s : State) (u : State),
        (∀ v, v = (s.ctx (4 * n + k)).reg → (∃ x, c = Instr.edge ∧ i = .edge x act sub p ∧ tm = (v x).toNat
        ∧ adv = 0) ∨ (∃ x a, c = Instr.edger ∧ i = .edger x a ∧ p = (v a).toNat / 2 ^ 54 ∧ act = (v a).toNat / 2 ^ 52 % 4
        ∧ sub = (v a).toNat / 2 ^ 48 % 16 ∧ tm = ((v x).toNat + (v a).toNat % 2 ^ 32) % 2 ^ 64 ∧ adv = 0) ∨ (∃ x a w,
        c = Instr.edgel ∧ i = .edgel x a ∧ (v a).toNat < 32768 ∧ (v a).toNat % 8 = 0
        ∧ (eword s true n ((v a).toNat / 8)).data = w ∧ flipCount (eword s true n ((v a).toNat / 8)).flips ≤ 1
        ∧ p = w.toNat / 2 ^ 54 ∧ act = w.toNat / 2 ^ 52 % 4 ∧ sub = w.toNat / 2 ^ 48 % 16
        ∧ tm = ((v x).toNat + w.toNat % 2 ^ 32) % 2 ^ 64 ∧ adv = 8)) ∧ Issues n k i s ∧ u = creditsDue p s
        ∧ judgeEdge u n p tm sub = .drop)
    ∧ (∃ (c : Nat → Nat
        → Instr) (i : EngInstr) (n : Nat) (k : Nat) (p : Nat) (act : Nat) (tm : Nat) (sub : Nat) (time : Nat) (adv : Nat) (s : State) (u : State),
        (∀ v, v = (s.ctx (4 * n + k)).reg → (∃ x, c = Instr.edge ∧ i = .edge x act sub p ∧ tm = (v x).toNat
        ∧ adv = 0) ∨ (∃ x a, c = Instr.edger ∧ i = .edger x a ∧ p = (v a).toNat / 2 ^ 54 ∧ act = (v a).toNat / 2 ^ 52 % 4
        ∧ sub = (v a).toNat / 2 ^ 48 % 16 ∧ tm = ((v x).toNat + (v a).toNat % 2 ^ 32) % 2 ^ 64 ∧ adv = 0) ∨ (∃ x a w,
        c = Instr.edgel ∧ i = .edgel x a ∧ (v a).toNat < 32768 ∧ (v a).toNat % 8 = 0
        ∧ (eword s true n ((v a).toNat / 8)).data = w ∧ flipCount (eword s true n ((v a).toNat / 8)).flips ≤ 1
        ∧ p = w.toNat / 2 ^ 54 ∧ act = w.toNat / 2 ^ 52 % 4 ∧ sub = w.toNat / 2 ^ 48 % 16
        ∧ tm = ((v x).toNat + w.toNat % 2 ^ 32) % 2 ^ 64 ∧ adv = 8)) ∧ Issues n k i s ∧ u = creditsDue p s
        ∧ judgeEdge u n p tm sub = .accept time true)
    ∧ (∃ (c : Nat → Nat
        → Instr) (i : EngInstr) (n : Nat) (k : Nat) (p : Nat) (act : Nat) (tm : Nat) (sub : Nat) (adv : Nat) (s : State) (u : State) (code : _),
        (∀ v, v = (s.ctx (4 * n + k)).reg → (∃ x, c = Instr.edge ∧ i = .edge x act sub p ∧ tm = (v x).toNat
        ∧ adv = 0) ∨ (∃ x a, c = Instr.edger ∧ i = .edger x a ∧ p = (v a).toNat / 2 ^ 54 ∧ act = (v a).toNat / 2 ^ 52 % 4
        ∧ sub = (v a).toNat / 2 ^ 48 % 16 ∧ tm = ((v x).toNat + (v a).toNat % 2 ^ 32) % 2 ^ 64 ∧ adv = 0) ∨ (∃ x a w,
        c = Instr.edgel ∧ i = .edgel x a ∧ (v a).toNat < 32768 ∧ (v a).toNat % 8 = 0
        ∧ (eword s true n ((v a).toNat / 8)).data = w ∧ flipCount (eword s true n ((v a).toNat / 8)).flips ≤ 1
        ∧ p = w.toNat / 2 ^ 54 ∧ act = w.toNat / 2 ^ 52 % 4 ∧ sub = w.toNat / 2 ^ 48 % 16
        ∧ tm = ((v x).toNat + w.toNat % 2 ^ 32) % 2 ^ 64 ∧ adv = 8)) ∧ Issues n k i s ∧ u = creditsDue p s
        ∧ judgeEdge u n p tm sub = .fault code)
    ∧ (∃ (n : Nat) (k : Nat) (x : Nat) (a : Nat) (time : Nat) (w : BitVec 64) (s : State), Issues n k (.edgel x a) s
        ∧ ((s.ctx (4 * n + k)).reg a).toNat < 32768 ∧ ((s.ctx (4 * n + k)).reg a).toNat % 8 = 0
        ∧ (eword s true n (((s.ctx (4 * n + k)).reg a).toNat / 8)).data = w
        ∧ flipCount (eword s true n (((s.ctx (4 * n + k)).reg a).toNat / 8)).flips ≤ 1
        ∧ judgeEdge (creditsDue (w.toNat / 2 ^ 54) s) n (w.toNat / 2 ^ 54) ((((s.ctx (4 * n + k)).reg x).toNat + w.toNat % 2 ^ 32) % 2 ^ 64) (w.toNat / 2 ^ 48 % 16) = .accept time false)
    ∧ (∃ (n : Nat) (k : Nat) (w : Nat) (s : State), mayIssue s n k = true ∧ fetchWord s n (s.ctx (4 * n + k)).pc = some w
        ∧ engDecode w = none) :=
  ⟨⟨Instr.stn, .stn 15 14 true 0x1FFFF, ⟨3, true, .store, 7, [5]⟩, 95, 3, En (.stn 15 14 true 0x1FFFF) [(14, 8), (15,
      5)] fun c => { c with posted := 7 }, by
    intro v hv g4 hg; subst hv; subst hg
    exact Or.inr (Or.inr (Or.inr (Or.inr (Or.inr (Or.inl ⟨15, 14, true, 0x1FFFF, rfl, rfl, by decide⟩))))), by decide +kernel⟩,
   ⟨Instr.pop, .pop 3 9 65535, ⟨3, false, .pop 3 9, 65535, []⟩, 95, 3,
       En (.pop 3 9 65535) [] |> fun s => { s with eng := { s.eng with engines := [(95, { reqs := (List.range 32).map fun t => (t, some ⟨0, false, .load 1, 5, []⟩) })] } },
       by
    intro v hv g4 hg; subst hv; subst hg
    exact Or.inl ⟨3, 9, 65535, rfl, rfl, by decide⟩, by decide +kernel⟩,
   ⟨Instr.push, .push 3 0 true 65535, ⟨3, true, .push 0, 65535, [0, 0, 0, 0]⟩, 95, 3,
       En (.push 3 0 true 65535) [] fun c => { c with posted := 8 }, by
    intro v hv g4 hg; subst hv; subst hg
    exact Or.inr (Or.inr (Or.inl ⟨3, 0, true, 65535, rfl, rfl, by decide⟩)), by decide +kernel⟩,
   ⟨7, 15, by decide +kernel⟩,
   ⟨959, Ed { returning := [100001] } 200000, by decide +kernel⟩,
   ⟨959, Ed { returning := [100000, 5] } 200000, by decide +kernel⟩,
   ⟨Instr.edge, .edge 15 1 15 959, 95, 3, 959, 1, 200000, 15, 3200015, 0, Ed {} 200000, (let s : State := Ed {} 200000; s), by
    intro v hv; subst hv; exact Or.inl ⟨15, rfl, rfl, by decide, rfl⟩, by decide +kernel⟩,
   ⟨Instr.edge, .edge 15 1 15 959, 95, 3, 959, 1, 200000, 15, 0, Ed { credits := 0 } 200000,
       (let s : State := Ed { credits := 0 } 200000; s), by
    intro v hv; subst hv; exact Or.inl ⟨15, rfl, rfl, by decide, rfl⟩, by decide +kernel⟩,
   ⟨Instr.edge, .edge 15 1 15 959, 95, 3, 959, 1, 100031, 15, 0, Ed {} 100031, (let s : State := Ed {} 100031; s), by
    intro v hv; subst hv; exact Or.inl ⟨15, rfl, rfl, by decide, rfl⟩, by decide +kernel⟩,
   ⟨Instr.edge, .edge 15 1 15 959, 95, 3, 959, 1, 100031, 15, 16 * 100032, 0, Ed { lateAtOnce := true } 100031,
       (let s : State := Ed { lateAtOnce := true } 100031; s), by
    intro v hv; subst hv; exact Or.inl ⟨15, rfl, rfl, by decide, rfl⟩, by decide +kernel⟩,
   ⟨Instr.edge, .edge 15 1 15 959, 95, 3, 959, 1, 100000 + 2 ^ 30, 15, 0, Ed {} (100000 + 2 ^ 30),
       (let s : State := Ed {} (100000 + 2 ^ 30); s), 8, by
    intro v hv; subst hv; exact Or.inl ⟨15, rfl, rfl, by decide, rfl⟩, by decide +kernel⟩,
   ⟨48, 3, 15, 14, 16 * 200000, BitVec.ofNat 64 (384 * 2 ^ 54 + 2 ^ 52 + 100000),
       { En .halt [] with boot := { BR.boot with stepsDone := 15 }, eng := { BR.eng with clusters := [(6, { state := .on })], ctxs := [(195, { state := .ready, regs := [(14, 8), (15, 100000)] })], imem := [(4096 * 48, { data := BitVec.ofNat 64 (EngInstr.edgel 15 14).encode })], dmem := [(4096 * 48 + 1, ⟨BitVec.ofNat 64 (384 * 2 ^ 54 + 2 ^ 52 + 100000), 0⟩)], pins := [(384, { sched := true, owner := 48 })] } },
       by decide +kernel⟩,
   ⟨95, 3, 0, En (.alu 0 0 0 0) [] |> fun s => { s with eng := { s.eng with imem := [] } }, by decide +kernel⟩⟩

theorem witness_ContextAndEdgeEvents :
    (∃ (n : Nat) (k : Nat) (s : State), k < 4 ∧ ctxLives s n = true ∧ (s.ctx (4 * n + k)).state = .waitTick
        ∧ (s.ctx (4 * n + k)).target.toNat ≤ s.now)
    ∧ (∃ (e : Nat → Nat → Instr) (s : State), (e = Instr.waitTickExpiry ∨ e = Instr.deadlineMiss) ∧ s.dev.mode = .hold)
    ∧ (∃ (n : Nat) (k : Nat) (s : State), k < 4 ∧ ctxLives s n = true
        ∧ ((s.ctx (4 * n + k)).state = .ready ∨ (s.ctx (4 * n + k)).state = .running ∨ (s.ctx (4 * n + k)).state = .waitNoc ∨ (s.ctx (4 * n + k)).state = .waitPin)
        ∧ (s.ctx (4 * n + k)).deadline.toNat < s.now ∧ (s.ctx (4 * n + k)).deadline ≠ BitVec.allOnes 64
        ∧ (s.ctx (4 * n + k)).missed = false ∧ (s.ctx (4 * n + k)).missFault = false ∧ (s.route (16 + n)).lineEn = false)
    ∧ (∃ (n : Nat) (k : Nat) (s : State), k < 4 ∧ ctxLives s n = true
        ∧ ((s.ctx (4 * n + k)).state = .ready ∨ (s.ctx (4 * n + k)).state = .running ∨ (s.ctx (4 * n + k)).state = .waitNoc ∨ (s.ctx (4 * n + k)).state = .waitPin)
        ∧ (s.ctx (4 * n + k)).deadline.toNat < s.now ∧ (s.ctx (4 * n + k)).deadline ≠ BitVec.allOnes 64
        ∧ (s.ctx (4 * n + k)).missed = false ∧ (s.ctx (4 * n + k)).missFault = true)
    ∧ (∃ (n : Nat) (k : Nat) (tag : Nat) (kind : EngReqKind) (x : BitVec 64) (dt : List (BitVec 64)) (s : State), n < 96
        ∧ k < 4 ∧ tget none (s.engine n).reqs tag = some ⟨k, false, kind, x, dt⟩ ∧ s.dev.mode ≠ .hold
        ∧ (s.ctx (4 * n + k)).state = .waitNoc ∧ (s.ctx (4 * n + k)).wait = .answer ∧ (s.ctx (4 * n + k)).waitTag = tag
        ∧ (s.ctx (4 * n + k)).stopNow = false)
    ∧ (∃ (n : Nat) (k : Nat) (tag : Nat) (kind : EngReqKind) (x : BitVec 64) (dt : List (BitVec 64)) (s : State), n < 96
        ∧ k < 4 ∧ tget none (s.engine n).reqs tag = some ⟨k, false, kind, x, dt⟩ ∧ s.dev.mode ≠ .hold
        ∧ (s.ctx (4 * n + k)).state = .waitNoc ∧ (s.ctx (4 * n + k)).wait = .answer ∧ (s.ctx (4 * n + k)).waitTag = tag
        ∧ (s.ctx (4 * n + k)).stopNow = true)
    ∧ (∃ (n : Nat) (k : Nat) (tag : Nat) (code : Nat) (kind : EngReqKind) (x : BitVec 64) (dt : List (BitVec 64)) (s : State),
        n < 96 ∧ k < 4 ∧ tget none (s.engine n).reqs tag = some ⟨k, false, kind, x, dt⟩ ∧ s.dev.mode ≠ .hold
        ∧ (s.ctx (4 * n + k)).state = .waitNoc ∧ (s.ctx (4 * n + k)).wait = .answer ∧ (s.ctx (4 * n + k)).waitTag = tag
        ∧ code ≠ 0)
    ∧ (∃ (n : Nat) (k : Nat) (tag : Nat) (kind : EngReqKind) (x : BitVec 64) (dt : List (BitVec 64)) (s : State), n < 96
        ∧ k < 4 ∧ tget none (s.engine n).reqs tag = some ⟨k, false, kind, x, dt⟩
        ∧ (s.dev.mode = .hold ∨ ((s.ctx (4 * n + k)).state ≠ .waitNoc) ∨ ((s.ctx (4 * n + k)).wait = .answer
        ∧ (s.ctx (4 * n + k)).waitTag ≠ tag)))
    ∧ (∃ (n : Nat) (k : Nat) (tag : Nat) (code : Nat) (kind : EngReqKind) (x : BitVec 64) (dt : List (BitVec 64)) (s : State),
        n < 96 ∧ k < 4 ∧ tget none (s.engine n).reqs tag = some ⟨k, true, kind, x, dt⟩ ∧ (s.ctx (4 * n + k)).state ≠ .waitNoc
        ∧ (s.ctx (4 * n + k)).state ≠ .waitEvent ∧ code ≠ 0 ∧ (s.engine n).postedErr = false)
    ∧ (∃ (n : Nat) (k : Nat) (tag : Nat) (kind : EngReqKind) (x : BitVec 64) (dt : List (BitVec 64)) (s : State), n < 96
        ∧ k < 4 ∧ tget none (s.engine n).reqs tag = some ⟨k, true, kind, x, dt⟩ ∧ s.dev.mode ≠ .hold)
    ∧ (∃ (g : Nat) (data : List Byte) (w : Nat → BitVec 64),
        (w = (fun i => BitVec.ofNat 64 (ofLe ((data.drop (8 * i)).take 8)))) ∧ g < 4)
    ∧ (∃ (g : Nat) (data : List Byte) (w : Nat → BitVec 64),
        (w = (fun i => BitVec.ofNat 64 (ofLe ((data.drop (8 * i)).take 8)))) ∧ g < 4)
    ∧ (∃ (p : Nat) (at_ : Nat) (e : EdgeEv) (rest : List (Nat × EdgeEv)) (s : State), p < 960 ∧ (s.pin p).flying = (at_,
        e) :: rest ∧ at_ ≤ s.now)
    ∧ (∃ (l : List EdgeEv), (l.Pairwise (fun a b => a.time ≤ b.time)))
    ∧ (∃ (p : Nat) (e : EdgeEv) (rest : List EdgeEv) (s : State), p < 960 ∧ (s.pin p).stored = e :: rest
        ∧ e.time / 16 ≤ s.now + 12)
    ∧ (∃ (p : Nat) (e : EdgeEv) (rest : List EdgeEv) (s : State), p < 960 ∧ (s.pin p).released = e :: rest
        ∧ e.time / 16 ≤ s.now)
    ∧ (∃ (p : Nat) (s : State), (∀ e rest, (s.pin p).flying = e :: rest → s.now < e.1) ∧ p < 960)
    ∧ (∃ (p : Nat) (s : State), (∀ e rest, (s.pin p).stored = e :: rest → s.now + 12 < e.time / 16) ∧ p < 960)
    ∧ (∃ (p : Nat) (s : State), (∀ e rest, (s.pin p).released = e :: rest → s.now < e.time / 16) ∧ p < 960)
    ∧ (∃ (p : Nat) (s : State), (∀ e rest, (s.pin p).returning = e :: rest → s.now < e) ∧ p < 960)
    ∧ (∃ (p : Nat) (at_ : Nat) (rest : List Nat) (s : State), p < 960 ∧ (s.pin p).returning = at_ :: rest ∧ at_ ≤ s.now
        ∧ (s.pin p).owner < 96 ∧ s.dev.mode ≠ .hold)
    ∧ (∃ (p : Nat) (at_ : Nat) (rest : List Nat) (s : State), p < 960 ∧ (s.pin p).returning = at_ :: rest ∧ at_ ≤ s.now
        ∧ (96 ≤ (s.pin p).owner ∨ s.dev.mode = .hold)) :=
  ⟨⟨95, 3, En .halt [] fun c => { c with state := .waitTick, target := 100000 }, by decide +kernel⟩,
   ⟨Instr.deadlineMiss, { Ex .halt [] (fun c => { c with deadline := 99999 }) with dev := { BR.dev with mode := .hold } },
       by simp, by decide +kernel⟩,
   ⟨95, 3, Ex .halt [] fun c => { c with deadline := 99999 }, by decide +kernel⟩,
   ⟨95, 3, Ex .halt [] fun c => { c with deadline := 99999, missFault := true }, by decide +kernel⟩,
   ⟨95, 3, 31, .load4 3, 5, [], Wn ⟨3, false, .load4 3, 5, []⟩, by decide +kernel⟩,
   ⟨95, 3, 31, .load4 3, 5, [], Wn ⟨3, false, .load4 3, 5, []⟩ fun c => { c with stopNow := true }, by decide +kernel⟩,
   ⟨95, 3, 31, 7, .load4 3, 5, [], Wn ⟨3, false, .load4 3, 5, []⟩, by decide +kernel⟩,
   ⟨95, 3, 31, .load4 3, 5, [], Wn ⟨3, false, .load4 3, 5, []⟩ fun c => { c with waitTag := 30 }, by decide +kernel⟩,
   ⟨95, 3, 31, 7, .store, 5, [1], Wn ⟨3, true, .store, 5, [1]⟩ fun c => { c with state := .running, posted := 1 },
       by decide +kernel⟩,
   ⟨95, 3, 31, .store, 5, [1], Wn ⟨3, true, .store, 5, [1]⟩ fun c => { c with wait := .fence, posted := 1 }, by decide +kernel⟩,
   ⟨3, List.replicate 32 9, (fun i => BitVec.ofNat 64 (ofLe (((List.replicate 32 9 : List Byte).drop (8 * i)).take 8))), rfl,
       by decide +kernel⟩,
   ⟨3, List.replicate 32 9, (fun i => BitVec.ofNat 64 (ofLe (((List.replicate 32 9 : List Byte).drop (8 * i)).take 8))), rfl,
       by decide +kernel⟩,
   ⟨959, 100000, ⟨1700000, 1⟩, [],
       { B with eng := { B.eng with pins := [(959, { owner := 95, flying := [(100000, ⟨1700000, 1⟩)], credits := 3 })] } },
       by decide +kernel⟩,
   ⟨[⟨5, 0⟩, ⟨6, 1⟩], by decide +kernel⟩,
   ⟨959, ⟨16 * 100012, 1⟩, [],
       { B with eng := { B.eng with pins := [(959, { owner := 95, stored := [⟨16 * 100012, 1⟩], credits := 3 })] } },
       by decide +kernel⟩,
   ⟨959, ⟨16 * 100000, 1⟩, [],
       { B with eng := { B.eng with pins := [(959, { owner := 95, released := [⟨16 * 100000, 1⟩] })] } }, by decide +kernel⟩,
   ⟨959, { B with eng := { B.eng with pins := [(959, { owner := 95, flying := [(100001, ⟨1700000, 1⟩)], stored := [⟨16 * 100013, 1⟩], released := [⟨16 * 100001, 1⟩], returning := [100001] })] } },
       allHead (by decide +kernel), by decide +kernel⟩,
   ⟨959, { B with eng := { B.eng with pins := [(959, { owner := 95, flying := [(100001, ⟨1700000, 1⟩)], stored := [⟨16 * 100013, 1⟩], released := [⟨16 * 100001, 1⟩], returning := [100001] })] } },
       allHead (by decide +kernel), by decide +kernel⟩,
   ⟨959, { B with eng := { B.eng with pins := [(959, { owner := 95, flying := [(100001, ⟨1700000, 1⟩)], stored := [⟨16 * 100013, 1⟩], released := [⟨16 * 100001, 1⟩], returning := [100001] })] } },
       allHead (by decide +kernel), by decide +kernel⟩,
   ⟨959, { B with eng := { B.eng with pins := [(959, { owner := 95, flying := [(100001, ⟨1700000, 1⟩)], stored := [⟨16 * 100013, 1⟩], released := [⟨16 * 100001, 1⟩], returning := [100001] })] } },
       allHead (by decide +kernel), by decide +kernel⟩,
   ⟨959, 100000, [],
       { B with eng := { B.eng with clusters := [(11, { state := .on })], pins := [(959, { owner := 95, returning := [100000], credits := 3 })] } },
       by decide +kernel⟩,
   ⟨959, 100000, [5], { B with eng := { B.eng with pins := [(959, { returning := [100000, 5], credits := 3 })] } },
       by decide +kernel⟩⟩

theorem witness_ClustersAndMemories :
    (∃ (n : Nat) (w : Nat) (d : Bool) (s : State), n < 96 ∧ clusterRuns s (n / 8) = true ∧ s.dev.mode ≠ .hold
        ∧ w = (if d then (s.engine n).dmemWalk else (s.engine n).imemWalk) ∧ flipKind (eword s d n w).flips = 0)
    ∧ (∃ (n : Nat) (w : Nat) (d : Bool) (s : State), n < 96 ∧ clusterRuns s (n / 8) = true ∧ s.dev.mode ≠ .hold
        ∧ w = (if d then (s.engine n).dmemWalk else (s.engine n).imemWalk) ∧ flipKind (eword s d n w).flips = 1)
    ∧ (∃ (n : Nat) (w : Nat) (d : Bool) (s : State), n < 96 ∧ clusterRuns s (n / 8) = true ∧ s.dev.mode ≠ .hold
        ∧ w = (if d then (s.engine n).dmemWalk else (s.engine n).imemWalk) ∧ 2 ≤ flipKind (eword s d n w).flips)
    ∧ (∃ (n : Nat) (w : Nat) (s : State), n < 96 ∧ w < 4096 ∧ clusterRuns s (n / 8) = true ∧ s.dev.mode ≠ .hold)
    ∧ (∃ (n : Nat) (w : Nat) (rest : List Nat) (d : Bool) (s : State), n < 96 ∧ clusterRuns s (n / 8) = true
        ∧ s.dev.mode ≠ .hold ∧ (if d then (s.engine n).dmemWb else (s.engine n).imemWb) = w :: rest
        ∧ flipKind (eword s d n w).flips = 1)
    ∧ (∃ (n : Nat) (s : State), (clusterRuns s (n / 8) = false ∨ s.dev.mode = .hold))
    ∧ (∃ (n : Nat), n < 96)
    ∧ (∃ (c : Nat) (s : State), c < 12 ∧ (s.cluster c).state = .off)
    ∧ (∃ (c : Nat) (s : State), c < 12 ∧ ((s.cluster c).state = .parking ∨ (s.cluster c).state = .draining))
    ∧ (∃ (c : Nat) (s : State), c < 12 ∧ (s.cluster c).state = .wiping ∧ (s.cluster c).disablePending = true)
    ∧ (∃ (c : Nat) (s : State), c < 12 ∧ (s.cluster c).state = .wiping)
    ∧ (∃ (c : Nat) (s : State), c < 12 ∧ (s.cluster c).state = .waitGrant)
    ∧ (∃ (c : Nat) (s : State), c < 12 ∧ (s.cluster c).state = .on)
    ∧ (∃ (c : Nat) (s : State), c < 12 ∧ (s.cluster c).state = .off)
    ∧ (∃ (c : Nat) (s : State), c < 12 ∧ (s.cluster c).state = .wiping ∧ (s.cluster c).disablePending = false)
    ∧ (∃ (c : Nat) (s : State), c < 12 ∧ (s.cluster c).state = .wiping ∧ (s.cluster c).disablePending = true)
    ∧ (∃ (c : Nat) (s : State), c < 12 ∧ (s.cluster c).state = .parking ∧ (∀ i, i < 32
        → (s.ctx (32 * c + i)).state = .idle ∨ (s.ctx (32 * c + i)).state = .faulted ∨ (s.ctx (32 * c + i)).state = .parked))
    ∧ (∃ (c : Nat) (i : Nat) (s : State), c < 12 ∧ i < 32 ∧ (s.ctx (32 * c + i)).state ≠ .idle
        ∧ (s.ctx (32 * c + i)).state ≠ .faulted ∧ (s.ctx (32 * c + i)).state ≠ .parked)
    ∧ (∃ (e : Nat → Instr) (c : Nat) (s : State), ((e = Instr.clusterParkTimeout
        ∧ (s.cluster c).state = .parking) ∨ (e = Instr.clusterDrainTimeout ∧ (s.cluster c).state = .draining)) ∧ c < 12
        ∧ s.dev.mode ≠ .hold)
    ∧ (∃ (e : Nat → Instr) (s : State),
        (e = Instr.clusterParkTimeout ∨ e = Instr.clusterDrainTimeout ∨ e = Instr.clusterDrainIdle) ∧ s.dev.mode = .hold)
    ∧ (∃ (c : Nat) (s : State), c < 12 ∧ (s.cluster c).state = .draining ∧ s.dev.mode ≠ .hold ∧ (∀ i, i < 8
        → outstanding (s.engine (8 * c + i)) = 0)) :=
  ⟨⟨95, 4095, true, Cl { state := .on } fun e => { e with engines := [(95, { dmemWalk := 4095 })] }, by decide +kernel⟩,
   ⟨95, 4095, true,
       Cl { state := .on } fun e => { e with engines := [(95, { dmemWalk := 4095 })], dmem := [(393215, ⟨5, 1⟩)] },
       by decide +kernel⟩,
   ⟨95, 4095, false,
       Cl { state := .on } fun e => { e with engines := [(95, { imemWalk := 4095 })], imem := [(393215, ⟨5, 3⟩)] },
       by decide +kernel⟩,
   ⟨95, 4095, Cl { state := .on } fun e => { e with engines := [(95, { dmemWalk := 4095 })] }, by decide +kernel⟩,
   ⟨95, 4095, [7], true,
       Cl { state := .on } fun e => { e with engines := [(95, { dmemWb := [4095, 7] })], dmem := [(393215, ⟨5, 1⟩)] },
       by decide +kernel⟩,
   ⟨95, Cl {}, by decide +kernel⟩,
   ⟨95, by decide +kernel⟩,
   ⟨11, Cl {}, by decide +kernel⟩,
   ⟨11, Cl { state := .parking }, by decide +kernel⟩,
   ⟨11, Cl { state := .wiping, disablePending := true }, by decide +kernel⟩,
   ⟨11, Cl { state := .wiping }, by decide +kernel⟩,
   ⟨11, (Cl { state := .waitGrant }).modSupply 1 fun u => { u with queue := [⟨6, 11, 2, 176, 0⟩] }, by decide +kernel⟩,
   ⟨11, Cl { state := .on }, by decide +kernel⟩,
   ⟨11, Cl {}, by decide +kernel⟩,
   ⟨11, (Cl { state := .wiping }).modSupply 1 fun u => { u with held := [] }, by decide +kernel⟩,
   ⟨11, Cl { state := .wiping, disablePending := true }, by decide +kernel⟩,
   ⟨11, Cl { state := .parking } fun e => { e with ctxs := [(383, { state := .parked })] }, by decide +kernel⟩,
   ⟨11, 31, Cl { state := .parking } fun e => { e with ctxs := [(383, { state := .running })] }, by decide +kernel⟩,
   ⟨Instr.clusterDrainTimeout, 11,
       Cl { state := .draining, fence := true } fun e => { e with ctxs := [(383, { state := .parked })] }, Or.inr ⟨rfl,
       by decide +kernel⟩, by decide +kernel⟩,
   ⟨Instr.clusterDrainIdle, { Cl { state := .draining } with dev := { BR.dev with mode := .hold } }, by simp,
       by decide +kernel⟩,
   ⟨11, Cl { state := .draining, fence := true } fun e => { e with ctxs := [(383, { state := .parked })] }, by decide +kernel⟩⟩

theorem witness_EngineCommands :
    (∃ (q : CmdCtx) (n : Nat) (mem : Nat) (offset : Nat) (len : Nat) (src : Nat) (data : List Byte) (s : State),
        ReadsPlain (mbxClass q.mbx) 130 src len data s ∧ n < 96 ∧ mem ≤ 1 ∧ offset % 8 = 0 ∧ offset + len ≤ 32768
        ∧ src < 2 ^ 64 ∧ MayIssue q 0x0701 16 s ∧ clusterServes s (n / 8) = true ∧ allStopped s n = true ∧ data.length = len)
    ∧ (∃ (n : Nat) (offset : Nat) (w : Nat) (data : List Byte), n < 96 ∧ offset % 8 = 0 ∧ data.length % 8 = 0
        ∧ offset + data.length ≤ 32768 ∧ w < 4096)
    ∧ (∃ (d : Bool) (n : Nat) (offset : Nat) (w : Nat) (data : List Byte) (s : State), n < 96 ∧ offset % 8 = 0
        ∧ data.length < 8 ∧ data ≠ [] ∧ w = offset / 8 ∧ w < 4096 ∧ flipKind (eword s d n w).flips < 2)
    ∧ (∃ (d : Bool) (n : Nat) (offset : Nat) (w : Nat) (data : List Byte) (s : State), n < 96 ∧ offset % 8 = 0
        ∧ data.length < 8 ∧ data ≠ [] ∧ w = offset / 8 ∧ w < 4096 ∧ 2 ≤ flipKind (eword s d n w).flips)
    ∧ (∃ (q : CmdCtx) (n : Nat) (mem : Nat) (offset : Nat) (len : Nat) (src : Nat) (s : State), n < 256 ∧ mem < 256
        ∧ offset < 2 ^ 16 ∧ len < 2 ^ 32 ∧ src < 2 ^ 64 ∧ MayIssue q 0x0701 16 s
        ∧ (96 ≤ n ∨ 2 ≤ mem ∨ offset % 8 ≠ 0 ∨ 32768 < offset + len))
    ∧ (∃ (q : CmdCtx) (n : Nat) (mem : Nat) (offset : Nat) (len : Nat) (src : Nat) (s : State), n < 256 ∧ mem < 256
        ∧ offset < 2 ^ 16 ∧ len < 2 ^ 32 ∧ src < 2 ^ 64 ∧ MayIssue q 0x0701 16 s ∧ n < 96 ∧ mem < 2 ∧ offset % 8 = 0
        ∧ offset + len ≤ 32768 ∧ clusterServes s (n / 8) = false)
    ∧ (∃ (q : CmdCtx) (n : Nat) (mem : Nat) (offset : Nat) (len : Nat) (src : Nat) (s : State), n < 256 ∧ mem < 256
        ∧ offset < 2 ^ 16 ∧ len < 2 ^ 32 ∧ src < 2 ^ 64 ∧ MayIssue q 0x0701 16 s ∧ n < 96 ∧ mem < 2 ∧ offset % 8 = 0
        ∧ offset + len ≤ 32768 ∧ clusterServes s (n / 8) = true ∧ allStopped s n = false)
    ∧ (∃ (q : CmdCtx) (n : Nat) (k : Nat) (pc : Nat) (s : State), n < 96 ∧ k < 4 ∧ pc < 8192 ∧ MayIssue q 0x0702 24 s
        ∧ clusterServes s (n / 8) = true ∧ s.dev.mode ≠ .hold
        ∧ ((s.ctx (4 * n + k)).state = .idle ∨ (s.ctx (4 * n + k)).state = .faulted))
    ∧ (∃ (q : CmdCtx) (n : Nat) (k : Nat) (pc : Nat) (s : State), n < 256 ∧ k < 256 ∧ pc < 2 ^ 16 ∧ MayIssue q 0x0702 24 s
        ∧ (96 ≤ n ∨ 4 ≤ k ∨ 8192 ≤ pc))
    ∧ (∃ (q : CmdCtx) (n : Nat) (k : Nat) (pc : Nat) (s : State), n < 256 ∧ k < 256 ∧ pc < 2 ^ 16 ∧ MayIssue q 0x0702 24 s
        ∧ n < 96 ∧ k < 4 ∧ pc < 8192 ∧ clusterServes s (n / 8) = false)
    ∧ (∃ (q : CmdCtx) (n : Nat) (k : Nat) (pc : Nat) (s : State), n < 256 ∧ k < 256 ∧ pc < 2 ^ 16 ∧ MayIssue q 0x0702 24 s
        ∧ n < 96 ∧ k < 4 ∧ pc < 8192 ∧ clusterServes s (n / 8) = true
        ∧ (s.dev.mode = .hold ∨ ((s.ctx (4 * n + k)).state ≠ .idle ∧ (s.ctx (4 * n + k)).state ≠ .faulted)))
    ∧ (∃ (q : CmdCtx) (n : Nat) (k : Nat) (mode : Nat) (s : State), n < 96 ∧ k < 4 ∧ mode ≤ 1 ∧ MayIssue q 0x0703 3 s
        ∧ clusterServes s (n / 8) = true ∧ (∀ m, m < 18 → (s.mailbox m).tasks = [])
        ∧ ((s.ctx (4 * n + k)).state = .idle ∨ ((s.ctx (4 * n + k)).state = .faulted ∧ s.dev.mode ≠ .hold)))
    ∧ (∃ (q : CmdCtx) (n : Nat) (k : Nat) (mode : Nat) (c' : Ctx → Ctx) (s : State), ((mode = 0
        ∧ ((s.ctx (4 * n + k)).state = .ready ∨ (s.ctx (4 * n + k)).state = .running ∨ (s.ctx (4 * n + k)).state = .waitNoc ∨ (s.ctx (4 * n + k)).state = .waitPin)
        ∧ c' = fun c => { c with stopAtWait := true }) ∨ (mode = 1 ∧ (s.ctx (4 * n + k)).state = .waitNoc
        ∧ (s.ctx (4 * n + k)).wait = .answer ∧ c' = fun c => { c with stopNow := true })) ∧ n < 96 ∧ k < 4 ∧ mode ≤ 1
        ∧ MayIssue q 0x0703 3 s ∧ clusterServes s (n / 8) = true ∧ s.dev.mode ≠ .hold ∧ (∀ m, m < 18
        → (s.mailbox m).tasks = []))
    ∧ (∃ (q : CmdCtx) (n : Nat) (k : Nat) (mode : Nat) (s : State), n < 96 ∧ k < 4 ∧ MayIssue q 0x0703 3 s
        ∧ clusterServes s (n / 8) = true ∧ s.dev.mode ≠ .hold ∧ (∀ m, m < 18 → (s.mailbox m).tasks = [])
        ∧ s.sor.restarting = false ∧ ((mode ≤ 1
        ∧ ((s.ctx (4 * n + k)).state = .waitTick ∨ (s.ctx (4 * n + k)).state = .waitEvent ∨ (s.ctx (4 * n + k)).state = .parked)) ∨ (mode = 1
        ∧ ((s.ctx (4 * n + k)).state = .ready ∨ (s.ctx (4 * n + k)).state = .running ∨ (s.ctx (4 * n + k)).state = .waitPin ∨ ((s.ctx (4 * n + k)).state = .waitNoc
        ∧ (s.ctx (4 * n + k)).wait ≠ .answer)))))
    ∧ (∃ (q : CmdCtx) (n : Nat) (k : Nat) (mode : Nat) (s : State), n < 256 ∧ k < 256 ∧ mode < 256 ∧ MayIssue q 0x0703 3 s
        ∧ (∀ m, m < 18 → (s.mailbox m).tasks = []) ∧ (96 ≤ n ∨ 4 ≤ k ∨ 2 ≤ mode))
    ∧ (∃ (q : CmdCtx) (n : Nat) (k : Nat) (mode : Nat) (s : State), n < 256 ∧ k < 256 ∧ mode < 256 ∧ MayIssue q 0x0703 3 s
        ∧ (∀ m, m < 18 → (s.mailbox m).tasks = []) ∧ n < 96 ∧ k < 4 ∧ mode < 2 ∧ clusterServes s (n / 8) = false)
    ∧ (∃ (q : CmdCtx) (n : Nat) (k : Nat) (mode : Nat) (s : State), n < 256 ∧ k < 256 ∧ mode < 256 ∧ MayIssue q 0x0703 3 s
        ∧ (∀ m, m < 18 → (s.mailbox m).tasks = []) ∧ n < 96 ∧ k < 4 ∧ mode < 2 ∧ clusterServes s (n / 8) = true
        ∧ (s.ctx (4 * n + k)).state ≠ .idle ∧ s.dev.mode = .hold)
    ∧ (∃ (q : CmdCtx) (n : Nat) (k : Nat) (first : Nat) (s : State), n < 256 ∧ k < 256 ∧ first < 256 ∧ MayIssue q 0x0704 3 s
        ∧ (96 ≤ n ∨ 4 ≤ k ∨ 13 ≤ first))
    ∧ (∃ (q : CmdCtx) (n : Nat) (k : Nat) (first : Nat) (s : State), n < 256 ∧ k < 256 ∧ first < 256 ∧ MayIssue q 0x0704 3 s
        ∧ n < 96 ∧ k < 4 ∧ first < 13 ∧ (s.ctx (4 * n + k)).state ≠ .idle ∧ (s.ctx (4 * n + k)).state ≠ .parked
        ∧ (s.ctx (4 * n + k)).state ≠ .faulted)
    ∧ (∃ (q : CmdCtx) (c : Nat) (en : Nat) (s : State), c < 12 ∧ MayIssue q 0x0705 2 s ∧ ((en = 1
        ∧ (s.cluster c).state = .on) ∨ (en = 0 ∧ (s.cluster c).state = .off)))
    ∧ (∃ (q : CmdCtx) (c : Nat) (s : State), c < 12 ∧ MayIssue q 0x0705 2 s ∧ s.dev.mode ≠ .hold ∧ (s.cluster c).state = .off)
    ∧ (∃ (q : CmdCtx) (c : Nat) (s : State), c < 12 ∧ MayIssue q 0x0705 2 s ∧ s.dev.mode ≠ .hold ∧ (∀ m, m < 18
        → (s.mailbox m).tasks = []) ∧ (s.cluster c).state = .waitGrant)
    ∧ (∃ (q : CmdCtx) (c : Nat) (en : Nat) (s : State), c < 256 ∧ en < 256 ∧ MayIssue q 0x0705 2 s ∧ (12 ≤ c ∨ 2 ≤ en))
    ∧ (∃ (q : CmdCtx) (c : Nat) (en : Nat) (s : State), c < 256 ∧ en < 256 ∧ MayIssue q 0x0705 2 s ∧ c < 12
        ∧ s.dev.mode = .hold ∧ ((en = 0 ∧ (s.cluster c).state ≠ .off) ∨ (en = 1 ∧ (s.cluster c).state ≠ .on)))
    ∧ (∃ (q : CmdCtx) (p : Nat) (owner : Nat) (ovf : Nat) (late : Nat) (s : State), p < 960 ∧ ovf ≤ 1 ∧ late ≤ 1
        ∧ MayIssue q 0x0706 5 s ∧ (s.pin p).sched = true ∧ owner < 96 ∧ pinEast p = decide (48 ≤ owner)
        ∧ pinsOwned s owner < 32 ∧ clusterServes s (owner / 8) = true ∧ (96 ≤ (s.pin p).owner ∨ (s.pin p).credits = 4))
    ∧ (∃ (q : CmdCtx) (p : Nat) (ovf : Nat) (late : Nat) (s : State), p < 960 ∧ ovf ≤ 1 ∧ late ≤ 1 ∧ MayIssue q 0x0706 5 s
        ∧ (s.pin p).sched = true ∧ (s.pin p).owner < 96 ∧ (s.pin p).credits = 4 ∧ clusterServes s ((s.pin p).owner / 8) = true)
    ∧ (∃ (q : CmdCtx) (p : Nat) (owner : Nat) (ovf : Nat) (late : Nat) (s : State), p < 960 ∧ ovf ≤ 1 ∧ late ≤ 1
        ∧ MayIssue q 0x0706 5 s ∧ (s.pin p).sched = true ∧ owner < 96 ∧ pinEast p = decide (48 ≤ owner)
        ∧ pinsOwned s owner < 32 ∧ clusterServes s (owner / 8) = true ∧ (s.pin p).owner < 96 ∧ (s.pin p).credits ≠ 4)
    ∧ (∃ (q : CmdCtx) (p : Nat) (owner : Nat) (ovf : Nat) (late : Nat) (s : State), p < 2 ^ 16 ∧ owner < 256 ∧ ovf < 256
        ∧ late < 256 ∧ MayIssue q 0x0706 5 s ∧ (960 ≤ p ∨ 2 ≤ ovf ∨ 2 ≤ late ∨ (96 ≤ owner
        ∧ owner ≠ 255) ∨ (s.pin p).sched = false ∨ (owner < 96 ∧ pinEast p ≠ decide (48 ≤ owner)) ∨ (owner < 96
        ∧ 32 ≤ pinsOwned s owner)))
    ∧ (∃ (q : CmdCtx) (p : Nat) (owner : Nat) (ovf : Nat) (late : Nat) (s : State), p < 960 ∧ ovf ≤ 1 ∧ late ≤ 1
        ∧ MayIssue q 0x0706 5 s ∧ (s.pin p).sched = true ∧ owner < 96 ∧ pinEast p = decide (48 ≤ owner)
        ∧ pinsOwned s owner < 32 ∧ clusterServes s (owner / 8) = false)
    ∧ (∃ (q : CmdCtx) (n : Nat) (mem : Nat) (offset : Nat) (s : State), n < 256 ∧ mem < 256 ∧ offset < 2 ^ 16
        ∧ MayIssue q 0x0707 4 s ∧ (96 ≤ n ∨ 2 ≤ mem ∨ offset % 32 ≠ 0 ∨ 32736 < offset))
    ∧ (∃ (q : CmdCtx) (n : Nat) (mem : Nat) (offset : Nat) (s : State), n < 256 ∧ mem < 256 ∧ offset < 2 ^ 16
        ∧ MayIssue q 0x0707 4 s ∧ n < 96 ∧ mem < 2 ∧ offset % 32 = 0 ∧ offset ≤ 32736 ∧ clusterServes s (n / 8) = false)
    ∧ (∃ (q : CmdCtx) (c : Nat) (s : State), 12 ≤ c ∧ c < 256 ∧ MayIssue q 0x0708 1 s) :=
  ⟨⟨Q, 95, 1, 32760, 8, A0, List.replicate 8 0, { BD with eng := (Cl { state := .on }).eng }, by intro _ _ _; cbv,
      by decide +kernel⟩,
   ⟨95, 32760, 4095, [1, 2, 3, 4, 5, 6, 7, 8], by decide +kernel⟩,
   ⟨true, 95, 32760, 4095, [1, 2, 3, 4, 5, 6, 7],
       Cl { state := .on } fun e => { e with dmem := [(393215, { data := 9, flips := 1 })] }, by decide +kernel⟩,
   ⟨true, 95, 32760, 4095, [1], Cl { state := .on } fun e => { e with dmem := [(393215, { data := 9, flips := 3 })] },
       by decide +kernel⟩,
   ⟨Q, 95, 1, 32760, 9, A0, BR, by decide +kernel⟩,
   ⟨Q, 95, 1, 32760, 8, A0, B, by decide +kernel⟩,
   ⟨Q, 95, 1, 32760, 8, A0, Cl { state := .on } fun e => { e with ctxs := [(383, { state := .ready })] }, by decide +kernel⟩,
   ⟨Q, 95, 3, 8191, Cl { state := .on } fun e => { e with ctxs := [(383, { state := .faulted, fault := 3 })] },
       by decide +kernel⟩,
   ⟨Q, 95, 3, 8192, BR, by decide +kernel⟩,
   ⟨Q, 95, 3, 8191, B, by decide +kernel⟩,
   ⟨Q, 95, 3, 8191, Cl { state := .on } fun e => { e with ctxs := [(383, { state := .parked })] }, by decide +kernel⟩,
   ⟨Q, 95, 3, 1, Cl { state := .on } fun e => { e with ctxs := [(383, { state := .faulted, fault := 3 })] }, by decide +kernel⟩,
   ⟨Q, 95, 3, 1, fun c => { c with stopNow := true },
       Cl { state := .on } fun e => { e with ctxs := [(383, { state := .waitNoc })] }, Or.inr ⟨rfl, by decide +kernel,
       by decide +kernel, rfl⟩, by decide +kernel⟩,
   ⟨Q, 95, 3, 1, Cl { state := .on } fun e => { e with ctxs := [(383, { state := .waitNoc, wait := .fence })] },
       by decide +kernel⟩,
   ⟨Q, 95, 3, 2, BR, by decide +kernel⟩,
   ⟨Q, 95, 3, 1, B, by decide +kernel⟩,
   ⟨Q, 95, 3, 1, Hd (Cl { state := .on } fun e => { e with ctxs := [(383, { state := .ready })] }), by decide +kernel⟩,
   ⟨Q, 95, 3, 13, BR, by decide +kernel⟩,
   ⟨Q, 95, 3, 12, Cl { state := .on } fun e => { e with ctxs := [(383, { state := .waitPin })] }, by decide +kernel⟩,
   ⟨Q, 11, 1, Cl { state := .on }, by decide +kernel⟩,
   ⟨Q, 11, Cl {}, by decide +kernel⟩,
   ⟨Q, 11, Cl { state := .waitGrant }, by decide +kernel⟩,
   ⟨Q, 12, 1, BR, by decide +kernel⟩,
   ⟨Q, 11, 1, Hd (Cl {}), by decide +kernel⟩,
   ⟨Q, 959, 95, 1, 1, Cl { state := .on } fun e => { e with pins := [(959, { sched := true })] }, by decide +kernel⟩,
   ⟨Q, 959, 1, 1, Cl { state := .on } fun e => { e with pins := [(959, { sched := true, owner := 95 })] }, by decide +kernel⟩,
   ⟨Q, 959, 95, 1, 1, Cl { state := .on } fun e => { e with pins := [(959, { sched := true, owner := 94, credits := 3 })] },
       by decide +kernel⟩,
   ⟨Q, 959, 96, 1, 1, Cl { state := .on } fun e => { e with pins := [(959, { sched := true })] }, by decide +kernel⟩,
   ⟨Q, 959, 95, 1, 1, { B with eng := { B.eng with pins := [(959, { sched := true })] } }, by decide +kernel⟩,
   ⟨Q, 95, 1, 32768, BR, by decide +kernel⟩,
   ⟨Q, 95, 1, 32736, B, by decide +kernel⟩,
   ⟨Q, 12, BR, by decide +kernel⟩⟩

theorem witness_DefaultPaths :
    (∃ (a : _) (b : _), a < 120 ∧ b < 120)
    ∧ (∃ (a : _) (b : _), a < 120 ∧ b < 120 ∧ a ≠ b)
    ∧ (∃ (p : _) (j : _) (q : _), p < 120 ∧ j < 8 ∧ linkTo p j = some q) :=
  ⟨⟨119, 0, by decide +kernel⟩,
   ⟨119, 0, by decide +kernel⟩,
   ⟨0, 0, 12, by decide +kernel⟩⟩

theorem witness_NocInjection :
    (∃ (x : Inject) (s : State), mayInject x s = true ∧ (x.opcode = 0x10 ∨ x.opcode = 0x11) ∧ x.port ≠ 860 ∧ x.port ≠ 861
        ∧ x.port ≠ 957)
    ∧ (∃ (x : Inject) (s : State), mayInject x s = true ∧ (((x.opcode = 1 ∨ x.opcode = 2)
        ∧ 256 < x.addr % 256 + x.size % 256 + 1) ∨ ((x.opcode = 1 ∨ x.opcode = 2 ∨ x.opcode = 4 ∨ x.opcode = 5)
        ∧ addressPort s x.addr = none)))
    ∧ (∃ (x : Inject) (d : Nat) (s : State), mayInject x s = true ∧ (x.opcode = 1 ∨ x.opcode = 2 ∨ x.opcode = 4 ∨ x.opcode = 5)
        ∧ addressPort s x.addr = some d ∧ d / 8 ≠ x.port / 8 ∧ routeOwn s (x.port / 8) s.noc.epoch (d / 8) = 7)
    ∧ (∃ (x : Inject) (d : Nat) (s : State), mayInject x s = true ∧ x.opcode ≠ 0x10 ∧ x.opcode ≠ 0x11
        ∧ decoded s x s.noc.epoch = some d
        ∧ (heldBack s x s.noc.epoch = true ∨ hasRoom s (x.port / 8) (x.port % 8) (packetOf x d s.noc.epoch) = false))
    ∧ (∃ (x : Inject) (d : Nat) (s : State), mayInject x s = true ∧ (x.opcode = 0x08 ∨ x.opcode = 0x09 ∨ x.opcode = 0x20)
        ∧ decoded s x s.noc.epoch = some d ∧ heldBack s x s.noc.epoch = false
        ∧ hasRoom s (x.port / 8) (x.port % 8) (packetOf x d s.noc.epoch) = true
        ∧ (tget {} s.noc.bw x.port).tx + 9 < statMax s.noc)
    ∧ (∃ (x : Inject) (d : Nat) (rd : Bool) (wr : Bool) (ok : Bool) (u : State) (s : State), mayInject x s = true
        ∧ ((x.opcode = 1 ∧ rd = true ∧ wr = false) ∨ (x.opcode = 2 ∧ rd = false ∧ wr = true) ∨ ((x.opcode = 4 ∨ x.opcode = 5)
        ∧ rd = true ∧ wr = true)) ∧ decoded s x s.noc.epoch = some d ∧ heldBack s x s.noc.epoch = false
        ∧ hasRoom s (x.port / 8) (x.port % 8) (packetOf x d s.noc.epoch) = true
        ∧ rightsJudge (sourceFields x.port x.src).cls (sourceFields x.port x.src).index rd wr x.addr (x.size % 256) { s with noc := { s.noc with pending := tset false s.noc.pending x.port false } } = (ok,
        u))
    ∧ (∃ (x : Inject) (s : State), mayInject x s = false)
    ∧ (∃ (x : Inject), x.opcode = 1) :=
  ⟨⟨inj 956 0x11, BR, by decide +kernel⟩,
   ⟨inj 956 1, BR, by decide +kernel⟩,
   ⟨{ inj 956 1 with addr := 65504 }, 860, No fun n => { n with routes := [(routeKey 119 false 107, some 7)] },
       by decide +kernel⟩,
   ⟨inj 956 9, queuePort (queueGroup 65535 / 16), No fun n => { n with out := [(956, [⟨6, true, 0⟩])] }, by decide +kernel⟩,
   ⟨inj 956 9, queuePort (queueGroup 65535 / 16), BR, by decide +kernel⟩,
   ⟨{ inj 956 1 with addr := 65504 }, 860, true, false,
       (rightsJudge 4 0 true false 65504 31 { BR with noc := { BR.noc with pending := tset false BR.noc.pending 956 false } }).1,
       (rightsJudge 4 0 true false 65504 31 { BR with noc := { BR.noc with pending := tset false BR.noc.pending 956 false } }).2,
       BR, by decide +kernel⟩,
   ⟨inj 5 1, BR, by decide +kernel⟩,
   ⟨inj 764 1, by decide +kernel⟩⟩

theorem witness_NocHopsAndDelivery :
    (∃ (s : State) (p : Nat) (j : Nat) (id : Nat) (f : Flight) (l : List (Nat × Flight)), arbitrate s p j l = some (id, f))
    ∧ (∃ (p : Nat) (j : Nat) (q : Nat) (id : Nat) (n : Nat) (f : Flight) (l : List (BitVec 266)) (x : Packet) (s : State),
        crossed { f.pkt with age := min 255 (effectiveAge s f + 1), rclass := f.pkt.rclass || dateline p j } l = .ok (x, n)
        ∧ nocRuns s = true ∧ p < 120 ∧ j < 8 ∧ linkTo p j = some q ∧ (s.pier p).linkFail.getLsbD j = false ∧ f.pier = p
        ∧ id < s.noc.nextId ∧ arbitrate s p j (departing s p j) = some (id, f))
    ∧ (∃ (p : Nat) (j : Nat) (q : Nat) (id : Nat) (u : Nat) (f : Flight) (l : List (BitVec 266)) (s : State),
        crossed { f.pkt with age := min 255 (effectiveAge s f + 1), rclass := f.pkt.rclass || dateline p j } l = .error u
        ∧ nocRuns s = true ∧ p < 120 ∧ j < 8 ∧ linkTo p j = some q ∧ (s.pier p).linkFail.getLsbD j = false ∧ f.pier = p
        ∧ arbitrate s p j (departing s p j) = some (id, f))
    ∧ (∃ (p : Nat) (j : Nat) (id : Nat) (f : Flight) (s : State), nocRuns s = true ∧ p < 120 ∧ j < 8 ∧ linkTo p j = none
        ∧ id < s.noc.nextId ∧ arbitrate s p j (departing s p j) = some (id, f))
    ∧ (∃ (p : Nat) (j : Nat) (q : Nat) (id : Nat) (f : Flight) (s : State), nocRuns s = true ∧ p < 120 ∧ j < 8
        ∧ linkTo p j = some q ∧ (s.pier p).linkFail.getLsbD j = true ∧ arbitrate s p j (departing s p j) = some (id, f))
    ∧ (∃ (p : Nat) (j : Nat) (s : State), (nocRuns s = false ∨ arbitrate s p j (departing s p j) = none))
    ∧ (∃ (x : Packet), x.vc = 0)
    ∧ (∃ (x : Packet), x.vc ≠ 0)
    ∧ (∃ (id : Nat) (k : Nat) (f : Flight) (s : State), nocRuns s = true ∧ localPort id = true
        ∧ (arbitrate s (id / 8) (id % 8) ((heads s (id / 8)).filter fun e => e.2.pkt.destPier = id / 8 && e.2.pkt.destPort = id % 8 && accepts s id e.2.pkt) = some (k,
        f)))
    ∧ (∃ (id : Nat) (s : State), (nocRuns s = false ∨ localPort id = false))
    ∧ (∃ (id : Nat) (x : Packet) (s : State), x.vc ≠ 1 ∧ fenceAt s id = true)
    ∧ (∃ (id : Nat) (x : Packet) (s : State), x.vc ≠ 1 ∧ fenceAt s id = false ∧ shut s id = true)
    ∧ (∃ (id : Nat) (x : Packet) (t : State) (s : State), x.vc ≠ 1 ∧ fenceAt s id = false ∧ shut s id = false
        ∧ t = countRx id (1 + x.data.length) (countEj (id / 8) x.epoch s) ∧ performs id x = false)
    ∧ (∃ (id : Nat) (x : Packet) (t : State) (s : State), x.vc ≠ 1 ∧ fenceAt s id = false ∧ shut s id = false
        ∧ t = countRx id (1 + x.data.length) (countEj (id / 8) x.epoch s) ∧ performs id x = true ∧ id ≠ 860
        ∧ fabricPort id = false)
    ∧ (∃ (id : Nat) (x : Packet) (t : State) (s : State), x.vc ≠ 1 ∧ fenceAt s id = false ∧ shut s id = false
        ∧ t = countRx id (1 + x.data.length) (countEj (id / 8) x.epoch s) ∧ performs id x = true ∧ fabricPort id = true)
    ∧ (∃ (id : Nat) (x : Packet) (s : State), x.vc = 1 ∧ ownerOff s id = true)
    ∧ (∃ (id : Nat) (tag : Nat) (o : OutReq) (l : List OutReq) (s : State), tget [] s.noc.out id = o :: l ∧ o.tag = tag) :=
  ⟨⟨BR, 107, 4, 3, ⟨pkt0, 107, 0, 4, 5, 5, 0, 0⟩, [(3, ⟨pkt0, 107, 0, 4, 5, 5, 0, 0⟩)], by decide +kernel⟩,
   ⟨119, 0, 96, 3, 0, ⟨pkt0, 119, 1, 0, 5, 5, 0, 0⟩, [], { pkt0 with age := 1, rclass := true }, Fl ⟨pkt0, 119, 1, 0, 5, 5, 0,
       0⟩, rfl, by decide +kernel⟩,
   ⟨119, 0, 96, 3, 0, ⟨pkt0, 119, 1, 0, 5, 5, 0, 0⟩, [3], Fl ⟨pkt0, 119, 1, 0, 5, 5, 0, 0⟩, erred (by decide +kernel),
       by decide +kernel⟩,
   ⟨119, 7, 3, ⟨pkt0, 119, 1, 7, 5, 5, 0, 0⟩, Fl ⟨pkt0, 119, 1, 7, 5, 5, 0, 0⟩, by decide +kernel⟩,
   ⟨119, 0, 96, 3, ⟨pkt0, 119, 1, 0, 5, 5, 0, 0⟩, Fl ⟨pkt0, 119, 1, 0, 5, 5, 0,
       0⟩ fun n => { n with piers := [(119, { linkFail := 1 })] }, by decide +kernel⟩,
   ⟨119, 7, BR, by decide +kernel⟩,
   ⟨pkt0, by decide +kernel⟩,
   ⟨{ pkt0 with vc := 1 }, by decide +kernel⟩,
   ⟨860, 3, ⟨pkt0, 107, 0, 4, 5, 5, 0, 0⟩, Fl ⟨pkt0, 107, 0, 4, 5, 5, 0, 0⟩, by decide +kernel⟩,
   ⟨5, BR, by decide +kernel⟩,
   ⟨764, pkt0, Ti { state := .draining }, by decide +kernel⟩,
   ⟨764, pkt0, Ti {}, by decide +kernel⟩,
   ⟨860, pkt0, (let s : State := BR; countRx 860 1 (countEj 107 false s)), BR, by decide +kernel⟩,
   ⟨queuePort 1, pkt0, (let s : State := BR; countRx (queuePort 1) 1 (countEj (queuePort 1 / 8) false s)), BR,
       by decide +kernel⟩,
   ⟨764, { pkt0 with opcode := 1 }, (let s : State := Ti on0; countRx 764 1 (countEj 95 false s)), Ti on0, by decide +kernel⟩,
   ⟨764, { pkt0 with vc := 1 }, Ti {}, by decide +kernel⟩,
   ⟨858, 255, ⟨255, true, 0⟩, [⟨0, false, 0⟩],
       No fun n => { n with out := [(858, [⟨255, true, 0⟩, ⟨0, false, 0⟩])], cycle := 2 ^ 20, monitors := [(15, { en := true, port := 858 })] },
       by decide +kernel⟩⟩

theorem witness_NocControl :
    (∃ (p : Nat) (j : Nat) (q : Nat) (id : Nat) (u : Nat) (n : Nat) (f : Flight) (s : State), nocRuns s = true ∧ p < 120
        ∧ j < 7 ∧ linkTo p j = some q ∧ (s.pier p).linkFail.getLsbD j = false ∧ arbitrate s p j (departing s p j) = some (id,
        f) ∧ u < 1 + f.pkt.data.length ∧ n = (if f.failUnit = u then f.fails + 1 else 1) ∧ n < 4)
    ∧ (∃ (p : Nat) (j : Nat) (q : Nat) (id : Nat) (u : Nat) (n : Nat) (f : Flight) (s : State), nocRuns s = true ∧ p < 120
        ∧ j < 7 ∧ linkTo p j = some q ∧ (s.pier p).linkFail.getLsbD j = false ∧ arbitrate s p j (departing s p j) = some (id,
        f) ∧ u < 1 + f.pkt.data.length ∧ n = (if f.failUnit = u then f.fails + 1 else 1) ∧ 4 ≤ n ∧ s.dev.mode = .run)
    ∧ (∃ (p : Nat) (j : Nat) (s : State), j < 8 ∧ (nocRuns s = false ∨ arbitrate s p j (departing s p j) = none))
    ∧ (∃ (s : State), (nocRuns s = false ∨ s.noc.oldLive = true))
    ∧ (∃ (s : State), nocRuns s = true ∧ s.noc.oldLive = false)
    ∧ (∃ (e : Bool) (s : State), (e = s.noc.epoch ∨ s.noc.oldLive = true))
    ∧ (∃ (v : Nat) (s : State), s.noc.oldLive = false ∧ v < 64)
    ∧ (∃ (m : Nat) (port : Nat), m < 16 ∧ port < 1024) :=
  ⟨⟨119, 0, 96, 3, 1, 3, ⟨{ pkt0 with data := [7] }, 119, 1, 0, 5, 5, 1, 2⟩, Fl ⟨{ pkt0 with data := [7] }, 119, 1, 0, 5, 5,
      1, 2⟩, by decide +kernel⟩,
   ⟨119, 0, 96, 3, 1, 4, ⟨{ pkt0 with data := [7] }, 119, 1, 0, 5, 5, 1, 3⟩, Fl ⟨{ pkt0 with data := [7] }, 119, 1, 0, 5, 5,
       1, 3⟩, by decide +kernel⟩,
   ⟨119, 6, BR, by decide +kernel⟩,
   ⟨No fun n => { n with oldLive := true }, by decide +kernel⟩,
   ⟨No fun n => { n with epoch := true, piers := [(119, { inj0 := 7, inj1 := 5 })] }, by decide +kernel⟩,
   ⟨true, No fun n => { n with epoch := true }, by decide +kernel⟩,
   ⟨63, BR, by decide +kernel⟩,
   ⟨15, 1023, by decide +kernel⟩⟩

theorem witness_ScratchAccesses :
    (∃ (r : Req) (k : Nat) (d : Nat) (s : State), bankGrants s r = true ∧ s.dev.ready.scratch = true
        ∧ r.addr = 0x100000000 + 32 * k ∧ k < 2097152 ∧ r.size = 32 ∧ ownershipRefuses s (k / 8192) r.src true = none
        ∧ (unitAt s k).poisoned = false ∧ decodeUnit (unitAt s k).symbols = .clean d)
    ∧ (∃ (r : Req) (k : Nat) (d : Nat) (y : Nat) (s : State), bankGrants s r = true ∧ s.dev.ready.scratch = true
        ∧ r.addr = 0x100000000 + 32 * k ∧ k < 2097152 ∧ r.size = 32 ∧ ownershipRefuses s (k / 8192) r.src true = none
        ∧ (unitAt s k).poisoned = false ∧ decodeUnit (unitAt s k).symbols = .fixed d y ∧ s.dev.mode ≠ .hold
        ∧ k % 8192 ∉ (s.bank (k / 8192)).writeBacks)
    ∧ (∃ (r : Req) (k : Nat) (s : State), bankGrants s r = true ∧ s.dev.ready.scratch = true ∧ r.addr = 0x100000000 + 32 * k
        ∧ k < 2097152 ∧ r.size = 32 ∧ ownershipRefuses s (k / 8192) r.src true = none ∧ (unitAt s k).poisoned = true)
    ∧ (∃ (r : Req) (k : Nat) (s : State), bankGrants s r = true ∧ s.dev.ready.scratch = true ∧ r.addr = 0x100000000 + 32 * k
        ∧ k < 2097152 ∧ r.size = 32 ∧ ownershipRefuses s (k / 8192) r.src true = none ∧ (unitAt s k).poisoned = false
        ∧ decodeUnit (unitAt s k).symbols = .lost)
    ∧ (∃ (r : Req) (k : Nat) (s : State), bankGrants s r = true ∧ s.dev.ready.scratch = true ∧ r.addr = 0x100000000 + 32 * k
        ∧ k < 2097152 ∧ r.size = 32 ∧ r.enables = 2 ^ 32 - 1 ∧ r.data.length = 32
        ∧ ownershipRefuses s (k / 8192) r.src false = none)
    ∧ (∃ (r : Req) (k : Nat) (o : Nat) (d : Nat) (s : State), bankGrants s r = true ∧ s.dev.ready.scratch = true
        ∧ r.addr = 0x100000000 + 32 * k + o ∧ k < 2097152 ∧ o + r.size ≤ 32 ∧ 0 < r.size ∧ r.size < 32 ∧ r.src.cls ≠ 2
        ∧ r.enables = 2 ^ r.size - 1 ∧ r.data.length = r.size ∧ ownershipRefuses s (k / 8192) r.src false = none
        ∧ (unitAt s k).poisoned = false ∧ decodeUnit (unitAt s k).symbols = .clean d ∧ d < 2 ^ 256)
    ∧ (∃ (s : State), s.spd.injArm = false)
    ∧ (∃ (c : Req → List (Nat × BitVec 291)
        → Instr) (add : Bool) (r : Req) (k : Nat) (o : Nat) (d : Nat) (s : State) (old : _), ((c = Instr.scratchAtomicAdd
        ∧ add = true) ∨ (c = Instr.scratchAtomicSwap ∧ add = false)) ∧ bankGrants s r = true ∧ s.dev.ready.scratch = true
        ∧ r.addr = 0x100000000 + 32 * k + 8 * o ∧ k < 2097152 ∧ o < 4 ∧ r.size = 8 ∧ r.data.length = 8
        ∧ ownershipRefuses s (k / 8192) r.src false = none ∧ (unitAt s k).poisoned = false
        ∧ decodeUnit (unitAt s k).symbols = .clean d ∧ old = d / 2 ^ (64 * o) % 2 ^ 64)
    ∧ (∃ (c : Req → List (Nat × BitVec 291) → Instr) (r : Req) (k : Nat) (s : State),
        (c = Instr.scratchRead ∨ c = Instr.scratchWrite) ∧ bankGrants s r = true ∧ r.addr = 0x100000000 + 32 * k ∧ k < 2097152
        ∧ r.size = 32 ∧ s.dev.ready.scratch = true ∧ s.dev.mode ≠ .hold ∧ r.src.cls ≠ 1 ∧ r.src.cls ≠ 6
        ∧ ((s.bank (k / 8192)).state ≠ .owned ∨ ownerMatches s (k / 8192) r.src = false))
    ∧ (∃ (c : Req → List (Nat × BitVec 291) → Instr) (r : Req) (k : Nat) (s : State),
        (c = Instr.scratchRead ∨ c = Instr.scratchWrite) ∧ (c = Instr.scratchWrite ∨ (r.src.cls ≠ 0 ∧ r.src.cls ≠ 1))
        ∧ bankGrants s r = true ∧ r.addr = 0x100000000 + 32 * k ∧ k < 2097152 ∧ r.size = 32 ∧ s.dev.ready.scratch = true
        ∧ s.dev.mode = .hold)
    ∧ (∃ (c : Req → List (Nat × BitVec 291) → Instr) (r : Req) (k : Nat) (s : State),
        (c = Instr.scratchRead ∨ c = Instr.scratchWrite) ∧ bankGrants s r = true ∧ r.addr = 0x100000000 + 32 * k ∧ k < 2097152
        ∧ r.size = 32 ∧ s.dev.ready.scratch = false)
    ∧ (∃ (c : Req → List (Nat × BitVec 291) → Instr) (r : Req) (s : State), (((c = Instr.scratchRead ∨ c = Instr.scratchWrite)
        ∧ 256 < r.addr % 256 + r.size) ∨ ((c = Instr.scratchAtomicAdd ∨ c = Instr.scratchAtomicSwap)
        ∧ (r.addr % 8 ≠ 0 ∨ r.size ≠ 8))) ∧ bankGrants s r = true)
    ∧ (∃ (c : Req → List (Nat × BitVec 291) → Instr) (r : Req) (s : State),
        (c = Instr.scratchRead ∨ c = Instr.scratchWrite ∨ c = Instr.scratchAtomicAdd ∨ c = Instr.scratchAtomicSwap)
        ∧ bankGrants s r = false)
    ∧ (∃ (s : State) (b : Nat) (e : Packet × Nat) (f : Packet × Nat), bankWinner s b = some f ∧ e ∈ waitingAt s b)
    ∧ (∃ (s : State) (b : Nat) (e : Packet × Nat) (f : Packet × Nat), bankWinner s b = some f ∧ e ∈ waitingAt s b
        ∧ processorClass e.1.srcClass = false ∧ 512 ≤ s.noc.cycle - e.2)
    ∧ (∃ (s : State) (b : Nat) (e : Packet × Nat) (f : Packet × Nat), bankWinner s b = some f ∧ e ∈ waitingAt s b
        ∧ processorClass e.1.srcClass = true) :=
  ⟨⟨scr 32 2097151 0, 2097151, 5, Bu { symbols := unitEncode 5 }, by decide +kernel⟩,
   ⟨scr 32 2097151 0, 2097151, 5, 31, Bu { symbols := unitEncode 5 ^^^ (255 <<< 248) }, by decide +kernel⟩,
   ⟨scr 32 2097151 0, 2097151, Bu { poison := 6 }, by decide +kernel⟩,
   ⟨scr 32 2097151 0, 2097151, Bu { symbols := 257 }, by decide +kernel⟩,
   ⟨scr 32 2097151 0, 2097151, Bu { poison := 6 }, by decide +kernel⟩,
   ⟨{ scr 31 2097151 0 with addr := 0x103FFFFE1 }, 2097151, 1, 5, Bu { symbols := unitEncode 5 }, by decide +kernel⟩,
   ⟨BR, by decide +kernel⟩,
   ⟨Instr.scratchAtomicAdd, true, scr 8 2097151 3, 2097151, 3, 5, Bu { symbols := unitEncode 5 }, 0, by simp,
       by decide +kernel⟩,
   ⟨Instr.scratchRead, scr 32 2097151 0, 2097151, Bs fun p => { p with banks := [(255, { kind := 2 })] }, by simp,
       by decide +kernel⟩,
   ⟨Instr.scratchWrite, scr 32 2097151 0, 2097151, Hd BR, by simp, Or.inl rfl, by decide +kernel⟩,
   ⟨Instr.scratchWrite, scr 32 2097151 0, 2097151, B, by simp, by decide +kernel⟩,
   ⟨Instr.scratchAtomicSwap, scr 7 2097151 3, BR, Or.inr ⟨by simp, by decide +kernel⟩, by decide +kernel⟩,
   ⟨Instr.scratchRead, scr 32 2097151 0, No fun n => { n with waiting := [(wp 0 0 3, 0), (wp 3 95 4, 10)] }, by simp,
       by decide +kernel⟩,
   ⟨No fun n => { n with waiting := [(wp 0 0 3, 0), (wp 3 95 4, 10)], cycle := 512 }, 255, (wp 3 95 4, 10), (wp 0 0 3, 0),
       by decide +kernel⟩,
   ⟨No fun n => { n with waiting := [(wp 0 0 3, 0), (wp 3 95 4, 10)], cycle := 512 }, 255, (wp 0 0 3, 0), (wp 0 0 3, 0),
       by decide +kernel⟩,
   ⟨No fun n => { n with waiting := [(wp 0 0 3, 0), (wp 3 95 4, 10)], cycle := 511 }, 255, (wp 3 95 4, 10), (wp 3 95 4, 10),
       by decide +kernel⟩⟩

theorem witness_ScratchEvents :
    (∃ (b : Nat) (u : Nat) (d : Nat) (y : Nat) (rest : List Nat) (s : State), b < 256 ∧ s.dev.mode ≠ .hold
        ∧ (s.bank b).writeBacks = u :: rest ∧ decodeUnit (unitAt s (b * 8192 + u)).symbols = .fixed d y)
    ∧ (∃ (b : Nat) (s : State), (s.dev.mode = .hold ∨ (s.bank b).writeBacks = []))
    ∧ (∃ (b : Nat) (kind : Nat) (index : Nat) (s : State), b < 256 ∧ kind < 16 ∧ index < 128
        ∧ ((s.bank b).state ≠ .owned ∨ kind = 3 ∨ (s.bank b).kind = 3))
    ∧ (∃ (b : Nat) (kind : Nat) (index : Nat) (w : Bool) (s : State), b < 256 ∧ kind < 16 ∧ index < 128
        ∧ (s.bank b).state = .owned ∧ kind ≠ 3 ∧ (s.bank b).kind ≠ 3
        ∧ ((s.bank b).kind ≠ kind ∨ (s.bank b).index ≠ index ∨ w = true))
    ∧ (∃ (b : Nat) (s : State), b < 256 ∧ (s.bank b).kind < 16 ∧ (s.bank b).index < 128 ∧ (s.bank b).state = .owned
        ∧ (s.bank b).kind ≠ 3)
    ∧ (∃ (b : Nat) (s : State), b < 256 ∧ (s.bank b).state = .draining ∧ (s.bank b).wipe = true)
    ∧ (∃ (b : Nat) (s : State), b < 256 ∧ (s.bank b).state = .draining ∧ (s.bank b).wipe = false)
    ∧ (∃ (b : Nat) (s : State), b < 256 ∧ (s.bank b).state = .wiping)
    ∧ (∃ (g : Nat) (s : State), g < 32 ∧ (s.sgroup g).state = .clearing)
    ∧ (∃ (s : State), scrubMode s = true ∧ s.spd.scrubEn = true ∧ s.spd.burst = false ∧ s.spd.waitGrant = false)
    ∧ (∃ (s : State), (scrubMode s = false ∨ s.spd.scrubEn = false))
    ∧ (∃ (s : State), (∀ i, i < 8 → (s.bank (8 * s.spd.group + i)).state = .owned ∧ ∀ x,
        x = unitAt s ((8 * s.spd.group + i) * 8192 + s.spd.nextUnit) → x.poisoned = false ∧ ∃ d,
        decodeUnit x.symbols = .clean d) ∧ scrubMode s = true ∧ s.spd.burst = true ∧ s.spd.nextUnit < 8191)
    ∧ (∃ (s : State), scrubMode s = true ∧ s.spd.burst = true ∧ s.spd.nextUnit < 8191 ∧ (∀ i, i < 8
        → (s.bank (8 * s.spd.group + i)).state ≠ .owned))
    ∧ (∃ (s : State), scrubMode s = true ∧ s.spd.burst = true ∧ 8191 ≤ s.spd.nextUnit ∧ (∀ i, i < 8
        → (s.bank (8 * s.spd.group + i)).state ≠ .owned))
    ∧ (∃ (s : State), scrubMode s = false ∧ s.spd.burst = true)
    ∧ (∃ (q : CmdCtx) (b : Nat) (s : State), b < 256 ∧ MayIssue q 0x0801 1 s ∧ s.dev.ready.scratch = true ∧ s.dev.mode ≠ .hold
        ∧ (s.bank b).state = .owned ∧ (s.bank b).kind ≠ 3)
    ∧ (∃ (q : CmdCtx) (b : Nat) (s : State), b < 256 ∧ MayIssue q 0x0801 1 s ∧ s.dev.ready.scratch = false)
    ∧ (∃ (q : CmdCtx) (b : Nat) (s : State), b < 256 ∧ MayIssue q 0x0801 1 s ∧ s.dev.ready.scratch = true
        ∧ ((s.bank b).state ≠ .owned ∨ (s.bank b).kind = 3 ∨ s.dev.mode = .hold))
    ∧ (∃ (q : CmdCtx) (b : Nat) (kind : Nat) (index : Nat) (s : State), b < 256 ∧ kind < 256 ∧ index < 256
        ∧ ownerOk kind index = true ∧ kind ≠ 3 ∧ MayIssue q 0x0802 3 s ∧ s.dev.ready.scratch = true ∧ s.dev.mode ≠ .hold
        ∧ (s.bank b).state = .owned ∧ (s.bank b).kind = 3 ∧ s.dev.ready.queues = false ∧ s.dev.ready.qspill = false
        ∧ (∀ e ∈ s.qm.queues, e.2.destroying = false ∧ e.2.resetting = false) ∧ (∀ e ∈ s.qm.used, e.1 / 64 ≠ b))
    ∧ (∃ (q : CmdCtx) (b : Nat) (kind : Nat) (index : Nat) (s : State) (e : _), b < 256 ∧ kind < 256 ∧ index < 256
        ∧ ownerOk kind index = true ∧ kind ≠ 3 ∧ MayIssue q 0x0802 3 s ∧ s.dev.ready.scratch = true ∧ s.dev.mode ≠ .hold
        ∧ (s.bank b).state = .owned ∧ (s.bank b).kind = 3 ∧ s.dev.ready.queues = false ∧ s.dev.ready.qspill = false
        ∧ (∀ e ∈ s.qm.queues, e.2.destroying = false ∧ e.2.resetting = false) ∧ e ∈ s.qm.used ∧ e.1 / 64 = b)
    ∧ (∃ (q : CmdCtx) (b : Nat) (kind : Nat) (index : Nat) (s : State), b < 256 ∧ kind < 256 ∧ index < 256
        ∧ MayIssue q 0x0802 3 s ∧ (ownerOk kind index = false ∨ kind = 3))
    ∧ (∃ (q : CmdCtx) (b : Nat) (kind : Nat) (index : Nat) (s : State), b < 256 ∧ kind < 256 ∧ index < 256
        ∧ MayIssue q 0x0802 3 s ∧ ownerOk kind index = true ∧ kind ≠ 3 ∧ s.dev.ready.scratch = false)
    ∧ (∃ (q : CmdCtx) (b : Nat) (kind : Nat) (index : Nat) (s : State), b < 256 ∧ kind < 256 ∧ index < 256
        ∧ MayIssue q 0x0802 3 s ∧ ownerOk kind index = true ∧ kind ≠ 3 ∧ s.dev.ready.scratch = true
        ∧ ((s.bank b).state ≠ .owned ∨ (s.bank b).kind ≠ 3 ∨ s.dev.mode = .hold))
    ∧ (∃ (q : CmdCtx) (b : Nat) (kind : Nat) (index : Nat) (wipe : Nat) (s : State), b < 256 ∧ kind < 256 ∧ index < 256
        ∧ ownerOk kind index = true ∧ wipe ≤ 1 ∧ MayIssue q 0x0803 4 s ∧ s.dev.ready.scratch = true
        ∧ (s.dev.mode ≠ .hold ∨ wipe = 0) ∧ (s.bank b).state = .owned ∧ kind ≠ 3 ∧ (s.bank b).kind ≠ 3
        ∧ ¬ ((s.bank b).kind = kind ∧ (s.bank b).index = index ∧ wipe = 0))
    ∧ (∃ (q : CmdCtx) (b : Nat) (kind : Nat) (index : Nat) (wipe : Nat) (s : State), b < 256 ∧ kind < 256 ∧ index < 256
        ∧ ownerOk kind index = true ∧ wipe ≤ 1 ∧ MayIssue q 0x0803 4 s ∧ s.dev.ready.scratch = true
        ∧ (s.dev.mode ≠ .hold ∨ wipe = 0) ∧ (s.bank b).state = .owned ∧ kind ≠ 3 ∧ (s.bank b).kind ≠ 3 ∧ (s.bank b).kind = kind
        ∧ (s.bank b).index = index ∧ wipe = 0)
    ∧ (∃ (q : CmdCtx) (b : Nat) (kind : Nat) (index : Nat) (wipe : Nat) (s : State), b < 256 ∧ kind < 256 ∧ index < 256
        ∧ wipe < 256 ∧ MayIssue q 0x0803 4 s ∧ (ownerOk kind index = false ∨ 1 < wipe))
    ∧ (∃ (q : CmdCtx) (b : Nat) (kind : Nat) (index : Nat) (wipe : Nat) (s : State), b < 256 ∧ kind < 256 ∧ index < 256
        ∧ wipe < 256 ∧ MayIssue q 0x0803 4 s ∧ ownerOk kind index = true ∧ wipe ≤ 1 ∧ s.dev.ready.scratch = false)
    ∧ (∃ (q : CmdCtx) (b : Nat) (kind : Nat) (index : Nat) (wipe : Nat) (s : State), b < 256 ∧ kind < 256 ∧ index < 256
        ∧ wipe < 256 ∧ MayIssue q 0x0803 4 s ∧ ownerOk kind index = true ∧ wipe ≤ 1 ∧ s.dev.ready.scratch = true
        ∧ s.dev.mode = .hold ∧ wipe = 1)
    ∧ (∃ (q : CmdCtx) (b : Nat) (kind : Nat) (index : Nat) (wipe : Nat) (s : State), b < 256 ∧ kind < 256 ∧ index < 256
        ∧ wipe < 256 ∧ MayIssue q 0x0803 4 s ∧ ownerOk kind index = true ∧ wipe ≤ 1 ∧ s.dev.ready.scratch = true
        ∧ (s.dev.mode ≠ .hold ∨ wipe = 0) ∧ ((s.bank b).state ≠ .owned ∨ kind = 3 ∨ (s.bank b).kind = 3))
    ∧ (∃ (q : CmdCtx) (g : Nat) (s : State), 32 ≤ g ∧ g < 256 ∧ MayIssue q 0x0804 1 s)
    ∧ (∃ (q : CmdCtx) (b : Nat) (u : Nat) (s : State), b < 256 ∧ 8192 ≤ u ∧ u < 2 ^ 16 ∧ MayIssue q 0x0805 4 s) :=
  ⟨⟨255, 8191, 0, 31, [],
      Bs fun p => { p with banks := [(255, { writeBacks := [8191] })], units := [(2097151, { symbols := 255 <<< 248 })] },
      by decide +kernel⟩,
   ⟨255, BR, by decide +kernel⟩,
   ⟨255, 3, 127, BR, by decide +kernel⟩,
   ⟨255, 5, 95, true, Bs fun p => { p with banks := [(255, { kind := 1 })] }, by decide +kernel⟩,
   ⟨255, Bs fun p => { p with banks := [(255, { kind := 5, index := 95 })] }, by decide +kernel⟩,
   ⟨255, Bs fun p => { p with banks := [(255, { state := .draining, wipe := true })] }, by decide +kernel⟩,
   ⟨255, Bs fun p => { p with banks := [(255, { state := .draining, newKind := 5, newIndex := 95 })] }, by decide +kernel⟩,
   ⟨255, Bs fun p => { p with banks := [(255, { state := .wiping, newKind := 5, newIndex := 95 })] }, by decide +kernel⟩,
   ⟨31, Bs fun p => { p with groups := [(31, { state := .clearing })] }, by decide +kernel⟩,
   ⟨BR, by decide +kernel⟩,
   ⟨Hd BR, by decide +kernel⟩,
   ⟨Bs fun p => { p with burst := true, group := 31, nextUnit := 8190 }, fun _ _ => ⟨rfl,
       fun x hx => by rw [cleanUnits] at hx; subst hx; exact ⟨rfl, 0, by decide +kernel⟩⟩, by decide +kernel⟩,
   ⟨Bs fun p => { p with burst := true, group := 31, nextUnit := 8190, banks := (List.range 8).map fun i => (248 + i, { state := .draining }) },
       by decide +kernel⟩,
   ⟨Bs fun p => { p with burst := true, group := 31, nextUnit := 8191, banks := (List.range 8).map fun i => (248 + i, { state := .draining }) },
       by decide +kernel⟩,
   ⟨Hd (Bs fun p => { p with burst := true }), by decide +kernel⟩,
   ⟨Q, 255, BR, by decide +kernel⟩,
   ⟨Q, 255, B, by decide +kernel⟩,
   ⟨Q, 255, Bs fun p => { p with banks := [(255, { kind := 3 })] }, by decide +kernel⟩,
   ⟨Q, 255, 5, 95,
       { Bs fun p => { p with banks := [(255, { kind := 3 })] } with qm := { BR.qm with banks := 1 <<< 255 }, dev := { BR.dev with ready := { BR.dev.ready with queues := false, qspill := false } } },
       by decide +kernel⟩,
   ⟨Q, 255, 5, 95,
       { Bs fun p => { p with banks := [(255, { kind := 3 })] } with qm := { BR.qm with banks := 1 <<< 255, used := [(16383, true)] }, dev := { BR.dev with ready := { BR.dev.ready with queues := false, qspill := false } } },
       (16383, true), by decide +kernel⟩,
   ⟨Q, 255, 3, 0, BR, by decide +kernel⟩,
   ⟨Q, 255, 5, 95, B, by decide +kernel⟩,
   ⟨Q, 255, 5, 95, BR, by decide +kernel⟩,
   ⟨Q, 255, 5, 95, 1, BR, by decide +kernel⟩,
   ⟨Q, 255, 5, 95, 0, Bs fun p => { p with banks := [(255, { kind := 5, index := 95 })] }, by decide +kernel⟩,
   ⟨Q, 255, 5, 95, 2, BR, by decide +kernel⟩,
   ⟨Q, 255, 5, 95, 1, B, by decide +kernel⟩,
   ⟨Q, 255, 5, 95, 1, Hd BR, by decide +kernel⟩,
   ⟨Q, 255, 3, 0, 1, BR, by decide +kernel⟩,
   ⟨Q, 32, BR, by decide +kernel⟩,
   ⟨Q, 255, 8192, BR, by decide +kernel⟩⟩

theorem witness_DramAccesses :
    (∃ (addr : Nat), (addr < 0x10000000000 ∨ 0x18000000000 ≤ addr))
    ∧ (∃ (s : State) (addr : Nat) (o : Nat) (v : Nat) (n : Nat) (c : Nat) (a : Nat), addr = 0x10000000000 + o
        ∧ o < 0x8000000000 ∧ v = tget 0 s.ddr.wins (o / 2 ^ 36) ∧ n = 2 ^ bits v 24 2 ∧ c = bits v 16 3 + o % 2 ^ 36 / 256 % n
        ∧ a = bits v 0 6 * 2 ^ 30 + o % 2 ^ 36 / 256 / n * 256 + o % 256 ∧ bit v 31 = true)
    ∧ (∃ (r : Req) (s : State),
        (r.size = 0 ∨ r.addr / 256 ≠ (r.addr + r.size - 1) / 256 ∨ dramTarget s r.addr = none ∨ (r.src.cls = 2
        ∧ (r.size = 8 ∨ r.size = 32) ∧ r.addr % r.size ≠ 0)))
    ∧ (∃ (r : Req) (c : Nat) (a : Nat) (s : State), r.size ≠ 0 ∧ r.addr / 256 = (r.addr + r.size - 1) / 256 ∧ askew r = false
        ∧ dramTarget s r.addr = some (c, a) ∧ (s.dev.mode ≠ .hold ∨ r.src.cls = 0 ∨ r.src.cls = 1 ∨ r.src.cls = 7))
    ∧ (∃ (r : Req) (c : Nat) (a : Nat) (s : State), r.size ≠ 0 ∧ r.addr / 256 = (r.addr + r.size - 1) / 256 ∧ askew r = false
        ∧ dramTarget s r.addr = some (c, a) ∧ s.dev.mode = .hold ∧ r.src.cls ≠ 0 ∧ r.src.cls ≠ 1 ∧ r.src.cls ≠ 7)
    ∧ (∃ (r : Req) (code : Nat) (s : State), dramRefusal r s = some code)
    ∧ (∃ (r : Req) (c : Nat) (a : Nat) (u : Nat) (l : Nat) (v : BitVec 640) (s : State), dramRefusal r s = none
        ∧ dramTarget s r.addr = some (c, a) ∧ r.size = 64 ∧ a % 64 = 0 ∧ u = 2 * c + a / 64 % 2 ∧ l = a / 128
        ∧ queued (s.sub u) l = some v)
    ∧ (∃ (r : Req) (c : Nat) (a : Nat) (u : Nat) (l : Nat) (w : List Nat) (s : State), dramRefusal r s = none
        ∧ dramTarget s r.addr = some (c, a) ∧ r.size = 64 ∧ a % 64 = 0 ∧ u = 2 * c + a / 64 % 2 ∧ l = a / 128
        ∧ queued (s.sub u) l = none ∧ decodeStored s c u l = some ([], w))
    ∧ (∃ (r : Req) (c : Nat) (a : Nat) (u : Nat) (l : Nat) (p : Nat) (ps : List Nat) (w : List Nat) (s : State),
        dramRefusal r s = none ∧ dramTarget s r.addr = some (c, a) ∧ r.size = 64 ∧ a % 64 = 0 ∧ u = 2 * c + a / 64 % 2
        ∧ l = a / 128 ∧ queued (s.sub u) l = none ∧ decodeStored s c u l = some (p :: ps, w))
    ∧ (∃ (r : Req) (c : Nat) (a : Nat) (u : Nat) (l : Nat) (s : State), dramRefusal r s = none
        ∧ dramTarget s r.addr = some (c, a) ∧ r.size = 64 ∧ a % 64 = 0 ∧ u = 2 * c + a / 64 % 2 ∧ l = a / 128
        ∧ queued (s.sub u) l = none ∧ decodeStored s c u l = none)
    ∧ (∃ (r : Req) (c : Nat) (a : Nat) (u : Nat) (l : Nat) (s : State), dramRefusal r s = none
        ∧ dramTarget s r.addr = some (c, a) ∧ r.size = 64 ∧ a % 64 = 0 ∧ r.enables = 2 ^ 64 - 1 ∧ r.data.length = 64
        ∧ u = 2 * c + a / 64 % 2 ∧ l = a / 128 ∧ (s.sub u).queue.length < 64)
    ∧ (∃ (r : Req) (c : Nat) (a : Nat) (u : Nat) (l : Nat) (o : Nat) (old : Nat) (s : State), ((∃ v,
        queued (s.sub u) l = some v ∧ old = lineData v) ∨ (queued (s.sub u) l = none ∧ ∃ w, decodeStored s c u l = some ([], w)
        ∧ old = ofSymbols (w.drop 16))) ∧ dramRefusal r s = none ∧ dramTarget s r.addr = some (c, a) ∧ o = a % 64
        ∧ o + r.size ≤ 64 ∧ r.size < 64 ∧ r.enables = 2 ^ r.size - 1 ∧ r.data.length = r.size ∧ u = 2 * c + a / 64 % 2
        ∧ l = a / 128 ∧ (s.sub u).queue.length < 64)
    ∧ (∃ (r : Req) (c : Nat) (a : Nat) (u : Nat) (l : Nat) (s : State), dramRefusal r s = none
        ∧ dramTarget s r.addr = some (c, a) ∧ a % 64 + r.size < 64 ∧ u = 2 * c + a / 64 % 2 ∧ l = a / 128
        ∧ queued (s.sub u) l = none ∧ decodeStored s c u l = none) :=
  ⟨⟨0x18000000000, by decide +kernel⟩,
   ⟨BD, 0x10000000000 + 255, 255, 2 ^ 31, 1, 0, 255, by decide +kernel⟩,
   ⟨{ dr 8 1 with src := ⟨2, 0⟩ }, BD, by decide +kernel⟩,
   ⟨dr 64 192, 0, 192, BD, by decide +kernel⟩,
   ⟨{ dr 64 192 with src := ⟨3, 0⟩ }, 0, 192, Hd BD, by decide +kernel⟩,
   ⟨dr 0 0, 1, BD, by decide +kernel⟩,
   ⟨dr 64 192, 0, 192, 1, 1, 77, Dd fun d => { d with subs := [(1, { queue := [(1, 76), (1, 77)] })] }, by decide +kernel⟩,
   ⟨dr 64 192, 0, 192, 1, 1, (let s : State := BD; ((decodeStored s 0 1 1).getD ([], [])).2), BD, by decide +kernel⟩,
   ⟨dr 64 192, 0, 192, 1, 1,
       (let s : State := Dd fun d => { d with lines := [(lineKey 1 1, 1)] }; lget 0 ((decodeStored s 0 1 1).getD ([],
       [])).1 0), (let s : State := Dd fun d => { d with lines := [(lineKey 1 1, 1)] }; ((decodeStored s 0 1 1).getD ([],
       [])).1.drop 1), (let s : State := Dd fun d => { d with lines := [(lineKey 1 1, 1)] }; ((decodeStored s 0 1 1).getD ([],
       [])).2), Dd fun d => { d with lines := [(lineKey 1 1, 1)] }, by decide +kernel⟩,
   ⟨dr 64 192, 0, 192, 1, 1, Dd fun d => { d with lines := [(lineKey 1 1, 0x123456789ABCDEF123456789ABCDEF123456789ABCDEF)] },
       by decide +kernel⟩,
   ⟨dr 64 192, 0, 192, 1, 1, BD, by decide +kernel⟩,
   ⟨dr 31 193, 0, 193, 1, 1, 1, lineData 77, Dd fun d => { d with subs := [(1, { queue := [(1, 76), (1, 77)] })] },
       Or.inl ⟨77, by decide +kernel, rfl⟩, by decide +kernel⟩,
   ⟨dr 31 193, 0, 193, 1, 1, Dd fun d => { d with lines := [(lineKey 1 1, 0x123456789ABCDEF123456789ABCDEF123456789ABCDEF)] },
       by decide +kernel⟩⟩

theorem witness_DramEvents :
    (∃ (c : Nat) (s : State), c < 8 ∧ chanPowered (s.chan c) = true)
    ∧ (∃ (c : Nat) (s : State), c < 8 ∧ chanPowered (s.chan c) = true)
    ∧ (∃ (c : Nat) (s : State), chanPowered (s.chan c) = false)
    ∧ (∃ (c : Nat) (s : State), c < 8 ∧ (s.chan c).state = .ready)
    ∧ (∃ (row : Nat) (t : List (Nat × Nat)), t.length < 16 ∧ (∀ e ∈ t, e.1 ≠ row))
    ∧ (∃ (row : Nat) (n : Nat) (t : List (Nat × Nat)), (t.map (·.1)).Nodup ∧ (row, n) ∈ t)
    ∧ (∃ (row : Nat) (t : List (Nat × Nat)), t.length = 16 ∧ (∀ e ∈ t, e.1 ≠ row))
    ∧ (∃ (c : Nat) (u : Nat) (l : Nat) (b : Nat) (t : List (Nat × Nat)) (s : State), b = bankOf (s.chan c) l
        ∧ t = countRow (rowOf (s.chan c) l) (tget [] (s.sub u).rows b) ∧ (∀ e ∈ t, e.2 < (s.chan c).actThresh))
    ∧ (∃ (c : Nat) (u : Nat) (l : Nat) (b : Nat) (row : Nat) (n : Nat) (t : List (Nat × Nat)) (s : State),
        b = bankOf (s.chan c) l ∧ t = countRow (rowOf (s.chan c) l) (tget [] (s.sub u).rows b) ∧ (s.chan c).rfmEn = true
        ∧ 0 < (s.chan c).actThresh ∧ (row, n) ∈ t ∧ (s.chan c).actThresh ≤ n ∧ (∀ e ∈ t, e.1 ≠ row
        → e.2 < (s.chan c).actThresh))
    ∧ (∃ (c : Nat), c < 8)
    ∧ (∃ (u : Nat) (s : State), u < 16 ∧ s.dev.mode = .safe)
    ∧ (∃ (u : Nat) (v : Nat) (s : State), u < 16 ∧ (s.dev.mode = .run ∨ s.dev.mode = .trim) ∧ (s.sub u).mark0 = true
        ∧ (s.sub u).mark1 = true ∧ bit v 7 = false ∧ bit v 15 = false)
    ∧ (∃ (u : Nat) (v : Nat) (s : State), u < 16 ∧ (s.dev.mode = .run ∨ s.dev.mode = .trim) ∧ (s.sub u).mark0 = false
        ∧ (s.sub u).mark1 = true ∧ bit v 7 = true ∧ bit v 15 = false)
    ∧ (∃ (c : Nat) (s : State), c < 8 ∧ scrubMode s = true ∧ (s.chan c).state = .ready ∧ (s.chan c).scrubEn = true
        ∧ (s.chan c).burst = false ∧ (s.chan c).waitGrant = false)
    ∧ (∃ (c : Nat) (s : State), (scrubMode s = false ∨ (s.chan c).scrubEn = false ∨ (s.chan c).state ≠ .ready))
    ∧ (∃ (c : Nat) (s : State), c < 8 ∧ (s.chan c).burst = true ∧ scrubMode s = true ∧ (s.chan c).state = .ready
        ∧ (s.sub (2 * c + (s.chan c).nextLine % 2)).frozen = true ∧ (s.chan c).nextLine + 1 < chanLines (s.chan c)
        ∧ 2 ≤ (s.chan c).burstLeft)
    ∧ (∃ (c : Nat) (s : State), c < 8 ∧ (s.chan c).burst = true ∧ scrubMode s = true ∧ (s.chan c).state = .ready
        ∧ (s.sub (2 * c + (s.chan c).nextLine % 2)).frozen = false ∧ (s.chan c).nextLine + 1 < chanLines (s.chan c)
        ∧ 2 ≤ (s.chan c).burstLeft ∧ (queued (s.sub (2 * c + (s.chan c).nextLine % 2)) ((s.chan c).nextLine / 2)).isSome = true)
    ∧ (∃ (c : Nat) (u : Nat) (l : Nat) (p : Nat) (ps : List Nat) (w : List Nat) (s : State), c < 8 ∧ (s.chan c).burst = true
        ∧ scrubMode s = true ∧ (s.chan c).state = .ready ∧ u = 2 * c + (s.chan c).nextLine % 2 ∧ l = (s.chan c).nextLine / 2
        ∧ (s.sub u).frozen = false ∧ queued (s.sub u) l = none ∧ decodeStored s c u l = some (p :: ps, w)
        ∧ (s.chan c).nextLine + 1 < chanLines (s.chan c) ∧ 2 ≤ (s.chan c).burstLeft)
    ∧ (∃ (c : Nat) (s : State), c < 8 ∧ (s.chan c).burst = true ∧ scrubMode s = true ∧ (s.chan c).state = .ready
        ∧ (s.sub (2 * c + (s.chan c).nextLine % 2)).frozen = true ∧ chanLines (s.chan c) ≤ (s.chan c).nextLine + 1
        ∧ (s.chan c).burstLeft = 1)
    ∧ (∃ (c : Nat) (s : State), c < 8 ∧ (s.chan c).burst = true ∧ (scrubMode s = false ∨ (s.chan c).state ≠ .ready))
    ∧ (∃ (c : Nat) (s : State), (s.chan c).burst = false) :=
  ⟨⟨7, Ch { state := .ready }, by decide +kernel⟩,
   ⟨7, Ch { state := .ready, postponed := 4 }, by decide +kernel⟩,
   ⟨7, Ch {}, by decide +kernel⟩,
   ⟨7, Ch { state := .ready, rfmEn := true }, by decide +kernel⟩,
   ⟨9, (List.range 9).map fun i => (i, 3), by decide +kernel⟩,
   ⟨8, 3, (List.range 16).map fun i => (i, 3), by decide +kernel⟩,
   ⟨99, (List.range 16).map fun i => (i, 3), by decide +kernel⟩,
   ⟨7, 15, 2 ^ 29 - 1, bankOf {} (2 ^ 29 - 1), countRow (rowOf {} (2 ^ 29 - 1)) [(5, 4095)],
       Ch { state := .ready } { rows := [(bankOf {} (2 ^ 29 - 1), [(5, 4095)])] }, by decide +kernel⟩,
   ⟨7, 15, 0, 0, 0, 4096, [(0, 4096), (5, 4095)],
       Ch { state := .ready, rfmEn := true } { rows := [(0, [(0, 4095), (5, 4095)])] }, by decide +kernel⟩,
   ⟨7, by decide +kernel⟩,
   ⟨15, { Ch { state := .ready } { mark0 := true } with dev := { BR.dev with mode := .safe } }, by decide +kernel⟩,
   ⟨15, 0, Ch { state := .ready } { mark0 := true, mark1 := true }, by decide +kernel⟩,
   ⟨15, 137, Ch { state := .ready } { mark1 := true, chip1 := 9 }, by decide +kernel⟩,
   ⟨7, Ch { state := .ready }, by decide +kernel⟩,
   ⟨7, Ch { state := .ready, scrubEn := false }, by decide +kernel⟩,
   ⟨7, Ch { state := .ready, burst := true, burstLeft := 2, nextLine := 3 } { frozen := true }, by decide +kernel⟩,
   ⟨7, Ch { state := .ready, burst := true, burstLeft := 2, nextLine := 3 } { queue := [(1, 5)] }, by decide +kernel⟩,
   ⟨7, 15, 1, (let s : State := Ch { state := .ready, burst := true, burstLeft := 2, nextLine := 3 } {} fun d => { d with lines := [(lineKey 15 1, 1)] }; lget 0 ((decodeStored s 7 15 1).getD ([],
       [])).1 0),
       (let s : State := Ch { state := .ready, burst := true, burstLeft := 2, nextLine := 3 } {} fun d => { d with lines := [(lineKey 15 1, 1)] }; ((decodeStored s 7 15 1).getD ([],
       [])).1.drop 1),
       (let s : State := Ch { state := .ready, burst := true, burstLeft := 2, nextLine := 3 } {} fun d => { d with lines := [(lineKey 15 1, 1)] }; ((decodeStored s 7 15 1).getD ([],
       [])).2), Ch { state := .ready, burst := true, burstLeft := 2, nextLine := 3 } {} fun d => { d with lines := [(lineKey 15 1, 1)] },
       by decide +kernel⟩,
   ⟨7, Ch { state := .ready, burst := true, burstLeft := 1, nextLine := chanLines { populated := true } - 1 } { frozen := true },
       by decide +kernel⟩,
   ⟨7, Hd (Ch { state := .ready, burst := true, burstLeft := 1 }), by decide +kernel⟩,
   ⟨7, BR, by decide +kernel⟩⟩

theorem witness_ChannelStates :
    (∃ (c : Nat) (s : State), c < 8 ∧ (s.chan c).state = .init)
    ∧ (∃ (c : Nat) (width : Nat) (nibble : Nat) (s : State), c < 8 ∧ (s.chan c).state = .sweep ∧ width < 65536 ∧ nibble < 10)
    ∧ (∃ (c : Nat) (s : State), c < 8 ∧ (s.chan c).state = .sweep ∧ (s.chan c).pendingEnable = false)
    ∧ (∃ (c : Nat) (s : State), c < 8 ∧ (s.chan c).state = .filling ∧ s.dev.ready.clock = true)
    ∧ (∃ (c : Nat) (s : State), c < 8 ∧ (s.chan c).state = .draining ∧ (s.chan c).pendingEnable = false
        ∧ (∀ e ∈ s.noc.waiting, 8 * e.1.destPier + e.1.destPort ≠ dramPort c) ∧ s.dev.ready.clock = true)
    ∧ (∃ (c : Nat) (e : Packet × Nat) (s : State), e ∈ s.noc.waiting ∧ 8 * e.1.destPier + e.1.destPort = dramPort c)
    ∧ (∃ (c : Nat) (s : State), c < 8 ∧ (s.chan c).state = .ready ∧ s.dev.ready.clock = false ∧ (derive s).clock = false
        ∧ (s.sub (2 * c)).frozen = false ∧ (s.sub (2 * c + 1)).frozen = false)
    ∧ (∃ (u : Nat) (mode : Nat) (s : State), u < 16 ∧ (s.sub u).unfreezing = some mode ∧ mode ≤ 1 ∧ (s.sub u).queue = [])
    ∧ (∃ (u : Nat) (s : State), u < 16 ∧ (s.sub u).unfreezing = some 2)
    ∧ (∃ (u : Nat) (s : State), (s.sub u).unfreezing = none)
    ∧ (∃ (c : Nat) (s : State), (s.chan c).state = .off) :=
  ⟨⟨7, Ch { state := .init }, by decide +kernel⟩,
   ⟨7, 65535, 9, Ch { state := .sweep, sweep := some true }, by decide +kernel⟩,
   ⟨7, Ch { state := .sweep, sweep := some false }, by decide +kernel⟩,
   ⟨7, Ch { state := .filling }, by decide +kernel⟩,
   ⟨7, Ch { state := .draining }, by decide +kernel⟩,
   ⟨7, ({ pkt0 with destPier := dramPort 7 / 8, destPort := dramPort 7 % 8 }, 5),
       { Ch { state := .draining } with noc := { BR.noc with waiting := [({ pkt0 with destPier := dramPort 7 / 8, destPort := dramPort 7 % 8 }, 5)] } },
       by decide +kernel⟩,
   ⟨7, { Ch { state := .ready } with clk := { B.clk with lock := false }, dev := { BR.dev with ready := { BR.dev.ready with clock := false } } },
       by decide +kernel⟩,
   ⟨15, 1, Ch { state := .ready } { frozen := true, unfreezing := some 1 }, by decide +kernel⟩,
   ⟨15, Ch { state := .ready } { frozen := true, unfreezing := some 2 }, by decide +kernel⟩,
   ⟨15, BR, by decide +kernel⟩,
   ⟨7, BR, by decide +kernel⟩⟩

theorem witness_DramCommands :
    (∃ (q : CmdCtx) (c : Nat) (s : State), c < 8 ∧ MayIssue q 0x0901 2 s ∧ (s.chan c).populated = true
        ∧ s.sec.scm.keyFail = false ∧ s.dev.mode = .safe ∧ (s.chan c).state = .ready)
    ∧ (∃ (q : CmdCtx) (c : Nat) (s : State), c < 8 ∧ MayIssue q 0x0901 2 s ∧ (s.chan c).populated = true
        ∧ s.sec.scm.keyFail = false ∧ s.dev.mode = .safe ∧ (s.chan c).state = .off ∧ s.sec.scm.keyReady = false)
    ∧ (∃ (q : CmdCtx) (c : Nat) (s : State), c < 8 ∧ MayIssue q 0x0901 2 s ∧ (s.chan c).populated = true
        ∧ s.sec.scm.keyFail = false ∧ s.dev.mode = .safe ∧ (s.chan c).state = .off ∧ s.sec.scm.keyReady = true)
    ∧ (∃ (q : CmdCtx) (c : Nat) (s : State), c < 8 ∧ MayIssue q 0x0901 2 s ∧ (s.chan c).populated = true
        ∧ s.sec.scm.keyFail = false ∧ s.dev.mode = .safe ∧ (s.chan c).state = .off ∧ (∀ m, m < 18 → (s.mailbox m).tasks = []))
    ∧ (∃ (q : CmdCtx) (c : Nat) (s : State), c < 8 ∧ MayIssue q 0x0901 2 s ∧ (s.chan c).populated = true
        ∧ s.sec.scm.keyFail = false ∧ s.dev.mode = .safe ∧ (s.chan c).state = .waitGrant ∧ (∀ m, m < 18
        → (s.mailbox m).tasks = []))
    ∧ (∃ (q : CmdCtx) (c : Nat) (s : State), c < 8 ∧ MayIssue q 0x0901 2 s ∧ (s.chan c).populated = true
        ∧ s.sec.scm.keyFail = false ∧ s.dev.mode = .safe ∧ (s.chan c).state = .ready ∧ (∀ m, m < 18 → (s.mailbox m).tasks = [])
        ∧ s.dev.ready.clock = true)
    ∧ (∃ (q : CmdCtx) (c : Nat) (en : Nat) (s : State), c < 256 ∧ en < 256 ∧ MayIssue q 0x0901 2 s
        ∧ (8 ≤ c ∨ 2 ≤ en ∨ (s.chan c).populated = false))
    ∧ (∃ (q : CmdCtx) (c : Nat) (en : Nat) (s : State), c < 256 ∧ en < 256 ∧ MayIssue q 0x0901 2 s ∧ c < 8 ∧ en < 2
        ∧ (s.chan c).populated = true ∧ s.sec.scm.keyFail = true)
    ∧ (∃ (q : CmdCtx) (c : Nat) (en : Nat) (s : State), c < 256 ∧ en < 256 ∧ MayIssue q 0x0901 2 s ∧ c < 8 ∧ en < 2
        ∧ (s.chan c).populated = true ∧ s.sec.scm.keyFail = false ∧ s.dev.mode ≠ .safe)
    ∧ (∃ (q : CmdCtx) (c : Nat) (s : State), 8 ≤ c ∧ c < 256 ∧ MayIssue q 0x0902 1 s)
    ∧ (∃ (q : CmdCtx) (u : Nat) (mode : Nat) (s : State), u < 16 ∧ mode ≤ 2 ∧ MayIssue q 0x0903 2 s ∧ (s.sub u).frozen = true
        ∧ ((s.sub u).cause ≠ .caParity ∨ mode = 2) ∧ (s.dev.mode = .safe ∨ s.dev.mode = .hold) ∧ (s.sub u).unfreezing = none)
    ∧ (∃ (q : CmdCtx) (u : Nat) (mode : Nat) (s : State), u < 16 ∧ mode ≤ 2 ∧ MayIssue q 0x0903 2 s ∧ (s.sub u).frozen = true
        ∧ ((s.sub u).cause ≠ .caParity ∨ mode = 2) ∧ (s.dev.mode = .safe ∨ s.dev.mode = .hold)
        ∧ (s.sub u).unfreezing.isSome = true)
    ∧ (∃ (q : CmdCtx) (u : Nat) (mode : Nat) (s : State), u < 256 ∧ mode < 256 ∧ MayIssue q 0x0903 2 s
        ∧ (16 ≤ u ∨ 3 ≤ mode ∨ ((s.sub u).cause = .caParity ∧ mode ≠ 2)))
    ∧ (∃ (q : CmdCtx) (u : Nat) (mode : Nat) (s : State), u < 256 ∧ mode < 256 ∧ MayIssue q 0x0903 2 s ∧ u < 16 ∧ mode < 3
        ∧ ((s.sub u).cause ≠ .caParity ∨ mode = 2) ∧ ((s.sub u).frozen = false ∨ (s.dev.mode ≠ .safe ∧ s.dev.mode ≠ .hold)))
    ∧ (∃ (q : CmdCtx) (c : Nat) (keep : Nat) (s : State), c < 8 ∧ keep ≤ 1 ∧ MayIssue q 0x0904 2 s
        ∧ (s.chan c).populated = true ∧ s.sec.scm.keyFail = false ∧ s.dev.mode = .safe ∧ (s.chan c).state = .ready
        ∧ s.dev.ready.clock = true)
    ∧ (∃ (q : CmdCtx) (c : Nat) (keep : Nat) (s : State), c < 8 ∧ keep ≤ 1 ∧ MayIssue q 0x0904 2 s
        ∧ (s.chan c).populated = true ∧ s.sec.scm.keyFail = false ∧ s.dev.mode = .safe ∧ (s.chan c).state = .off
        ∧ s.sec.scm.keyReady = true)
    ∧ (∃ (q : CmdCtx) (c : Nat) (keep : Nat) (s : State), c < 8 ∧ keep ≤ 1 ∧ MayIssue q 0x0904 2 s
        ∧ (s.chan c).populated = true ∧ s.sec.scm.keyFail = false ∧ s.dev.mode = .safe ∧ (s.chan c).state ≠ .ready
        ∧ (s.chan c).state ≠ .off)
    ∧ (∃ (q : CmdCtx) (c : Nat) (keep : Nat) (s : State), c < 256 ∧ keep < 256 ∧ MayIssue q 0x0904 2 s
        ∧ (8 ≤ c ∨ 2 ≤ keep ∨ (s.chan c).populated = false))
    ∧ (∃ (q : CmdCtx) (c : Nat) (keep : Nat) (s : State), c < 256 ∧ keep < 256 ∧ MayIssue q 0x0904 2 s ∧ c < 8 ∧ keep < 2
        ∧ (s.chan c).populated = true ∧ s.sec.scm.keyFail = true)
    ∧ (∃ (q : CmdCtx) (c : Nat) (keep : Nat) (s : State), c < 256 ∧ keep < 256 ∧ MayIssue q 0x0904 2 s ∧ c < 8 ∧ keep < 2
        ∧ (s.chan c).populated = true ∧ s.sec.scm.keyFail = false ∧ s.dev.mode ≠ .safe)
    ∧ (∃ (q : CmdCtx) (u : Nat) (rank : Nat) (chip : Nat) (s : State), u < 16 ∧ rank < 2 ∧ chip ≤ 9 ∧ MayIssue q 0x0905 3 s
        ∧ rank < (s.chan (u / 2)).ranks ∧ ((s.dev.mode ≠ .run ∧ s.dev.mode ≠ .trim) ∨ markOf (s.sub u) rank = none))
    ∧ (∃ (q : CmdCtx) (u : Nat) (rank : Nat) (s : State), u < 16 ∧ rank < 2 ∧ MayIssue q 0x0905 3 s
        ∧ rank < (s.chan (u / 2)).ranks ∧ s.dev.mode = .safe)
    ∧ (∃ (q : CmdCtx) (u : Nat) (rank : Nat) (chip : Nat) (k : Nat) (s : State), u < 16 ∧ rank < 2 ∧ (chip ≤ 9 ∨ chip = 0xFF)
        ∧ MayIssue q 0x0905 3 s ∧ rank < (s.chan (u / 2)).ranks ∧ markOf (s.sub u) rank = some k ∧ k ≠ chip
        ∧ (s.dev.mode = .run ∨ s.dev.mode = .trim))
    ∧ (∃ (q : CmdCtx) (u : Nat) (rank : Nat) (chip : Nat) (s : State), u < 256 ∧ rank < 256 ∧ chip < 256
        ∧ MayIssue q 0x0905 3 s ∧ (16 ≤ u ∨ (s.chan (u / 2)).ranks ≤ rank ∨ (10 ≤ chip ∧ chip ≠ 0xFF))) :=
  ⟨⟨Q, 7, { Ch { state := .ready } with dev := { BR.dev with mode := .safe } }, by decide +kernel⟩,
   ⟨Q, 7, { Ch {} with dev := { BR.dev with mode := .safe } }, by decide +kernel⟩,
   ⟨Q, 7, Sf (Ky true false (Ch {})), by decide +kernel⟩,
   ⟨Q, 7, Sf (Ch {}), by decide +kernel⟩,
   ⟨Q, 7, Sf (Ch { state := .waitGrant }), by decide +kernel⟩,
   ⟨Q, 7, { Ch { state := .ready } with dev := { BR.dev with mode := .safe } }, by decide +kernel⟩,
   ⟨Q, 8, 1, BR, by decide +kernel⟩,
   ⟨Q, 7, 1, Ky false true (Ch {}), by decide +kernel⟩,
   ⟨Q, 7, 1, Ch {}, by decide +kernel⟩,
   ⟨Q, 8, BR, by decide +kernel⟩,
   ⟨Q, 15, 2, Sf (Ch { state := .ready } { frozen := true, cause := .caParity }), by decide +kernel⟩,
   ⟨Q, 15, 2, Sf (Ch { state := .ready } { frozen := true, cause := .caParity, unfreezing := some 2 }), by decide +kernel⟩,
   ⟨Q, 16, 2, BR, by decide +kernel⟩,
   ⟨Q, 15, 2, BR, by decide +kernel⟩,
   ⟨Q, 7, 1, { Ch { state := .ready } with dev := { BR.dev with mode := .safe } }, by decide +kernel⟩,
   ⟨Q, 7, 1, Sf (Ky true false (Ch {})), by decide +kernel⟩,
   ⟨Q, 7, 1, Sf (Ch { state := .init }), by decide +kernel⟩,
   ⟨Q, 8, 1, BR, by decide +kernel⟩,
   ⟨Q, 7, 1, Ky false true (Ch {}), by decide +kernel⟩,
   ⟨Q, 7, 1, Ch {}, by decide +kernel⟩,
   ⟨Q, 15, 1, 9, Ch { state := .ready, ranks := 2 }, by decide +kernel⟩,
   ⟨Q, 15, 1, Sf (Ch { state := .ready, ranks := 2 }), by decide +kernel⟩,
   ⟨Q, 15, 1, 0xFF, 9, Ch { state := .ready, ranks := 2 } { mark1 := true, chip1 := 9 }, by decide +kernel⟩,
   ⟨Q, 15, 2, 9, Ch { state := .ready, ranks := 2 }, by decide +kernel⟩⟩

theorem witness_ReceiveStreams :
    (∃ (k : Bool) (v : Nat), v < 256 ∧ (k = true → validK v = true))
    ∧ (∃ (b : List Nat) (last : Nat), (∀ x ∈ b, x < 2) ∧ b.length % 2 = 0 ∧ last < 4)
    ∧ (∃ (l : Nat) (v : Nat) (n : Nat) (s : State) (b : _), streamLane s l = true ∧ laneMode s l = 2 ∧ (s.lane l).rxEn = true
        ∧ (s.lane l).rxLock = true ∧ (s.lane l).los = false ∧ (s.lane l).coding = 0 ∧ (s.lane l).prbs = 0
        ∧ (s.lane l).rxInv = false ∧ v < 256 ∧ n = 256 - (s.lane l).rxNext % 256 ∧ b = (s.lane l).rxBuf ++ [BitVec.ofNat 8 v]
        ∧ (s.lane l).rxStopped = true)
    ∧ (∃ (l : Nat) (v : Nat) (n : Nat) (s : State) (b : _), streamLane s l = true ∧ laneMode s l = 2 ∧ (s.lane l).rxEn = true
        ∧ (s.lane l).rxLock = true ∧ (s.lane l).los = false ∧ (s.lane l).coding = 0 ∧ (s.lane l).prbs = 0
        ∧ (s.lane l).rxInv = false ∧ v < 256 ∧ n = 256 - (s.lane l).rxNext % 256 ∧ b = (s.lane l).rxBuf ++ [BitVec.ofNat 8 v]
        ∧ (s.lane l).rxStopped = false ∧ b.length < n)
    ∧ (∃ (l : Nat) (v : Nat) (n : Nat) (s : State) (b : _), streamLane s l = true ∧ laneMode s l = 2 ∧ (s.lane l).rxEn = true
        ∧ (s.lane l).rxLock = true ∧ (s.lane l).los = false ∧ (s.lane l).coding = 0 ∧ (s.lane l).prbs = 0
        ∧ (s.lane l).rxInv = false ∧ v < 256 ∧ n = 256 - (s.lane l).rxNext % 256 ∧ b = (s.lane l).rxBuf ++ [BitVec.ofNat 8 v]
        ∧ (s.lane l).rxStopped = false ∧ b.length = n ∧ (s.lane l).rxOut.length < 8
        ∧ ((s.lane l).freeRun = true ∨ ringFill ((s.lane l).rxNext + n) (s.lane l).rxRptr ≤ 2 ^ (s.lane l).rxSize))
    ∧ (∃ (l : Nat) (v : Nat) (n : Nat) (s : State) (b : _), streamLane s l = true ∧ laneMode s l = 2 ∧ (s.lane l).rxEn = true
        ∧ (s.lane l).rxLock = true ∧ (s.lane l).los = false ∧ (s.lane l).coding = 0 ∧ (s.lane l).prbs = 0
        ∧ (s.lane l).rxInv = false ∧ v < 256 ∧ n = 256 - (s.lane l).rxNext % 256 ∧ b = (s.lane l).rxBuf ++ [BitVec.ofNat 8 v]
        ∧ (s.lane l).rxStopped = false ∧ b.length = n ∧ (s.lane l).rxOut.length < 8 ∧ (s.lane l).freeRun = false
        ∧ 2 ^ (s.lane l).rxSize < ringFill ((s.lane l).rxNext + n) (s.lane l).rxRptr)
    ∧ (∃ (l : Nat) (s : State),
        (streamLane s l = false ∨ (s.lane l).rxEn = false ∨ (s.lane l).rxLock = false ∨ (s.lane l).los = true))
    ∧ (∃ (l : Nat) (v : Nat) (c : Nat) (k : Bool) (s : State), streamLane s l = true ∧ laneMode s l = 2
        ∧ (s.lane l).rxEn = true ∧ (s.lane l).rxLock = true ∧ (s.lane l).los = false ∧ (s.lane l).coding = 1
        ∧ (s.lane l).prbs = 0 ∧ (s.lane l).align = 0 ∧ (s.lane l).format = 0 ∧ (s.lane l).rxInv = false
        ∧ (s.lane l).rxStopped = false ∧ (s.lane l).rxBuf.length + 2 < 256 - (s.lane l).rxNext % 256
        ∧ decode8b10b (natList 10 v) (s.lane l).rxDisp = ⟨k, c, false, false⟩)
    ∧ (∃ (l : Nat) (u : Nat) (s : State), streamLane s l = true ∧ (s.lane l).rxEn = true ∧ (s.lane l).rxFlush ≠ 0
        ∧ (s.lane l).rxStopped = false ∧ (s.lane l).rxOut.length < 8 ∧ (s.lane l).freeRun = true ∧ (s.lane l).rxNext % 32 = 0
        ∧ (s.lane l).rxNext < 2 ^ 32 ∧ (s.lane l).rxBuf.length < 256 - (s.lane l).rxNext % 256
        ∧ u = (s.lane l).rxBuf.length / 32 * 32 ∧ 0 < u)
    ∧ (∃ (l : Nat) (s : State), ((s.lane l).rxFlush = 0 ∨ (s.lane l).rxStopped = true ∨ (s.lane l).rxEn = false))
    ∧ (∃ (l : Nat) (code : Nat) (other : Nat) (r : RxWrite) (rest : List RxWrite) (u : State) (s : State), l < 80
        ∧ (s.lane l).rxOut = r :: rest ∧ r.answered = false ∧ (∀ w ∈ rest, w.answered = false)
        ∧ moverWrite r.addr r.data other s = (code, u) ∧ code = 0 ∧ (s.lane l).rxBuf = [])
    ∧ (∃ (l : Nat) (code : Nat) (other : Nat) (r : RxWrite) (rest : List RxWrite) (u : State) (s : State), l < 80
        ∧ (s.lane l).rxOut = r :: rest ∧ r.answered = false ∧ (∀ w ∈ rest, w.answered = false)
        ∧ moverWrite r.addr r.data other s = (code, u) ∧ code ≠ 0)
    ∧ (∃ (l : Nat) (v : Nat) (s : State), l < 80 ∧ v < 2 ^ 32 ∧ (s.lane l).freeRun = true)
    ∧ (∃ (l : Nat) (v : Nat) (s : State), l < 80 ∧ v < 2 ^ 32 ∧ (s.lane l).freeRun = false
        ∧ ringFill v (s.lane l).rxRptr ≤ ringFill (s.lane l).rxWptr (s.lane l).rxRptr)
    ∧ (∃ (l : Nat) (v : Nat) (s : State), l < 80 ∧ v < 2 ^ 32 ∧ (s.lane l).freeRun = false
        ∧ ringFill (s.lane l).rxWptr (s.lane l).rxRptr < ringFill v (s.lane l).rxRptr) :=
  ⟨⟨true, 0xFE, by decide +kernel⟩,
   ⟨[1, 0, 1, 1], 3, by decide +kernel⟩,
   ⟨79, 255, 1, Ln { rx0 with rxNext := 255, rxStopped := true }, [255#8], by decide +kernel⟩,
   ⟨79, 255, 2, Ln { rx0 with rxNext := 254 }, [255#8], by decide +kernel⟩,
   ⟨79, 255, 1, Ln { rx0 with rxNext := 4095 }, [255#8], by decide +kernel⟩,
   ⟨79, 255, 1, Ln { rx0 with rxNext := 4351 }, [255#8], by decide +kernel⟩,
   ⟨80, BR, by decide +kernel⟩,
   ⟨79, 0x0B9, 0, false, Ln { rx0 with coding := 1, align := 0 }, by decide +kernel⟩,
   ⟨79, 32, Ln { rx0 with rxFlush := 1, freeRun := true, rxNext := 32, rxBuf := List.replicate 63 1 }, by decide +kernel⟩,
   ⟨79, BR, by decide +kernel⟩,
   ⟨79, 0, 0, rR, [⟨1, [8], 1, false⟩],
       (let s : State := Mr (Ln { rx0 with rxOut := [rR, ⟨1, [8], 1, false⟩] }); (moverWrite 0 [7] 0 s).2),
       Mr (Ln { rx0 with rxOut := [rR, ⟨1, [8], 1, false⟩] }), by decide +kernel⟩,
   ⟨79, 4, 4, rR, [⟨1, [8], 1, false⟩],
       (let s : State := Mr (Ln { rx0 with rxOut := [rR, ⟨1, [8], 1, false⟩] }); (moverWrite 0 [7] 4 s).2),
       Mr (Ln { rx0 with rxOut := [rR, ⟨1, [8], 1, false⟩] }), by decide +kernel⟩,
   ⟨79, 2 ^ 32 - 1, Ln { rx0 with freeRun := true }, by decide +kernel⟩,
   ⟨79, 9, Ln { rx0 with rxWptr := 9 }, by decide +kernel⟩,
   ⟨79, 10, Ln { rx0 with rxWptr := 9 }, by decide +kernel⟩⟩

theorem witness_TransmitStreams :
    (∃ (l : Nat) (v : Nat) (n : Nat) (s : State), streamLane s l = true ∧ (s.lane l).txEn = true ∧ (s.lane l).txStopped = false
        ∧ (s.lane l).prbs = 0 ∧ (s.lane l).txBuf = [] ∧ (s.lane l).txOut = [] ∧ (s.lane l).txNext = (s.lane l).txRptr
        ∧ (s.lane l).txNext < 2 ^ 32 ∧ v < 2 ^ 32 ∧ n = ringFill v (s.lane l).txRptr ∧ 0 < n
        ∧ n ≤ 256 - (s.lane l).txNext % 256 ∧ n ≤ 2 ^ (s.lane l).txSize)
    ∧ (∃ (l : Nat) (v : Nat) (s : State), l < 80 ∧ v < 2 ^ 32 ∧ 2 ^ (s.lane l).txSize < ringFill v (s.lane l).txRptr)
    ∧ (∃ (l : Nat) (code : Nat) (other : Nat) (r : TxRead) (d : List Byte) (data : List Byte) (u : State) (s : State), l < 80
        ∧ (s.lane l).txOut = [r] ∧ r.data = none ∧ (s.lane l).txStopped = false ∧ (s.lane l).txWptr = (s.lane l).txNext
        ∧ moverRead r.addr r.len (other, data) s = ((code, d), u) ∧ code = 0)
    ∧ (∃ (l : Nat) (code : Nat) (other : Nat) (r : TxRead) (d : List Byte) (data : List Byte) (u : State) (s : State), l < 80
        ∧ (s.lane l).txOut = [r] ∧ r.data = none ∧ (s.lane l).txStopped = false ∧ (s.lane l).txWptr = (s.lane l).txNext
        ∧ moverRead r.addr r.len (other, data) s = ((code, d), u) ∧ code ≠ 0)
    ∧ (∃ (l : Nat) (b : Byte) (rest : List Byte) (s : State), streamLane s l = true ∧ laneMode s l = 2 ∧ (s.lane l).txEn = true
        ∧ (s.lane l).prbs = 0 ∧ (s.lane l).txInv = false ∧ (s.lane l).txWptr = (s.lane l).txNext ∧ (s.lane l).coding = 0
        ∧ (s.lane l).txStopped = false ∧ (s.lane l).txBuf = b :: rest)
    ∧ (∃ (l : Nat) (s : State), streamLane s l = true ∧ laneMode s l = 2 ∧ (s.lane l).txEn = true ∧ (s.lane l).prbs = 0
        ∧ (s.lane l).txInv = false ∧ (s.lane l).txWptr = (s.lane l).txNext ∧ (s.lane l).coding = 0
        ∧ ((s.lane l).txStopped = true ∨ (s.lane l).txBuf = []))
    ∧ (∃ (l : Nat) (b : Byte) (rest : List Byte) (s : State), streamLane s l = true ∧ laneMode s l = 2 ∧ (s.lane l).txEn = true
        ∧ (s.lane l).prbs = 0 ∧ (s.lane l).txInv = false ∧ (s.lane l).txWptr = (s.lane l).txNext ∧ (s.lane l).coding = 1
        ∧ (s.lane l).format = 1 ∧ (s.lane l).txStopped = false ∧ (s.lane l).txBuf = b :: rest)
    ∧ (∃ (l : Nat) (b : Byte) (c : Byte) (rest : List Byte) (s : State) (k : Bool) (w : Nat), streamLane s l = true
        ∧ laneMode s l = 2 ∧ (s.lane l).txEn = true ∧ (s.lane l).prbs = 0 ∧ (s.lane l).txInv = false
        ∧ (s.lane l).txWptr = (s.lane l).txNext ∧ (s.lane l).coding = 1 ∧ (s.lane l).format = 0 ∧ (s.lane l).txStopped = false
        ∧ (s.lane l).txBuf = b :: c :: rest ∧ k = c.getLsbD 0 ∧ w = (if k = true
        ∧ validK b.toNat = false then 0xBC else b.toNat))
    ∧ (∃ (l : Nat) (s : State) (w : _), streamLane s l = true ∧ laneMode s l = 2 ∧ (s.lane l).txEn = true ∧ (s.lane l).prbs = 0
        ∧ (s.lane l).txInv = false ∧ (s.lane l).txWptr = (s.lane l).txNext ∧ (s.lane l).coding = 1
        ∧ ((s.lane l).txStopped = true ∨ (s.lane l).txBuf = [])
        ∧ w = (if validK (s.lane l).idleK then (s.lane l).idleK else 0xBC))
    ∧ (∃ (l : Nat) (s : State), (streamLane s l = false ∨ (s.lane l).txEn = false))
    ∧ (∃ (l : Nat) (v : Nat) (s : State), l < 80 ∧ v < 2 ^ 32 ∧ (s.lane l).txEn = false ∧ (s.lane l).rxEn = false)
    ∧ (∃ (l : Nat) (v : Nat) (s : State), l < 80 ∧ v < 2 ^ 32 ∧ ((s.lane l).txEn = true ∨ (s.lane l).rxEn = true)
        ∧ laneCfgWord (laneWithCfg v (s.lane l)) ≠ laneCfgWord (s.lane l)) :=
  ⟨⟨79, 256, 256, Ln tx0, by decide +kernel⟩,
   ⟨79, 4097, Ln tx0, by decide +kernel⟩,
   ⟨79, 0, 0, ⟨0, 256, none, false⟩, List.replicate 256 7, List.replicate 256 7,
       (let s : State := Mr (Ln { tx0 with txNext := 256, txWptr := 256, txOut := [⟨0, 256, none, false⟩] }); (moverRead 0 256 (0,
       List.replicate 256 7) s).2), Mr (Ln { tx0 with txNext := 256, txWptr := 256, txOut := [⟨0, 256, none, false⟩] }),
       by decide +kernel⟩,
   ⟨79, 4, 4, ⟨0, 256, none, false⟩, [], [],
       (let s : State := Mr (Ln { tx0 with txNext := 256, txWptr := 256, txOut := [⟨0, 256, none, false⟩] }); (moverRead 0 256 (4,
       []) s).2), Mr (Ln { tx0 with txNext := 256, txWptr := 256, txOut := [⟨0, 256, none, false⟩] }), by decide +kernel⟩,
   ⟨79, 255, [1], Ln { tx0 with txBuf := [255, 1] }, by decide +kernel⟩,
   ⟨79, Ln tx0, by decide +kernel⟩,
   ⟨79, 255, [1], Ln { tx0 with coding := 1, format := 1, txBuf := [255, 1] }, by decide +kernel⟩,
   ⟨79, 0x1D, 1, [5], Ln { tx0 with coding := 1, txBuf := [0x1D, 1, 5] }, true, 0xBC, by decide +kernel⟩,
   ⟨79, Ln { tx0 with coding := 1, idleK := 0x1D }, 0xBC, by decide +kernel⟩,
   ⟨80, BR, by decide +kernel⟩,
   ⟨79, 2 ^ 31 + 2 ^ 17, Ln {}, by decide +kernel⟩,
   ⟨79, 2 ^ 31 + 2 ^ 17, Ln tx0, by decide +kernel⟩⟩

theorem witness_QuadTransitions :
    (∃ (l : Nat) (s : State), l < 80 ∧ ¬ (16 ≤ l ∧ l < 48 ∧ l % 4 = 0 ∧ s.clk.recovPort = (l - 16) / 4))
    ∧ (∃ (c : Nat → Instr) (f : Lane → Lane) (p : Nat) (s : State), ((c = Instr.laneLos
        ∧ f = fun y => { y with los := true }) ∨ (c = Instr.laneRxLockLost ∧ f = fun y => { y with rxLock := false })) ∧ p < 8
        ∧ s.clk.recovPort = p ∧ (s.clk.source ≠ 2 ∨ s.clk.lock = false))
    ∧ (∃ (c : Nat → Instr) (f : Lane → Lane) (p : Nat) (s : State), ((c = Instr.laneLos
        ∧ f = fun y => { y with los := true }) ∨ (c = Instr.laneRxLockLost ∧ f = fun y => { y with rxLock := false })) ∧ p < 8
        ∧ s.clk.recovPort = p ∧ s.clk.source = 2 ∧ s.clk.lock = true)
    ∧ (∃ (l : Nat), l < 80)
    ∧ (∃ (l : Nat) (s : State), l < 80 ∧ quadServes s (l / 4) = true ∧ (s.lane l).los = false)
    ∧ (∃ (l : Nat) (s : State), (quadServes s (l / 4) = false ∨ (s.lane l).los = true))
    ∧ (∃ (q : Nat) (s : State), (isPcie s q = true ∨ s.dev.mode = .hold))
    ∧ (∃ (q : Nat) (s : State), isPcie s q = false ∧ s.dev.mode = .hold)
    ∧ (∃ (q : Nat) (n : Nat) (s : State), q < 20 ∧ isPcie s q = false ∧ s.dev.mode ≠ .hold
        ∧ (n = (if (s.quad q).qmode = 3 ∨ (s.quad q).qmode = 4 then 14 else 10)) ∧ (s.quad q).state = .off
        ∧ ((s.quad q).qmode ≠ 4 ∨ (s.port (q - 4)).badFec = false))
    ∧ (∃ (q : Nat) (n : Nat) (s : State), q < 20 ∧ isPcie s q = false ∧ s.dev.mode ≠ .hold
        ∧ (n = (if (s.quad q).qmode = 3 ∨ (s.quad q).qmode = 4 then 14 else 10)) ∧ (s.quad q).state = .off
        ∧ (s.quad q).qmode = 4 ∧ (s.port (q - 4)).badFec = true)
    ∧ (∃ (q : Nat) (n : Nat) (s : State), q < 20 ∧ isPcie s q = false ∧ s.dev.mode ≠ .hold
        ∧ (n = (if (s.quad q).qmode = 3 ∨ (s.quad q).qmode = 4 then 14 else 10)) ∧ (s.quad q).state = .deep
        ∧ ((s.quad q).qmode ≠ 4 ∨ (s.port (q - 4)).badFec = false))
    ∧ (∃ (q : Nat) (n : Nat) (s : State), q < 20 ∧ isPcie s q = false ∧ s.dev.mode ≠ .hold
        ∧ (n = (if (s.quad q).qmode = 3 ∨ (s.quad q).qmode = 4 then 14 else 10)) ∧ (s.quad q).state = .draining)
    ∧ (∃ (q : Nat) (n : Nat) (s : State), q < 20 ∧ isPcie s q = false ∧ s.dev.mode ≠ .hold
        ∧ (n = (if (s.quad q).qmode = 3 ∨ (s.quad q).qmode = 4 then 14 else 10)) ∧ (s.quad q).state ≠ .off
        ∧ (s.quad q).state ≠ .draining)
    ∧ (∃ (q : Nat) (n : Nat) (s : State) (c : Nat → Instr) (d : Bool), ((c = Instr.laneQcmdDisable
        ∧ d = false) ∨ (c = Instr.laneQcmdSleep ∧ d = true)) ∧ q < 20 ∧ isPcie s q = false ∧ s.dev.mode ≠ .hold
        ∧ (n = (if (s.quad q).qmode = 3 ∨ (s.quad q).qmode = 4 then 14 else 10)) ∧ (s.quad q).state = .on)
    ∧ (∃ (q : Nat) (n : Nat) (s : State), q < 20 ∧ isPcie s q = false ∧ s.dev.mode ≠ .hold
        ∧ (n = (if (s.quad q).qmode = 3 ∨ (s.quad q).qmode = 4 then 14 else 10))
        ∧ ((s.quad q).state = .waitGrant ∨ (s.quad q).state = .deep))
    ∧ (∃ (q : Nat) (n : Nat) (s : State), q < 20 ∧ isPcie s q = false ∧ s.dev.mode ≠ .hold
        ∧ (n = (if (s.quad q).qmode = 3 ∨ (s.quad q).qmode = 4 then 14 else 10)) ∧ (s.quad q).state = .draining)
    ∧ (∃ (q : Nat) (n : Nat) (s : State), q < 20 ∧ isPcie s q = false ∧ s.dev.mode ≠ .hold
        ∧ (n = (if (s.quad q).qmode = 3 ∨ (s.quad q).qmode = 4 then 14 else 10)) ∧ (s.quad q).state ≠ .on)
    ∧ (∃ (q : Nat) (n : Nat) (s : State), q < 20 ∧ isPcie s q = false ∧ s.dev.mode ≠ .hold
        ∧ (n = (if (s.quad q).qmode = 3 ∨ (s.quad q).qmode = 4 then 14 else 10)) ∧ (s.quad q).state ≠ .deep)
    ∧ (∃ (q : Nat) (s : State), quadMoves s q = true ∧ (s.quad q).state = .waking ∧ (s.quad q).refLost = false)
    ∧ (∃ (q : Nat) (s : State), ((s.quad q).state ≠ .waking ∨ (s.quad q).refLost = true))
    ∧ (∃ (q : Nat) (s : State), quadMoves s q = true ∧ (s.quad q).state = .draining ∧ quadQuiet s q = true
        ∧ (s.quad q).qmode = 4 ∧ (s.port (q - 4)).linkUp = false ∧ (s.quad q).pendingEnable = false ∧ s.sor.modeChange = none)
    ∧ (∃ (q : Nat) (s : State), quadMoves s q = true ∧ (s.quad q).state = .draining ∧ quadQuiet s q = true
        ∧ (s.quad q).qmode ≠ 4 ∧ s.sor.modeChange = none ∧ (s.quad q).pendingEnable = false)
    ∧ (∃ (q : Nat) (s : State), quadMoves s q = true ∧ (s.quad q).state = .draining ∧ quadQuiet s q = true
        ∧ (s.quad q).qmode ≠ 4 ∧ s.sor.modeChange = none ∧ (s.quad q).pendingEnable = true)
    ∧ (∃ (q : Nat) (s : State), quadMoves s q = true ∧ (s.quad q).state = .draining ∧ quadQuiet s q = false
        ∧ s.sor.modeChange = none)
    ∧ (∃ (q : Nat) (s : State), quadQuiet s q = false)
    ∧ (∃ (q : Nat) (s : State), quadQuiet s q = true)
    ∧ (∃ (q : Nat) (s : State), q < 20 ∧ ((s.quad q).state = .waking ∨ (s.quad q).state = .on))
    ∧ (∃ (q : Nat) (s : State), q < 20 ∧ (s.quad q).state ≠ .waking ∧ (s.quad q).state ≠ .on)
    ∧ (∃ (q : Nat) (s : State), q < 20 ∧ (s.quad q).refLost = true ∧ (isPcie s q = true ∨ quadRefOk s q = true))
    ∧ (∃ (q : Nat) (v : Nat) (s : State), q < 20 ∧ v < 2 ^ 32 ∧ isPcie s q = false ∧ (s.quad q).state = .off
        ∧ quadModeOk q (bits v 25 3) (bits v 0 22) = true)
    ∧ (∃ (q : Nat) (v : Nat) (s : State), q < 20 ∧ v < 2 ^ 32
        ∧ (isPcie s q = true ∨ (s.quad q).state ≠ .off ∨ quadModeOk q (bits v 25 3) (bits v 0 22) = false)) :=
  ⟨⟨79, Ln rx0, by decide +kernel⟩,
   ⟨Instr.laneLos, fun y => { y with los := true }, 7, Rc 7 2 false, Or.inl ⟨rfl, rfl⟩, by decide +kernel⟩,
   ⟨Instr.laneRxLockLost, fun y => { y with rxLock := false }, 7, Rc 7 2 true, Or.inr ⟨rfl, rfl⟩, by decide +kernel⟩,
   ⟨79, by decide +kernel⟩,
   ⟨79, Ln rx0, by decide +kernel⟩,
   ⟨79, Ln { los := true }, by decide +kernel⟩,
   ⟨19, Hd BR, by decide +kernel⟩,
   ⟨19, Hd BR, by decide +kernel⟩,
   ⟨11, 14, Qd { qmode := 4 }, by decide +kernel⟩,
   ⟨11, 14, Qd { qmode := 4 } fun l => { l with ports := [(7, { badFec := true })] }, by decide +kernel⟩,
   ⟨11, 14, Qd { qmode := 4, state := .deep }, by decide +kernel⟩,
   ⟨11, 14, Qd { qmode := 4, state := .draining }, by decide +kernel⟩,
   ⟨11, 14, Qd { qmode := 4, state := .waking }, by decide +kernel⟩,
   ⟨11, 14, Qd { qmode := 4, state := .on } fun l => { l with lanes := [(47, { rxBuf := [5] })] }, Instr.laneQcmdSleep, true,
       by simp, by decide +kernel⟩,
   ⟨11, 14, Qd { qmode := 4, state := .deep }, by decide +kernel⟩,
   ⟨11, 14, Qd { qmode := 4, state := .draining }, by decide +kernel⟩,
   ⟨11, 14, Qd { qmode := 4, state := .deep }, by decide +kernel⟩,
   ⟨11, 14, Qd { qmode := 4, state := .on }, by decide +kernel⟩,
   ⟨11, Qd { state := .waking }, by decide +kernel⟩,
   ⟨11, Qd { state := .waking, refLost := true }, by decide +kernel⟩,
   ⟨11, Qd { qmode := 4, state := .draining }, by decide +kernel⟩,
   ⟨11, Qd { qmode := 2, state := .draining }, by decide +kernel⟩,
   ⟨11, Qd { qmode := 2, state := .draining, pendingEnable := true }, by decide +kernel⟩,
   ⟨11, Qd { qmode := 2, state := .draining } fun l => { l with lanes := [(47, { rxOut := [rR] })] }, by decide +kernel⟩,
   ⟨11, Qd { qmode := 2, state := .draining } fun l => { l with lanes := [(47, { rxOut := [rR] })] }, by decide +kernel⟩,
   ⟨11, Qd {}, by decide +kernel⟩,
   ⟨11, Qd { qmode := 3, state := .waking }, by decide +kernel⟩,
   ⟨19, BR, by decide +kernel⟩,
   ⟨11, Qd { qmode := 2, state := .on, refLost := true }, by decide +kernel⟩,
   ⟨11, 2 * 2 ^ 25 + 1792000, Qd {}, by decide +kernel⟩,
   ⟨11, 2 ^ 25, Qd {}, by decide +kernel⟩⟩

theorem witness_LaneCommands :
    (∃ (q : CmdCtx) (quad : Nat) (m : Nat) (baud : Nat) (keep : Nat) (s : State), quad < 20 ∧ m < 8 ∧ baud < 2 ^ 22 ∧ keep ≤ 1
        ∧ quadModeOk quad m baud = true ∧ MayIssue q 0x0A01 9 s ∧ s.dev.ready.lanes = true ∧ isPcie s quad = false
        ∧ (s.quad quad).state = .off)
    ∧ (∃ (q : CmdCtx) (quad : Nat) (m : Nat) (baud : Nat) (keep : Nat) (s : State), quad < 20 ∧ m < 8 ∧ baud < 2 ^ 22
        ∧ keep ≤ 1 ∧ quadModeOk quad m baud = true ∧ MayIssue q 0x0A01 9 s ∧ s.dev.ready.lanes = true
        ∧ (isPcie s quad = true ∨ (s.quad quad).state ≠ .off))
    ∧ (∃ (q : CmdCtx) (quad : Nat) (m : Nat) (baud : Nat) (keep : Nat) (s : State), quad < 256 ∧ m < 256 ∧ baud < 2 ^ 32
        ∧ keep < 256 ∧ MayIssue q 0x0A01 9 s ∧ (20 ≤ quad ∨ 2 ≤ keep ∨ quadModeOk quad m baud = false))
    ∧ (∃ (q : CmdCtx) (quad : Nat) (m : Nat) (baud : Nat) (keep : Nat) (s : State), quad < 256 ∧ m < 256 ∧ baud < 2 ^ 32
        ∧ keep < 256 ∧ MayIssue q 0x0A01 9 s ∧ quad < 20 ∧ keep < 2 ∧ quadModeOk quad m baud = true ∧ s.dev.ready.lanes = false)
    ∧ (∃ (q : CmdCtx) (quad : Nat) (s : State), quad < 20 ∧ MayIssue q 0x0A02 2 s ∧ s.dev.ready.lanes = true
        ∧ isPcie s quad = false ∧ s.dev.mode ≠ .hold ∧ (s.quad quad).state = .off ∧ (s.quad quad).qmode = 2)
    ∧ (∃ (q : CmdCtx) (quad : Nat) (a : Nat) (s : State), quad < 20 ∧ a < 4 ∧ MayIssue q 0x0A02 2 s ∧ s.dev.ready.lanes = true
        ∧ isPcie s quad = false ∧ s.dev.mode ≠ .hold
        ∧ (s.quad quad).state = (if a = 0 then .off else if a = 2 then .deep else .on))
    ∧ (∃ (q : CmdCtx) (quad : Nat) (a : Nat) (s : State), quad < 20 ∧ a < 4 ∧ MayIssue q 0x0A02 2 s ∧ s.dev.ready.lanes = true
        ∧ isPcie s quad = false ∧ s.dev.mode ≠ .hold ∧ (a = 1 ∨ a = 3) ∧ (s.quad quad).state = .waking)
    ∧ (∃ (q : CmdCtx) (quad : Nat) (a : Nat) (s : State), quad < 20 ∧ a < 4 ∧ MayIssue q 0x0A02 2 s ∧ s.dev.ready.lanes = true
        ∧ isPcie s quad = false ∧ s.dev.mode ≠ .hold ∧ (a = 0 ∨ a = 2) ∧ (s.quad quad).state = .on)
    ∧ (∃ (q : CmdCtx) (quad : Nat) (a : Nat) (s : State), quad < 20 ∧ a < 4 ∧ MayIssue q 0x0A02 2 s ∧ s.dev.ready.lanes = true
        ∧ isPcie s quad = false ∧ s.dev.mode ≠ .hold ∧ a = 0 ∧ (s.quad quad).state = .waitGrant ∧ (∀ m, m < 18
        → (s.mailbox m).tasks = []))
    ∧ (∃ (q : CmdCtx) (quad : Nat) (a : Nat) (s : State), quad < 20 ∧ a < 4 ∧ MayIssue q 0x0A02 2 s ∧ s.dev.ready.lanes = true
        ∧ isPcie s quad = false ∧ s.dev.mode ≠ .hold ∧ ((a = 2 ∧ (s.quad quad).state = .off) ∨ (a = 3
        ∧ (s.quad quad).state = .off) ∨ (a = 0 ∧ (s.quad quad).state = .waking) ∨ (a = 1 ∧ (s.quad quad).state = .deep)))
    ∧ (∃ (q : CmdCtx) (quad : Nat) (a : Nat) (s : State), quad < 256 ∧ a < 256 ∧ MayIssue q 0x0A02 2 s ∧ (20 ≤ quad ∨ 4 ≤ a))
    ∧ (∃ (q : CmdCtx) (quad : Nat) (a : Nat) (s : State), quad < 256 ∧ a < 256 ∧ MayIssue q 0x0A02 2 s ∧ quad < 20 ∧ a < 4
        ∧ s.dev.ready.lanes = false)
    ∧ (∃ (q : CmdCtx) (quad : Nat) (a : Nat) (s : State), quad < 256 ∧ a < 256 ∧ MayIssue q 0x0A02 2 s ∧ quad < 20 ∧ a < 4
        ∧ s.dev.ready.lanes = true ∧ (isPcie s quad = true ∨ s.dev.mode = .hold))
    ∧ (∃ (q : CmdCtx) (l : Nat) (dir : Nat) (base : Nat) (size : Nat) (flush : Nat) (free : Nat) (s : State), l < 80 ∧ dir ≤ 1
        ∧ free ≤ 1 ∧ 12 ≤ size ∧ size ≤ 30 ∧ flush < 256 ∧ base < 2 ^ 64 ∧ base % 2 ^ size = 0 ∧ MayIssue q 0x0A03 19 s
        ∧ s.dev.ready.lanes = true
        ∧ ((s.quad (l / 4)).state ≠ .on ∨ (if dir = 1 then (s.lane l).txEn else (s.lane l).rxEn) = false))
    ∧ (∃ (q : CmdCtx) (l : Nat) (dir : Nat) (base : Nat) (size : Nat) (flush : Nat) (free : Nat) (s : State), l < 80 ∧ dir ≤ 1
        ∧ free ≤ 1 ∧ 12 ≤ size ∧ size ≤ 30 ∧ flush < 256 ∧ base < 2 ^ 64 ∧ base % 2 ^ size = 0 ∧ MayIssue q 0x0A03 19 s
        ∧ s.dev.ready.lanes = true ∧ (s.quad (l / 4)).state = .on
        ∧ (if dir = 1 then (s.lane l).txEn else (s.lane l).rxEn) = true)
    ∧ (∃ (q : CmdCtx) (l : Nat) (dir : Nat) (base : Nat) (size : Nat) (flush : Nat) (free : Nat) (s : State), l < 80 ∧ dir ≤ 1
        ∧ free ≤ 1 ∧ 12 ≤ size ∧ size ≤ 30 ∧ flush < 256 ∧ base < 2 ^ 64 ∧ base % 2 ^ size = 0 ∧ MayIssue q 0x0A03 19 s
        ∧ s.dev.ready.lanes = false)
    ∧ (∃ (q : CmdCtx) (l : Nat) (dir : Nat) (base : Nat) (size : Nat) (flush : Nat) (free : Nat) (s : State), l < 256
        ∧ dir < 256 ∧ base < 2 ^ 64 ∧ size < 256 ∧ flush < 256 ∧ free < 256 ∧ MayIssue q 0x0A03 19 s
        ∧ (80 ≤ l ∨ 2 ≤ dir ∨ 2 ≤ free ∨ size < 12 ∨ 30 < size ∨ base % 2 ^ size ≠ 0))
    ∧ (∃ (q : CmdCtx) (l : Nat) (s : State), l < 80 ∧ MayIssue q 0x0A04 2 s ∧ s.dev.ready.lanes = true
        ∧ (s.lane l).txEn = false)
    ∧ (∃ (q : CmdCtx) (l : Nat) (dir : Nat) (s : State), l < 256 ∧ dir < 256 ∧ MayIssue q 0x0A04 2 s ∧ (80 ≤ l ∨ 2 ≤ dir))
    ∧ (∃ (q : CmdCtx) (l : Nat) (dir : Nat) (s : State), l < 256 ∧ dir < 256 ∧ MayIssue q 0x0A04 2 s ∧ l < 80 ∧ dir < 2
        ∧ s.dev.ready.lanes = false)
    ∧ (∃ (q : CmdCtx) (p : Nat) (speed : Nat) (fec : Nat) (flags : Nat) (s : State), p < 256 ∧ speed < 256 ∧ fec < 256
        ∧ flags < 256 ∧ MayIssue q 0x0A05 15 s ∧ (8 ≤ p ∨ fecAllowed speed fec = false))
    ∧ (∃ (q : CmdCtx) (p : Nat) (speed : Nat) (fec : Nat) (flags : Nat) (s : State), p < 256 ∧ speed < 256 ∧ fec < 256
        ∧ flags < 256 ∧ MayIssue q 0x0A05 15 s ∧ p < 8 ∧ fecAllowed speed fec = true ∧ s.dev.ready.lanes = false)
    ∧ (∃ (q : CmdCtx) (p : Nat) (speed : Nat) (fec : Nat) (flags : Nat) (s : State), p < 256 ∧ speed < 256 ∧ fec < 256
        ∧ flags < 256 ∧ MayIssue q 0x0A05 15 s ∧ p < 8 ∧ fecAllowed speed fec = true ∧ s.dev.ready.lanes = true
        ∧ (s.quad (4 + p)).state ≠ .off)
    ∧ (∃ (q : CmdCtx) (p : Nat) (speed : Nat) (fec : Nat) (flags : Nat) (s : State), p < 256 ∧ speed < 256 ∧ fec < 256
        ∧ flags < 256 ∧ MayIssue q 0x0A05 15 s ∧ p < 8 ∧ fecAllowed speed fec = true ∧ s.dev.ready.lanes = true
        ∧ (s.quad (4 + p)).state = .off)
    ∧ (∃ (q : CmdCtx) (p : Nat) (s : State), p < 256 ∧ MayIssue q 0x0A06 1 s ∧ 8 ≤ p)
    ∧ (∃ (q : CmdCtx) (p : Nat) (s : State), p < 256 ∧ MayIssue q 0x0A06 1 s ∧ p < 8 ∧ s.dev.ready.lanes = false)
    ∧ (∃ (q : CmdCtx) (l : Nat) (s : State), l < 256 ∧ MayIssue q 0x0A07 1 s ∧ 80 ≤ l)
    ∧ (∃ (q : CmdCtx) (l : Nat) (s : State), l < 256 ∧ MayIssue q 0x0A07 1 s ∧ l < 80 ∧ s.dev.ready.lanes = false) :=
  ⟨⟨Q, 11, 2, 80000, 1, Qd {}, by decide +kernel⟩,
   ⟨Q, 11, 2, 1792000, 1, Qd { state := .deep }, by decide +kernel⟩,
   ⟨Q, 20, 2, 1792000, 1, BR, by decide +kernel⟩,
   ⟨Q, 11, 2, 1792000, 1, Nl, by decide +kernel⟩,
   ⟨Q, 11, Qd { qmode := 2 }, by decide +kernel⟩,
   ⟨Q, 11, 3, Qd { qmode := 2, state := .on }, by decide +kernel⟩,
   ⟨Q, 11, 3, Qd { qmode := 2, state := .waking }, by decide +kernel⟩,
   ⟨Q, 11, 2, Qd { qmode := 2, state := .on }, by decide +kernel⟩,
   ⟨Q, 11, 0, Qd { qmode := 2, state := .waitGrant }, by decide +kernel⟩,
   ⟨Q, 11, 1, Qd { qmode := 2, state := .deep }, by decide +kernel⟩,
   ⟨Q, 20, 3, BR, by decide +kernel⟩,
   ⟨Q, 11, 3, Nl, by decide +kernel⟩,
   ⟨Q, 11, 3, Hd BR, by decide +kernel⟩,
   ⟨Q, 79, 1, 2 ^ 30, 30, 255, 1, BR, by decide +kernel⟩,
   ⟨Q, 79, 1, 2 ^ 30, 30, 255, 1, Ln tx0, by decide +kernel⟩,
   ⟨Q, 79, 1, 2 ^ 30, 30, 255, 1, Nl, by decide +kernel⟩,
   ⟨Q, 80, 1, 2 ^ 30, 30, 255, 1, BR, by decide +kernel⟩,
   ⟨Q, 79, Ln rx0, by decide +kernel⟩,
   ⟨Q, 80, 1, BR, by decide +kernel⟩,
   ⟨Q, 79, 1, Nl, by decide +kernel⟩,
   ⟨Q, 8, 8, 2, 7, BR, by decide +kernel⟩,
   ⟨Q, 7, 8, 2, 7, Nl, by decide +kernel⟩,
   ⟨Q, 7, 8, 2, 7, Qd { state := .on }, by decide +kernel⟩,
   ⟨Q, 7, 8, 2, 7, BR, by decide +kernel⟩,
   ⟨Q, 8, BR, by decide +kernel⟩,
   ⟨Q, 7, Nl, by decide +kernel⟩,
   ⟨Q, 80, BR, by decide +kernel⟩,
   ⟨Q, 79, Nl, by decide +kernel⟩⟩

theorem witness_EthernetPorts :
    (∃ (p : Nat) (w : List Byte) (f : List Byte) (s : State), portPasses s p = true ∧ f = w.take (w.length - 4)
        ∧ (w.length < 64 ∨ 9600 < w.length))
    ∧ (∃ (p : Nat) (w : List Byte) (f : List Byte) (s : State), portPasses s p = true ∧ f = w.take (w.length - 4)
        ∧ 64 ≤ w.length ∧ w.length ≤ 9600 ∧ ofLe (w.drop (w.length - 4)) ≠ fcsOf f)
    ∧ (∃ (p : Nat) (w : List Byte) (f : List Byte) (s : State), portPasses s p = true ∧ f = w.take (w.length - 4)
        ∧ 64 ≤ w.length ∧ w.length ≤ 9600 ∧ ofLe (w.drop (w.length - 4)) = fcsOf f ∧ etherType f = 0x8808)
    ∧ (∃ (p : Nat) (w : List Byte) (f : List Byte) (s : State), portPasses s p = true ∧ f = w.take (w.length - 4)
        ∧ 64 ≤ w.length ∧ w.length ≤ 9600 ∧ ofLe (w.drop (w.length - 4)) = fcsOf f ∧ etherType f ≠ 0x8808 ∧ ptpAt f = none
        ∧ (s.port p).promisc = false ∧ BitVec.ofNat 48 (ofLe (f.take 6)) ≠ (s.port p).mac
        ∧ (isMulticast f = false ∨ (s.port p).mcastEn = false) ∧ isBroadcast f = false)
    ∧ (∃ (p : Nat) (s : State), portPasses s p = false)
    ∧ (∃ (p : Nat) (n : Nat) (w : List Byte) (f : List Byte) (s : State), portPasses s p = true ∧ f = w.take (w.length - 4)
        ∧ 64 ≤ w.length ∧ w.length ≤ 9600 ∧ ofLe (w.drop (w.length - 4)) = fcsOf f ∧ etherType f ≠ 0x8808 ∧ ptpAt f = none
        ∧ addressed (s.port p) f = true ∧ n = 32 + (f.length + 31) / 32 * 32 ∧ (s.lane (16 + 4 * p)).rxEn = true
        ∧ (s.lane (16 + 4 * p)).rxStopped = false ∧ (s.lane (16 + 4 * p)).freeRun = false ∧ (s.lane (16 + 4 * p)).rxSize ≤ 30
        ∧ (s.lane (16 + 4 * p)).rxOut.length = 8
        ∧ ringFill ((s.lane (16 + 4 * p)).rxNext + (s.lane (16 + 4 * p)).rxBuf.length) (s.lane (16 + 4 * p)).rxRptr + n ≤ 2 ^ (s.lane (16 + 4 * p)).rxSize)
    ∧ (∃ (p : Nat) (n : Nat) (w : List Byte) (f : List Byte) (s : State), portPasses s p = true ∧ f = w.take (w.length - 4)
        ∧ 64 ≤ w.length ∧ w.length ≤ 9600 ∧ ofLe (w.drop (w.length - 4)) = fcsOf f ∧ etherType f ≠ 0x8808 ∧ ptpAt f = none
        ∧ addressed (s.port p) f = true ∧ n = 32 + (f.length + 31) / 32 * 32 ∧ (s.lane (16 + 4 * p)).rxEn = true
        ∧ (s.lane (16 + 4 * p)).rxStopped = false ∧ (s.lane (16 + 4 * p)).freeRun = false ∧ (s.lane (16 + 4 * p)).rxSize ≤ 30
        ∧ 2 ^ (s.lane (16 + 4 * p)).rxSize < ringFill ((s.lane (16 + 4 * p)).rxNext + (s.lane (16 + 4 * p)).rxBuf.length) (s.lane (16 + 4 * p)).rxRptr + n)
    ∧ (∃ (p : Nat) (code : Nat) (c : Nat) (len : Nat) (n : Nat) (rec_ : List Byte) (head : List Byte) (x : Lane) (u : State) (s : State),
        portPasses s p = true ∧ noCopies s p = true ∧ x = s.lane (16 + 4 * p) ∧ x.txEn = true ∧ x.txStopped = false
        ∧ x.txWptr ≠ x.txRptr ∧ 32 ≤ ringFill x.txWptr x.txRptr ∧ readRing x code rec_ (pieces 2 x.txRptr 32) s = ((c, head),
        u) ∧ len = ofLe (head.take 2) ∧ n = 32 + (len + 31) / 32 * 32 ∧ c ≠ 0)
    ∧ (∃ (p : Nat) (code : Nat) (c : Nat) (len : Nat) (n : Nat) (rec_ : List Byte) (head : List Byte) (x : Lane) (u : State) (s : State),
        portPasses s p = true ∧ noCopies s p = true ∧ x = s.lane (16 + 4 * p) ∧ x.txEn = true ∧ x.txStopped = false
        ∧ x.txWptr ≠ x.txRptr ∧ 32 ≤ ringFill x.txWptr x.txRptr ∧ readRing x code rec_ (pieces 2 x.txRptr 32) s = ((c, head),
        u) ∧ len = ofLe (head.take 2) ∧ n = 32 + (len + 31) / 32 * 32 ∧ c = 0 ∧ (len < 60 ∨ 9596 < len))
    ∧ (∃ (p : Nat) (code : Nat) (c : Nat) (len : Nat) (n : Nat) (rec_ : List Byte) (head : List Byte) (x : Lane) (u : State) (s : State),
        portPasses s p = true ∧ noCopies s p = true ∧ x = s.lane (16 + 4 * p) ∧ x.txEn = true ∧ x.txStopped = false
        ∧ x.txWptr ≠ x.txRptr ∧ 32 ≤ ringFill x.txWptr x.txRptr ∧ readRing x code rec_ (pieces 2 x.txRptr 32) s = ((c, head),
        u) ∧ len = ofLe (head.take 2) ∧ n = 32 + (len + 31) / 32 * 32 ∧ c = 0 ∧ 60 ≤ len ∧ len ≤ 9596
        ∧ ringFill x.txWptr x.txRptr < n)
    ∧ (∃ (p : Nat) (code : Nat) (c : Nat) (len : Nat) (n : Nat) (rec_ : List Byte) (head : List Byte) (x : Lane) (u : State) (s : State) (body : List Byte) (v : State),
        portPasses s p = true ∧ noCopies s p = true ∧ x = s.lane (16 + 4 * p) ∧ x.txEn = true ∧ x.txStopped = false
        ∧ x.txWptr ≠ x.txRptr ∧ 32 ≤ ringFill x.txWptr x.txRptr ∧ readRing x code rec_ (pieces 2 x.txRptr 32) s = ((c, head),
        u) ∧ len = ofLe (head.take 2) ∧ n = 32 + (len + 31) / 32 * 32 ∧ c = 0 ∧ 60 ≤ len ∧ len ≤ 9596
        ∧ n ≤ ringFill x.txWptr x.txRptr ∧ readRing x code (rec_.drop 32) (pieces 40 (x.txRptr + 32) (n - 32)) u = ((0, body),
        v) ∧ bit (ofLe ((head.drop 2).take 1)) 0 = false ∧ bit (ofLe ((head.drop 2).take 1)) 1 = false)
    ∧ (∃ (p : Nat) (code : Nat) (c : Nat) (len : Nat) (n : Nat) (rec_ : List Byte) (head : List Byte) (x : Lane) (u : State) (s : State) (body : List Byte) (v : State),
        portPasses s p = true ∧ noCopies s p = true ∧ x = s.lane (16 + 4 * p) ∧ x.txEn = true ∧ x.txStopped = false
        ∧ x.txWptr ≠ x.txRptr ∧ 32 ≤ ringFill x.txWptr x.txRptr ∧ readRing x code rec_ (pieces 2 x.txRptr 32) s = ((c, head),
        u) ∧ len = ofLe (head.take 2) ∧ n = 32 + (len + 31) / 32 * 32 ∧ c = 0 ∧ 60 ≤ len ∧ len ≤ 9596
        ∧ n ≤ ringFill x.txWptr x.txRptr ∧ readRing x code (rec_.drop 32) (pieces 40 (x.txRptr + 32) (n - 32)) u = ((0, body),
        v) ∧ bit (ofLe ((head.drop 2).take 1)) 0 = false ∧ bit (ofLe ((head.drop 2).take 1)) 1 = true
        ∧ ptpAt (body.take len) = none)
    ∧ (∃ (p : Nat) (s : State), (noCopies s p = false ∨ portPasses s p = false))
    ∧ (∃ (p : Nat) (s : State), portPasses s p = true ∧ s.dev.ready.sorrel = true ∧ (s.port p).tsFifo.length < 16)
    ∧ (∃ (p : Nat) (s : State), portPasses s p = true ∧ s.dev.ready.sorrel = true ∧ 16 ≤ (s.port p).tsFifo.length)
    ∧ (∃ (p : Nat) (s : State), portPasses s p = true ∧ s.dev.ready.sorrel = true)
    ∧ (∃ (p : Nat) (c : TcCopy) (s : State), portPasses s p = true ∧ (s.tim.copies.find? (fun c => c.port = p) = some c)
        ∧ c.correct = false)
    ∧ (∃ (p : Nat) (c : TcCopy) (s : State) (o : _) (k : _), portPasses s p = true
        ∧ (s.tim.copies.find? (fun c => c.port = p) = some c) ∧ c.correct = true ∧ ptpAt c.frame = some (o, k))
    ∧ (∃ (p : Nat) (s : State), noCopies s p = true)
    ∧ (∃ (p : Nat) (s : State), p < 8 ∧ quadServes s (4 + p) = true ∧ (s.quad (4 + p)).qmode = 4)
    ∧ (∃ (p : Nat) (s : State), p < 8 ∧ (s.port p).linkUp = true ∧ s.clk.recovPort ≠ p)
    ∧ (∃ (p : Nat) (s : State), p < 8 ∧ (s.port p).linkUp = false)
    ∧ (∃ (p : Nat) (v : Nat) (s : State), p < 8 ∧ v < 2 ^ 32 ∧ (s.quad (4 + p)).state ≠ .off)
    ∧ (∃ (p : Nat) (v : Nat) (s : State), p < 8 ∧ v < 2 ^ 32 ∧ (s.quad (4 + p)).state = .off) :=
  ⟨⟨7, List.replicate 63 1, List.replicate 59 1, Et {}, by decide +kernel⟩,
   ⟨7, List.replicate 64 0, List.replicate 60 0, Et {}, by decide +kernel⟩,
   ⟨7, wire (frm 60 [0x88, 8]), frm 60 [0x88, 8], Et {}, by decide +kernel⟩,
   ⟨7, wire (frm 60 [8, 6]), frm 60 [8, 6], Et {}, by decide +kernel⟩,
   ⟨8, BR, by decide +kernel⟩,
   ⟨7, 96, wire (frm 60 [8, 6]), frm 60 [8, 6],
       Et { rx0 with rxOut := List.replicate 8 rR } { linkUp := true, mac := 9 * 2 ^ 40 + 2 }, by decide +kernel⟩,
   ⟨7, 96, wire (frm 60 [8, 6]), frm 60 [8, 6], Et { rx0 with rxNext := 4001 } { linkUp := true, mac := 9 * 2 ^ 40 + 2 },
       by decide +kernel⟩,
   ⟨7, 0, 2, 0, 32, tR 60 0, [], tE 96, (let s : State := Et (tE 96); (readRing (tE 96) 0 (tR 60 0) (pieces 2 0 32) s).2),
       Et (tE 96), by decide +kernel⟩,
   ⟨7, 0, 0, 59, 96, tR 59 0, (tR 59 0).take 32, tE 32,
       (let s : State := Mr (Et (tE 32)); (readRing (tE 32) 0 (tR 59 0) (pieces 2 0 32) s).2), Mr (Et (tE 32)),
       by decide +kernel⟩,
   ⟨7, 0, 0, 60, 96, tR 60 0, (tR 60 0).take 32, tE 95,
       (let s : State := Mr (Et (tE 95)); (readRing (tE 95) 0 (tR 60 0) (pieces 2 0 32) s).2), Mr (Et (tE 95)),
       by decide +kernel⟩,
   ⟨7, 0, 0, 60, 96, tR 60 0, (tR 60 0).take 32, tE 96,
       (let s : State := Mr (Et (tE 96)); (readRing (tE 96) 0 (tR 60 0) (pieces 2 0 32) s).2), Mr (Et (tE 96)),
       List.replicate 64 0,
       (let s : State := Mr (Et (tE 96)); (readRing (tE 96) 0 ((tR 60 0).drop 32) (pieces 40 32 64) (readRing (tE 96) 0 (tR 60 0) (pieces 2 0 32) s).2).2),
       by decide +kernel⟩,
   ⟨7, 0, 0, 60, 96, tR 60 2, (tR 60 2).take 32, tE 96,
       (let s : State := Mr (Et (tE 96)); (readRing (tE 96) 0 (tR 60 2) (pieces 2 0 32) s).2), Mr (Et (tE 96)),
       List.replicate 64 0,
       (let s : State := Mr (Et (tE 96)); (readRing (tE 96) 0 ((tR 60 2).drop 32) (pieces 40 32 64) (readRing (tE 96) 0 (tR 60 2) (pieces 2 0 32) s).2).2),
       by decide +kernel⟩,
   ⟨7, { Et {} with tim := { B.tim with copies := [⟨7, false, 5, frm 60 [0x88, 0xF7]⟩] } }, by decide +kernel⟩,
   ⟨7, Et {}, by decide +kernel⟩,
   ⟨7, Et {} { linkUp := true, tsFifo := List.replicate 16 ⟨0, 0, 0, 0, 0⟩ }, by decide +kernel⟩,
   ⟨7, Et {}, by decide +kernel⟩,
   ⟨7, ⟨7, false, 5, frm 60 [0x88, 0xF7]⟩,
       { Et {} with tim := { B.tim with copies := [⟨7, false, 5, frm 60 [0x88, 0xF7]⟩] } }, by decide +kernel⟩,
   ⟨7, ⟨7, true, 5, frm 60 [0x88, 0xF7]⟩, { Et {} with tim := { B.tim with copies := [⟨7, true, 5, frm 60 [0x88, 0xF7]⟩] } },
       14, (none : Option Nat), by decide +kernel⟩,
   ⟨7, Et {}, by decide +kernel⟩,
   ⟨7, Et {} {}, by decide +kernel⟩,
   ⟨7, Et {}, by decide +kernel⟩,
   ⟨7, BR, by decide +kernel⟩,
   ⟨7, 2 ^ 32 - 1, Et {}, by decide +kernel⟩,
   ⟨7, 2 ^ 32 - 1, BR, by decide +kernel⟩⟩

theorem witness_HostPortAndRegisters :
    (∃ (f : Nat) (len : Nat) (i : Nat) (data : List Byte) (s : State), s.dev.ready.pcie = true ∧ 0 < len ∧ f % 256 + len ≤ 256
        ∧ f + len ≤ 0x10000000 ∧ s.lan.pci.reqs.length < 256 ∧ freeHostTag s.lan.pci = some i ∧ data.length = len)
    ∧ (∃ (f : Nat) (len : Nat) (p : List (Nat × Nat)), 0 < len ∧ len ≤ 4096 ∧ p = pieces 17 f len)
    ∧ (∃ (f : Nat) (len : Nat) (s : State), hostShut s = false
        ∧ (s.dev.ready.pcie = false ∨ 0x10000000 < f + len ∨ 256 ≤ s.lan.pci.reqs.length))
    ∧ (∃ (f : Nat), f < 0x04000000)
    ∧ (∃ (f : Nat), 0x04000000 ≤ f ∧ f < 0x08000000)
    ∧ (∃ (f : Nat), 0x08000000 ≤ f)
    ∧ (∃ (s : State), hostShut s = true)
    ∧ (∃ (t : Nat) (r : HostReq) (s : State), (∀ i q, i ≠ t → tget none s.lan.pci.reqs i = some q → q.req = r.req
        → r.offset < q.offset) ∧ tget none s.lan.pci.reqs t = some r ∧ r.discard = false ∧ s.qm.bells = []
        ∧ s.lan.pci.held = [] ∧ r.write = false)
    ∧ (∃ (t : Nat) (code : Nat) (r : HostReq) (s : State), (∀ i q, i ≠ t → tget none s.lan.pci.reqs i = some q → q.req = r.req
        → r.offset < q.offset) ∧ tget none s.lan.pci.reqs t = some r ∧ r.discard = false ∧ s.qm.bells = []
        ∧ s.lan.pci.held = [] ∧ r.write = true ∧ code = 0)
    ∧ (∃ (t : Nat) (code : Nat) (r : HostReq) (s : State), (∀ i q, i ≠ t → tget none s.lan.pci.reqs i = some q → q.req = r.req
        → r.offset < q.offset) ∧ tget none s.lan.pci.reqs t = some r ∧ r.discard = false ∧ s.qm.bells = []
        ∧ s.lan.pci.held = [] ∧ r.write = true ∧ code ≠ 0 ∧ s.lan.pci.hostWrErr = false)
    ∧ (∃ (t : Nat) (r : HostReq) (s : State), (∀ i q, i ≠ t → tget none s.lan.pci.reqs i = some q → q.req = r.req
        → r.offset < q.offset) ∧ tget none s.lan.pci.reqs t = some r ∧ r.discard = false ∧ s.qm.bells = []
        ∧ s.lan.pci.held = [])
    ∧ (∃ (width : Nat) (rate : Nat) (s : State), width < 32 ∧ rate < 8 ∧ (s.quad 0).state = .on ∧ isPcie s 0 = true)
    ∧ (∃ (c : Instr) (down : Bool) (rst : Bool), ((c = .pcieLinkDown ∧ down = true
        ∧ rst = false) ∨ ((c = .pciePerst ∨ c = .pcieHotReset) ∧ down = true ∧ rst = true) ∨ (c = .pcieFlr ∧ down = false
        ∧ rst = true)))
    ∧ (∃ (s : State), s.dev.powered = false)
    ∧ (∃ (off : Nat) (size : Nat) (s : State), s.dev.powered = true ∧ ((size ≠ 4
        ∧ size ≠ 8) ∨ off % size ≠ 0 ∨ 2 ^ 26 < off + size))
    ∧ (∃ (off : Nat) (s : State), off % 8 = 0 ∧ off + 8 ≤ 2 ^ 26 ∧ s.dev.powered = true)
    ∧ (∃ (off : Nat) (s : State), off % 4 = 0 ∧ off + 4 ≤ 2 ^ 26 ∧ s.dev.powered = true)
    ∧ (∃ (v : Nat) (s : State), s.dev.powered = true ∧ v < 2 ^ 32 ∧ s.sor.running = true)
    ∧ (∃ (v : Nat) (s : State), s.dev.powered = true ∧ v < 2 ^ 32 ∧ s.sor.running = false)
    ∧ (∃ (v : Nat) (s : State), s.dev.powered = true ∧ v < 2 ^ 32 ∧ bit v 0 = s.gov.grantEn)
    ∧ (∃ (v : Nat) (s : State), s.dev.powered = true ∧ v < 2 ^ 32 ∧ bit v 0 ≠ s.gov.grantEn)
    ∧ (∃ (v : Nat) (s : State), s.dev.powered = true ∧ v < 2 ^ 32)
    ∧ (∃ (gap : Nat) (s : State), s.dev.powered = true ∧ gap < 2 ^ 8 ∧ s.fab.scrub.waitGrant = true)
    ∧ (∃ (gap : Nat) (s : State), s.dev.powered = true ∧ gap < 2 ^ 8 ∧ s.spd.waitGrant = true)
    ∧ (∃ (p : Nat) (i : Nat) (s : State), s.dev.powered = true ∧ p < 120 ∧ i < 30 ∧ s.noc.epoch = false)
    ∧ (∃ (s : State) (off other hi d : Nat), pairAt s off = none ∧ pairAt s other = some (hi, d))
    ∧ (∃ (port : Nat) (off : Nat) (hi : Nat) (d : Nat) (s : State) (h : _), 4 ≤ off ∧ pairAt s off = none
        ∧ pairAt s (off - 4) = some (hi, d) ∧ tget none s.dev.hiLatch (latchKey port (off - 4)) = some h)
    ∧ (∃ (port : Nat) (off : Nat) (hi : Nat) (d : Nat) (s : State), 4 ≤ off ∧ pairAt s off = none
        ∧ pairAt s (off - 4) = some (hi, d) ∧ tget none s.dev.hiLatch (latchKey port (off - 4)) = none) :=
  ⟨⟨0x0FFFFF00, 256, 0, List.replicate 256 1, BR, by decide +kernel⟩,
   ⟨0x0FFFF001, 4096, pieces 17 0x0FFFF001 4096, by decide +kernel⟩,
   ⟨0x0FFFFFFF, 2, BR, by decide +kernel⟩,
   ⟨0x03FFFFFF, by decide +kernel⟩,
   ⟨0x07FFFFFF, by decide +kernel⟩,
   ⟨0x08000000, by decide +kernel⟩,
   ⟨{ Dv (fun d => { d with ready := { d.ready with pcie := false } }) with lan := { BR.lan with pci := { BR.lan.pci with linkUp := true, memEnabled := true } } },
       by decide +kernel⟩,
   ⟨255, hr false, Hp fun p => { p with reqs := [(255, some (hr false))] }, fun _ _ h => otherNone h, by decide +kernel⟩,
   ⟨255, 0, hr true, Hp fun p => { p with reqs := [(255, some (hr true))] }, fun _ _ h => otherNone h, by decide +kernel⟩,
   ⟨255, 7, hr true, Hp fun p => { p with reqs := [(255, some (hr true))] }, fun _ _ h => otherNone h, by decide +kernel⟩,
   ⟨255, hr true, Hp fun p => { p with reqs := [(255, some (hr true))] }, fun _ _ h => otherNone h, by decide +kernel⟩,
   ⟨31, 7, { BR with lan := { BR.lan with quads := [(0, { state := .on })], pci := { BR.lan.pci with pciLanes := 2 } } },
       by decide +kernel⟩,
   ⟨.pcieFlr, false, true, by decide +kernel⟩,
   ⟨Dv fun d => { d with powered := false }, by decide +kernel⟩,
   ⟨2 ^ 26 - 4, 8, BR, by decide +kernel⟩,
   ⟨2 ^ 26 - 8, BR, by decide +kernel⟩,
   ⟨2 ^ 26 - 4, BR, by decide +kernel⟩,
   ⟨2 ^ 32 - 1, BR, by decide +kernel⟩,
   ⟨2 ^ 32 - 1, { BR with sor := { BR.sor with running := false } }, by decide +kernel⟩,
   ⟨b2n BR.gov.grantEn, BR, by decide +kernel⟩,
   ⟨1 - b2n BR.gov.grantEn, BR, by decide +kernel⟩,
   ⟨2 ^ 32 - 1, BR, by decide +kernel⟩,
   ⟨255, { BR with fab := { BR.fab with scrub := { BR.fab.scrub with waitGrant := true } } }, by decide +kernel⟩,
   ⟨255, Bs fun p => { p with waitGrant := true }, by decide +kernel⟩,
   ⟨119, 29, BR, by decide +kernel⟩,
   ⟨BR, 0x20, 0x24, 0, 0, by decide +kernel⟩,
   ⟨959, 0x28, 0, 0, Dv fun d => { d with hiLatch := [(latchKey 959 0x24, some 7)] }, 7, by decide +kernel⟩,
   ⟨959, 0x28, 0, 0, BR, by decide +kernel⟩⟩

theorem witness_MailboxAccesses :
    (∃ (m : Nat) (tail : Nat) (s : State), m < 18 ∧ tail < 2 ^ 16 ∧ (tail + 2 ^ 16 - (s.mailbox m).cmdHead) % 2 ^ 16 ≤ 16)
    ∧ (∃ (m : Nat) (tail : Nat) (s : State), m < 18 ∧ tail < 2 ^ 16 ∧ 16 < (tail + 2 ^ 16 - (s.mailbox m).cmdHead) % 2 ^ 16)
    ∧ (∃ (m : Nat) (head : Nat) (s : State), m < 18 ∧ head < 2 ^ 16
        ∧ (head + 2 ^ 16 - (s.mailbox m).rspHead) % 2 ^ 16 ≤ ((s.mailbox m).rspTail + 2 ^ 16 - (s.mailbox m).rspHead) % 2 ^ 16)
    ∧ (∃ (m : Nat) (head : Nat) (s : State), m < 18 ∧ head < 2 ^ 16
        ∧ ((s.mailbox m).rspTail + 2 ^ 16 - (s.mailbox m).rspHead) % 2 ^ 16 < (head + 2 ^ 16 - (s.mailbox m).rspHead) % 2 ^ 16)
    ∧ (∃ (m : Nat), m < 18)
    ∧ (∃ (m : Nat) (v : Bool) (s : State), m < 18 ∧ (s.mailbox m).encV1 ≠ v ∧ (s.mailbox m).cmdHead = (s.mailbox m).cmdTail
        ∧ (s.mailbox m).tasks = [])
    ∧ (∃ (m : Nat) (v : Bool) (s : State), m < 18 ∧ (s.mailbox m).encV1 ≠ v
        ∧ ((s.mailbox m).cmdHead ≠ (s.mailbox m).cmdTail ∨ (s.mailbox m).tasks ≠ []))
    ∧ (∃ (m : Nat), 18 ≤ m)
    ∧ (∃ (o : Nat), o < 2 ^ 12 ∧ o % 4 = 0)
    ∧ (∃ (o : Nat) (data : List Byte), (o % 4 ≠ 0 ∨ data.length % 4 ≠ 0))
    ∧ (∃ (o : Nat) (n : Nat), (o % 4 ≠ 0 ∨ n % 4 ≠ 0))
    ∧ (∃ (dr : BitVec 45), (dr.toNat / 2 ^ 32 % 2 ^ 12) % 4 ≠ 0)
    ∧ (∃ (op : Nat) (addr : Nat), op ≠ 0x02 ∧ op ≠ 0x0B ∧ addr ≠ 0x5C)
    ∧ (∃ (tail : Nat) (s : State), tail < 2 ^ 16 ∧ (tail + 2 ^ 16 - (s.mailbox 16).cmdHead) % 2 ^ 16 ≤ 16)
    ∧ (∃ (dr : BitVec 45), (dr.toNat / 2 ^ 32 % 2 ^ 12) % 4 = 0 ∧ dr.getLsbD 44 = false)
    ∧ (∃ (dr : BitVec 45) (s : State), dr.toNat / 2 ^ 32 % 2 ^ 12 = 0x014 ∧ dr.getLsbD 44 = true ∧ dr.toNat % 2 ^ 32 < 2 ^ 16
        ∧ (dr.toNat % 2 ^ 32 + 2 ^ 16 - (s.mailbox 17).rspHead) % 2 ^ 16 ≤ ((s.mailbox 17).rspTail + 2 ^ 16 - (s.mailbox 17).rspHead) % 2 ^ 16) :=
  ⟨⟨17, 16, Mb 17 {}, by decide +kernel⟩,
   ⟨17, 17, Mb 17 {}, by decide +kernel⟩,
   ⟨17, 3, Mb 17 { rspTail := 3 }, by decide +kernel⟩,
   ⟨17, 4, Mb 17 { rspTail := 3 }, by decide +kernel⟩,
   ⟨17, by decide +kernel⟩,
   ⟨17, true, B, by decide +kernel⟩,
   ⟨17, true, Mb 17 { cmdTail := 1 }, by decide +kernel⟩,
   ⟨18, by decide +kernel⟩,
   ⟨4092, by decide +kernel⟩,
   ⟨4, [1], by decide +kernel⟩,
   ⟨2, 3, by decide +kernel⟩,
   ⟨BitVec.ofNat 45 (2 ^ 32), by decide +kernel⟩,
   ⟨0x0A, 0x5D, by decide +kernel⟩,
   ⟨16, B, by decide +kernel⟩,
   ⟨BitVec.ofNat 45 (0x014 * 2 ^ 32), by decide +kernel⟩,
   ⟨BitVec.ofNat 45 (2 ^ 44 + 0x014 * 2 ^ 32 + 3), Mb 17 { rspTail := 3 }, by decide +kernel⟩⟩

theorem witness_CommandTaking :
    (∃ (q : CmdCtx) (data : List Byte) (s : State), canTake q.mbx s = true ∧ ownTurn q.mbx s = true
        ∧ (s.mailbox q.mbx).encV1 = false ∧ (s.mailbox q.mbx).cmdHead = (s.mailbox q.mbx).cmdTail
        ∧ (s.mailbox q.mbx).cmdTail < 2 ^ 16 ∧ data.length ≤ 240 ∧ q.seq < 2 ^ 16 ∧ q.tag < 2 ^ 32 ∧ q.deadline < 2 ^ 32
        ∧ s.sor.holdNext = false)
    ∧ (∃ (q : CmdCtx) (op : Nat) (len : Nat) (zeroOk : Bool) (s : State), canTake q.mbx s = true ∧ wholeMessage q.mbx s = true
        ∧ ownTurn q.mbx s = true ∧ headOf q.mbx s = (q, op, len, zeroOk) ∧ (s.mailbox q.mbx).encV1 = false ∧ op / 256 ≠ 6
        ∧ op ≠ 0x0703 ∧ s.sor.holdNext = false ∧ (q.seq ≠ (s.mailbox q.mbx).expectSeq ∨ zeroOk = false ∨ 240 < len))
    ∧ (∃ (q : CmdCtx) (op : Nat) (len : Nat) (s : State), canTake q.mbx s = true ∧ wholeMessage q.mbx s = true
        ∧ ownTurn q.mbx s = true ∧ headOf q.mbx s = (q, op, len, true) ∧ (s.mailbox q.mbx).encV1 = false
        ∧ q.seq = (s.mailbox q.mbx).expectSeq ∧ len ≤ 240 ∧ s.sor.holdNext = false
        ∧ (op / 256 = 0 ∨ 15 ≤ op / 256 ∨ (q.mbx = 17 ∧ (op = 0x0D04 ∨ op = 0x0D05))))
    ∧ (∃ (m : Nat) (s : State), (canTake m s = false ∨ wholeMessage m s = false ∨ ownTurn m s = false))
    ∧ (∃ (m : Nat) (seq : Nat) (k : Task) (s : State), m < 18 ∧ s.dev.ready.sorrel = true ∧ s.sor.restarting = false
        ∧ ((s.mailbox m).tasks.find? (fun t => t.seq = seq && decide (t.deadline ≠ 0) && decide (t.deadline * msTicks ≤ s.now - t.taken)) = some k))
    ∧ (∃ (m : Nat) (seq : Nat) (s : State),
        ((s.mailbox m).tasks.find? (fun t => t.seq = seq && decide (t.deadline ≠ 0) && decide (t.deadline * msTicks ≤ s.now - t.taken)) = none))
    ∧ (∃ (op : Nat) (obj : Nat) (m : Nat) (k : Task) (s : State), m < 18 ∧ s.sor.restarting = false ∧ (∀ j, j < 18
        → (s.mailbox j).tasks.filter (fun t => t.opcode = op && t.obj = obj) = if j = m then [k] else [])) :=
  ⟨⟨Q, List.replicate 240 7, B, by decide +kernel⟩,
   ⟨Q, 0x0102, 1, true, postCommand Q 0x0102 [4] (Mb 0 { expectSeq := 1 }), by decide +kernel⟩,
   ⟨Q, 1, 0, postCommand Q 1 [] B, by decide +kernel⟩,
   ⟨18, B, by decide +kernel⟩,
   ⟨17, 9, tk 1, { Mb 17 { tasks := [tk 1], reserved := 2 } with tim := { B.tim with tick := 1500003 * 2 ^ 48 } },
       by decide +kernel⟩,
   ⟨17, 9, B, by decide +kernel⟩,
   ⟨0x0504, 4, 17, ⟨0x0504, 9, 5, true, 7, 3, 2, 4, 0⟩,
       Mb 17 { tasks := [⟨0x0504, 9, 5, true, 7, 3, 2, 4, 0⟩], reserved := 2 }, by decide +kernel⟩⟩

theorem witness_EventsAndSorrel :
    (∃ (n : Nat), 336 ≤ n ∧ n < 384)
    ∧ (∃ (n : Nat), n < 512 ∧ (n < 336 ∨ 384 ≤ n))
    ∧ (∃ (v : Nat), v < 64)
    ∧ (∃ (v : Nat) (s : State), v < 64 ∧ asserted s v = true ∧ s.evt.armed.getLsbD v = true ∧ mayMessage s v = true)
    ∧ (∃ (v : Nat) (s : State), v < 64 ∧ asserted s v = true ∧ s.evt.armed.getLsbD v = true ∧ mayMessage s v = false)
    ∧ (∃ (v : Nat) (s : State), v < 64 ∧ (asserted s v = false ∨ s.evt.armed.getLsbD v = false)
        ∧ s.lan.pci.pba.getLsbD v = false)
    ∧ (∃ (v : Nat) (s : State), v < 64 ∧ (asserted s v = false ∨ s.evt.armed.getLsbD v = false)
        ∧ s.lan.pci.pba.getLsbD v = true ∧ mayMessage s v = true)
    ∧ (∃ (v : Nat), 64 ≤ v)
    ∧ (∃ (s : State), s.sor.running = true ∧ s.dev.mode ≠ .off ∧ s.dev.mode ≠ .hold)
    ∧ (∃ (s : State), s.sor.running = false)
    ∧ (∃ (s : State), s.sor.restarting = false)
    ∧ (∃ (s : State), s.sor.restarting = true)
    ∧ (∃ (m : Nat) (k : Task) (s : State), s.sor.restarting = true ∧ m < 18 ∧ (s.mailbox m).tasks = [k] ∧ s.dev.mode ≠ .hold)
    ∧ (∃ (m : Nat) (k : Task) (s : State), s.sor.restarting = true ∧ m < 18 ∧ (s.mailbox m).tasks = [k] ∧ s.dev.mode = .hold
        ∧ k.opcode ∈ [0x0504, 0x0505, 0x0506, 0x0602, 0x0703])
    ∧ (∃ (v : Nat) (s : State), v < 2 ^ 32 ∧ s.dev.powered = true) :=
  ⟨⟨383, by decide +kernel⟩,
   ⟨511, by decide +kernel⟩,
   ⟨63, by decide +kernel⟩,
   ⟨63, { BR with evt := { BR.evt with pend := 1, route := [(0, { msixEn := true, vector := 63 })] }, lan := { BR.lan with pci := { BR.lan.pci with linkUp := true, msixTable := [(255, 0)] } } },
       by decide +kernel⟩,
   ⟨63, { BR with evt := { BR.evt with pend := 1, route := [(0, { msixEn := true, vector := 63 })] } }, by decide +kernel⟩,
   ⟨63, BR, by decide +kernel⟩,
   ⟨63, Hp (fun p => { p with linkUp := true, msixTable := [(255, 0)], pba := BitVec.twoPow 64 63 }) BR, by decide +kernel⟩,
   ⟨64, by decide +kernel⟩,
   ⟨BR, by decide +kernel⟩,
   ⟨{ BR with sor := { BR.sor with running := false } }, by decide +kernel⟩,
   ⟨BR, by decide +kernel⟩,
   ⟨{ BR with sor := { BR.sor with restarting := true } }, by decide +kernel⟩,
   ⟨17, tk 7, { Mb 17 { tasks := [tk 7], reserved := 2 } with sor := { B.sor with restarting := true } }, by decide +kernel⟩,
   ⟨17, tk 7, Hd { Mb 17 { tasks := [tk 7], reserved := 2 } with sor := { B.sor with restarting := true } }, by decide +kernel⟩,
   ⟨2 ^ 32 - 1, BR, by decide +kernel⟩⟩

theorem witness_DeviceCommands :
    (∃ (q : CmdCtx) (target : Nat) (s : State), target < 256 ∧ MayIssue q 0x0102 1 s ∧ target ≠ 3 ∧ target ≠ 4)
    ∧ (∃ (q : CmdCtx) (target : Nat) (s : State), target < 256 ∧ MayIssue q 0x0102 1 s ∧ ((target = 4
        ∧ s.dev.mode ≠ .run) ∨ (target = 3 ∧ s.dev.mode ≠ .trim)))
    ∧ (∃ (q : CmdCtx) (target : Nat) (s : State), target < 256 ∧ MayIssue q 0x0102 1 s ∧ ((target = 4
        ∧ s.dev.mode = .run) ∨ (target = 3 ∧ s.dev.mode = .trim)) ∧ s.sor.modeChange ≠ none)
    ∧ (∃ (q : CmdCtx) (target : Nat) (s : State), target < 256 ∧ MayIssue q 0x0102 1 s ∧ target = 4 ∧ s.dev.mode = .run
        ∧ s.sor.modeChange = none ∧ s.clk.phase = .running)
    ∧ (∃ (q : CmdCtx) (target : Nat) (s : State), target < 256 ∧ MayIssue q 0x0102 1 s ∧ target = 4 ∧ s.dev.mode = .run
        ∧ s.sor.modeChange = none ∧ s.clk.phase = .running ∧ s.clk.lock = true ∧ s.clk.coast = false ∧ s.clk.rampWait = false
        ∧ s.clk.rampHolds = false ∧ s.lan.quads = [] ∧ (∀ d, d < 4 → (s.clk.div d).ratio = (s.clk.div d).trim))
    ∧ (∃ (q : CmdCtx) (target : Nat) (s : State), target < 256 ∧ MayIssue q 0x0102 1 s ∧ target = 3 ∧ s.dev.mode = .trim
        ∧ s.sor.modeChange = none ∧ s.clk.phase = .running ∧ s.clk.rampHolds = false ∧ s.clk.rampWait = false ∧ (∀ k, k < 20
        → (s.quad k).trimSlept = false))
    ∧ (∃ (q : CmdCtx) (s : State), MayIssue q 0x0103 0 s ∧ s.dev.mode ≠ .off ∧ s.dev.mode ≠ .hold)
    ∧ (∃ (q : CmdCtx) (m : Nat) (s : State), 17 < m ∧ m < 256 ∧ MayIssue q 0x0105 1 s)
    ∧ (∃ (q : CmdCtx) (s : State), MayIssue q 0x0104 0 s)
    ∧ (∃ (s : State), s.sor.restart = none)
    ∧ (∃ (s : State), (s.sor.restart = some .reset ∨ s.sor.restart = some .restart) ∧ s.dev.mode ≠ .off ∧ s.dev.cfgMode < 8)
    ∧ (∃ (s : State), s.sor.restart = some .lifecycle)
    ∧ (∃ (q : CmdCtx) (addr : Nat) (size : Nat) (data : List Byte) (s : State), ReadsPlain (mbxClass q.mbx) 2 addr size data s
        ∧ addr < 2 ^ 64 ∧ (size = 4 ∨ size = 8 ∨ size = 32) ∧ addr % size = 0 ∧ 2 ^ 26 ≤ addr ∧ data.length = size
        ∧ MayIssue q 0x0E02 9 s)
    ∧ (∃ (q : CmdCtx) (addr : Nat) (size : Nat) (s : State), addr < 2 ^ 64 ∧ size < 256 ∧ ((size ≠ 4 ∧ size ≠ 8
        ∧ size ≠ 32) ∨ addr % size ≠ 0) ∧ MayIssue q 0x0E02 9 s)
    ∧ (∃ (q : CmdCtx) (addr : Nat) (size : Nat) (data : List Byte) (s : State), addr < 2 ^ 64 ∧ size < 256 ∧ ((size ≠ 4
        ∧ size ≠ 8 ∧ size ≠ 32) ∨ addr % size ≠ 0) ∧ MayIssue q 0x0E03 (16 + data.length) s)
    ∧ (∃ (q : CmdCtx) (addr : Nat) (size : Nat) (data : List Byte) (s : State) (w : State),
        (∀ (m : List (Nat × Mailbox)) (u : Sorrel) (a : Lcs),
        deviceWrite (mbxClass q.mbx) 2 addr data { s with mbx := m, sor := u, sec := { s.sec with lcs := a } } = (rOk,
        { w with mbx := m, sor := u, sec := { s.sec with lcs := a } })) ∧ addr < 2 ^ 64 ∧ (size = 4 ∨ size = 8 ∨ size = 32)
        ∧ addr % size = 0 ∧ 2 ^ 26 ≤ addr ∧ data.length = size ∧ MayIssue q 0x0E03 (16 + size) s ∧ w.sor = s.sor
        ∧ w.tim = s.tim ∧ w.mbx = s.mbx ∧ w.sec = s.sec ∧ w.pending = s.pending ∧ w.fuse = s.fuse)
    ∧ (∃ (q : CmdCtx) (addr : Nat) (size : Nat) (s : State), (∀ (m : List (Nat × Mailbox)) (u : Sorrel) (a : Lcs),
        rightsJudge (mbxClass q.mbx) 0 true false addr (size - 1) { s with mbx := m, sor := u, sec := { s.sec with lcs := a } } = (true,
        { s with mbx := m, sor := u, sec := { s.sec with lcs := a } })) ∧ addr % size = 0 ∧ addr + size ≤ 2 ^ 26
        ∧ MayIssue q 0x0E02 9 s ∧ (size = 4 ∨ size = 8 ∨ size = 32) ∧ size = 32)
    ∧ (∃ (q : CmdCtx) (addr : Nat) (size : Nat) (data : List Byte) (s : State),
        (∀ (m : List (Nat × Mailbox)) (u : Sorrel) (a : Lcs),
        rightsJudge (mbxClass q.mbx) 0 true false addr (size - 1) { s with mbx := m, sor := u, sec := { s.sec with lcs := a } } = (true,
        { s with mbx := m, sor := u, sec := { s.sec with lcs := a } }))
        ∧ (∀ (m : List (Nat × Mailbox)) (u : Sorrel) (a : Lcs), regReadBytes (sourcePort ⟨1,
        0⟩) addr size { s with mbx := m, sor := u, sec := { s.sec with lcs := a } } = (data,
        { s with mbx := m, sor := u, sec := { s.sec with lcs := a } })) ∧ addr % size = 0 ∧ addr + size ≤ 2 ^ 26
        ∧ MayIssue q 0x0E02 9 s ∧ (size = 4 ∨ size = 8 ∨ size = 32) ∧ size ≠ 32 ∧ data.length = size)
    ∧ (∃ (q : CmdCtx) (addr : Nat) (size : Nat) (data : List Byte) (s : State),
        (∀ (m : List (Nat × Mailbox)) (u : Sorrel) (a : Lcs),
        rightsJudge (mbxClass q.mbx) 0 false true addr (size - 1) { s with mbx := m, sor := u, sec := { s.sec with lcs := a } } = (true,
        { s with mbx := m, sor := u, sec := { s.sec with lcs := a } })) ∧ addr % size = 0 ∧ addr + size ≤ 2 ^ 26
        ∧ (size = 4 ∨ size = 8 ∨ size = 32) ∧ data.length = size ∧ MayIssue q 0x0E03 (16 + size) s ∧ size = 32)
    ∧ (∃ (q : CmdCtx) (addr : Nat) (size : Nat) (data : List Byte) (s : State),
        (∀ (m : List (Nat × Mailbox)) (u : Sorrel) (a : Lcs),
        rightsJudge (mbxClass q.mbx) 0 false true addr (size - 1) { s with mbx := m, sor := u, sec := { s.sec with lcs := a } } = (true,
        { s with mbx := m, sor := u, sec := { s.sec with lcs := a } })) ∧ addr % size = 0 ∧ addr + size ≤ 2 ^ 26
        ∧ (size = 4 ∨ size = 8 ∨ size = 32) ∧ data.length = size ∧ MayIssue q 0x0E03 (16 + size) s ∧ size = 4
        ∧ addr = 0x00201008)
    ∧ (∃ (q : CmdCtx) (n : Nat) (s : State), n < 2 ^ 16 ∧ MayIssue q 0x0E04 2 s ∧ n ≤ 383 ∧ (lifecycle s.fuse ≠ 2 ∨ 335 < n))
    ∧ (∃ (q : CmdCtx) (n : Nat) (s : State), n < 2 ^ 16 ∧ MayIssue q 0x0E04 2 s ∧ 383 < n)
    ∧ (∃ (q : CmdCtx) (n : Nat) (s : State), n < 2 ^ 16 ∧ MayIssue q 0x0E04 2 s ∧ n ≤ 335 ∧ lifecycle s.fuse = 2) :=
  ⟨⟨Q, 255, B, by decide +kernel⟩,
   ⟨Q, 3, B, by decide +kernel⟩,
   ⟨Q, 4, { B with sor := { B.sor with modeChange := some ⟨true⟩ } }, by decide +kernel⟩,
   ⟨Q, 4, B, by decide +kernel⟩,
   ⟨Q, 4, { B with clk := { B.clk with div1 := ⟨128, 128, 128⟩, div2 := ⟨256, 256, 256⟩ } }, by decide +kernel⟩,
   ⟨Q, 3, Bd fun d => { d with mode := .trim }, by decide +kernel⟩,
   ⟨Q, B, by decide +kernel⟩,
   ⟨Q, 18, B, by decide +kernel⟩,
   ⟨Q, B, by decide +kernel⟩,
   ⟨B, by decide +kernel⟩,
   ⟨{ B with sor := { B.sor with restart := some .reset } }, by decide +kernel⟩,
   ⟨{ B with sor := { B.sor with restart := some .lifecycle } }, by decide +kernel⟩,
   ⟨Q, A0, 4, [0, 0, 0, 0], BD, by intro _ _ _; cbv, by decide +kernel⟩,
   ⟨Q, 1, 4, BD, by decide +kernel⟩,
   ⟨Q, 1, 4, [1, 2, 3, 4], BD, by decide +kernel⟩,
   ⟨Q, 0x100000000, 32, List.replicate 32 0, S1, S1, zero_write, by decide +kernel⟩,
   ⟨Q, 2 ^ 26 - 32, 32, BD, by intro _ _ _; cbv, by decide +kernel⟩,
   ⟨Q, 0x00201008, 4, leBytes 4 BD.gov.waitWarn, BD, by intro _ _ _; cbv, by intro _ _ _; cbv, by decide +kernel⟩,
   ⟨Q, 2 ^ 26 - 32, 32, List.replicate 32 7, BD, by intro _ _ _; cbv, by decide +kernel⟩,
   ⟨Q, 0x00201008, 4, [1, 2, 3, 4], BD, by intro _ _ _; cbv, by decide +kernel⟩,
   ⟨Q, 383, B, by decide +kernel⟩,
   ⟨Q, 384, B, by decide +kernel⟩,
   ⟨Q, 335, { B with fuse := { lifecycle := 0b110000 } }, by decide +kernel⟩⟩

end Sys2Proof.Tests
end

section
/-! SUPPORT. The compute instructions of the engines (R233 to R238): what one issue of an instruction that writes a register
does, the bits of each value, and what the decoder says of the fields. -/

namespace Sys2Proof.Machine

/-! ### Frames: only contexts, engines and mailboxes change -/

/-- Beside the contexts, the engines and the mailboxes, `t` is `s`: the first part of `OnlyContext`. -/
def EngineFrame (s t : State) : Prop :=
  t = { s with eng := { s.eng with ctxs := t.eng.ctxs, engines := t.eng.engines }, mbx := t.mbx }

theorem EngineFrame.trans {s u t : State} (hu : EngineFrame s u) (ht : EngineFrame u t) : EngineFrame s t :=
  Eq.trans ht (by rw [hu])

/-- The queue and the fuses that `effect` puts back were not changed. -/
theorem EngineFrame.restore {s u : State} (h : EngineFrame s u) :
    EngineFrame s { u with pending := s.pending, fuse := s.fuse } := by
  unfold EngineFrame
  rw [h]

theorem engineFrame_modCtx (i : Nat) (g : Ctx → Ctx) (s : State) : EngineFrame s (s.modCtx i g) := rfl

theorem engineFrame_reapStops (s : State) : EngineFrame s (reapStops s) := by
  unfold EngineFrame
  rw [reapStops_frame]

theorem engineFrame_countEword (d : Bool) (n w : Nat) (s : State) : EngineFrame s (countEword d n w s) := by
  unfold countEword
  split <;> rfl

theorem engineFrame_run (n k : Nat) (s : State) : EngineFrame s (run n k s) := rfl

@[simp] theorem reapStops_ctx (s : State) (j : Nat) : (reapStops s).ctx j = s.ctx j := by
  rw [State.ctx, reapStops_eng, State.ctx]

@[simp] theorem reapStops_engine (s : State) (j : Nat) : (reapStops s).engine j = s.engine j := by
  rw [State.engine, reapStops_eng, State.engine]

/-! ### Counting an error of the fetched word (R186) -/

@[simp] theorem countEword_ctx (d : Bool) (n w : Nat) (s : State) (j : Nat) :
    (countEword d n w s).ctx j = s.ctx j := by
  unfold countEword
  split <;> rfl

theorem countEword_engine_ne (d : Bool) (n w : Nat) (s : State) {m : Nat} (h : m ≠ n) :
    (countEword d n w s).engine m = s.engine m := by
  unfold countEword
  split
  · rfl
  · exact modEngine_engine_ne _ _ _ _ h
  · exact modEngine_engine_ne _ _ _ _ h

/-- The count touches neither flag that GET shows. -/
theorem countEword_engine_flags (d : Bool) (n w : Nat) (s : State) (m : Nat) :
    ((countEword d n w s).engine m).timeInvalid = (s.engine m).timeInvalid
      ∧ ((countEword d n w s).engine m).postedErr = (s.engine m).postedErr := by
  by_cases hm : m = n
  · subst hm
    unfold countEword
    split
    · exact ⟨rfl, rfl⟩
    all_goals
      rw [modEngine_engine_self]
      cases d <;> exact ⟨rfl, rfl⟩
  · rw [countEword_engine_ne d n w s hm]
    exact ⟨rfl, rfl⟩

/-! ### The selected context runs (R189, R190) -/

theorem forEach_append (l l' : List Nat) (f : Nat → State → State) (s : State) :
    forEach (l ++ l') f s = forEach l' f (forEach l f s) := List.foldl_append

/-- Changing `N` contexts from `b` on, one after the other. -/
theorem forEach_range_modCtx_ctx (b N m : Nat) (f : Nat → Ctx → Ctx) (s : State) :
    (forEach (List.range N) (fun j a => a.modCtx (b + j) (f j)) s).ctx m
      = if b ≤ m ∧ m < b + N then f (m - b) (s.ctx m) else s.ctx m := by
  induction N with
  | zero => rw [if_neg (by omega)]; rfl
  | succ N ih =>
    rw [List.range_succ, forEach_append, forEach_cons, forEach_nil, modCtx_ctx]
    by_cases hm : m = b + N
    · subst hm
      rw [if_pos rfl, ih, if_neg (by omega), if_pos (by omega), Nat.add_sub_cancel_left]
    · rw [if_neg hm, ih]
      exact ite_congr (propext (by omega)) (fun _ => rfl) (fun _ => rfl)

theorem run_ctx_self {n k : Nat} (hk : k < 4) (s : State) :
    (run n k s).ctx (4 * n + k) = { s.ctx (4 * n + k) with state := .running } := by
  rw [run, forEach_range_modCtx_ctx, if_pos (by omega), if_pos (by omega)]

theorem run_ctx_sibling {n k j : Nat} (hj : j < 4) (hjk : j ≠ k) (s : State) :
    (run n k s).ctx (4 * n + j) = if (s.ctx (4 * n + j)).state = .running
      then { s.ctx (4 * n + j) with state := .ready } else s.ctx (4 * n + j) := by
  rw [run, forEach_range_modCtx_ctx, if_pos (by omega), if_neg (by omega)]

theorem run_ctx_elsewhere {n m : Nat} (k : Nat) (hm : m / 4 ≠ n) (s : State) : (run n k s).ctx m = s.ctx m := by
  rw [run, forEach_range_modCtx_ctx, if_neg (by omega)]

@[simp] theorem run_engine (n k : Nat) (s : State) (m : Nat) : (run n k s).engine m = s.engine m := rfl

/-! ### One issue (R190, R227) -/

/-- The state in which a fetched instruction does its work: the fetch counted, the context RUNNING. -/
def fetched (n k : Nat) (s : State) : State :=
  run n k (countEword false n ((s.ctx (4 * n + k)).pc.toNat / 2) s)

theorem Issues.ctx_lt {n k : Nat} {i : EngInstr} {s : State} (h : Issues n k i s) : k < 4 := by
  obtain ⟨hmay, -⟩ := h
  simp only [mayIssue, Bool.and_eq_true, decide_eq_true_eq] at hmay
  obtain ⟨⟨hk, -⟩, -⟩ := hmay
  exact hk

theorem Issues.decoded {n k : Nat} {i : EngInstr} {s : State} (h : Issues n k i s) :
    ∃ w, fetchWord s n (s.ctx (4 * n + k)).pc = some w ∧ engDecode w = some i := by
  obtain ⟨-, hword⟩ := h
  exact Option.bind_eq_some_iff.mp hword

theorem engineFrame_fetched (n k : Nat) (s : State) : EngineFrame s (fetched n k s) :=
  (engineFrame_countEword _ _ _ s).trans (engineFrame_run _ _ _)

theorem fetched_ctx_self {n k : Nat} (hk : k < 4) (s : State) :
    (fetched n k s).ctx (4 * n + k) = { s.ctx (4 * n + k) with state := .running } := by
  rw [fetched, run_ctx_self hk, countEword_ctx]

theorem fetched_ctx_sibling {n k j : Nat} (hj : j < 4) (hjk : j ≠ k) (s : State) :
    (fetched n k s).ctx (4 * n + j) = if (s.ctx (4 * n + j)).state = .running
      then { s.ctx (4 * n + j) with state := .ready } else s.ctx (4 * n + j) := by
  rw [fetched, run_ctx_sibling hj hjk, countEword_ctx]

theorem fetched_ctx_elsewhere {n m : Nat} (k : Nat) (hm : m / 4 ≠ n) (s : State) : (fetched n k s).ctx m = s.ctx m := by
  rw [fetched, run_ctx_elsewhere k hm, countEword_ctx]

theorem fetched_engine_ne {n m : Nat} (k : Nat) (s : State) (hm : m ≠ n) : (fetched n k s).engine m = s.engine m := by
  rw [fetched, run_engine, countEword_engine_ne _ _ _ _ hm]

theorem fetched_engine_flags (n k : Nat) (s : State) (m : Nat) :
    ((fetched n k s).engine m).timeInvalid = (s.engine m).timeInvalid
      ∧ ((fetched n k s).engine m).postedErr = (s.engine m).postedErr := by
  rw [fetched, run_engine]
  exact countEword_engine_flags _ _ _ _ _

/-- R228: an instruction's sources are the registers as they were before the issue. -/
theorem fetched_reg {n k : Nat} (hk : k < 4) (s : State) (r : Nat) :
    ((fetched n k s).ctx (4 * n + k)).reg r = (s.ctx (4 * n + k)).reg r := by
  rw [fetched_ctx_self hk]
  rfl

/-- A row whose instruction is the one that its context issues performs it. -/
theorem exec_of_issues {c : Instr} {is : EngInstr → Bool} {i : EngInstr} {n k : Nat} {s : State}
    (hc : exec c s = effect (issue is n k) s) (his : is i = true) (h : Issues n k i s) :
    exec c s = .next { reapStops (perform n k i (fetched n k s)) with pending := s.pending, fuse := s.fuse } := by
  obtain ⟨w, hw, hi⟩ := h.decoded
  obtain ⟨hmay, -⟩ := h
  have hissue : issue is n k s = reapStops (perform n k i (fetched n k s)) := by
    simp only [issue, hmay, hw, hi, his, Bool.not_true, Bool.false_eq_true, if_false, if_true, fetched]
  rw [hc, effect, hissue]

/-! ### An instruction that writes one register -/

theorem reg_setReg (c : Ctx) (d : Nat) (v : BitVec 64) (r : Nat) :
    (c.setReg d v).reg r = if r = d then v else c.reg r := tget_tset _ _ _ _ _

/-- What stands in the issuing context after the write. -/
theorem writeReg_fetched_ctx_self {n k : Nat} (hk : k < 4) (d : Nat) (v : BitVec 64) (s : State) :
    (writeReg n k d v (fetched n k s)).ctx (4 * n + k)
      = (Ctx.setReg { s.ctx (4 * n + k) with state := .running } d v).advance := by
  rw [writeReg, onCtx, modCtx_ctx_self, fetched_ctx_self hk]

theorem writeReg_ctx_ne (n k d : Nat) (v : BitVec 64) (s : State) {m : Nat} (h : m ≠ 4 * n + k) :
    (writeReg n k d v s).ctx m = s.ctx m := modCtx_ctx_ne _ _ _ _ h

theorem writeReg_engine (n k d : Nat) (v : BitVec 64) (s : State) (m : Nat) :
    (writeReg n k d v s).engine m = s.engine m := rfl

theorem wrote_of_ctx_eq {n k d : Nat} {v : BitVec 64} {s t : State}
    (h : t.ctx (4 * n + k) = (Ctx.setReg { s.ctx (4 * n + k) with state := .running } d v).advance) :
    Wrote n k d v s t := by
  unfold Wrote
  rw [h]
  exact ⟨(reg_setReg _ d v d).trans (if_pos rfl), fun r hr => (reg_setReg _ d v r).trans (if_neg hr), rfl, rfl⟩

/-- R228: a row whose instruction only writes `v` to register `d` does that and nothing else. -/
theorem answers_of_writeReg {c : Instr} {is : EngInstr → Bool} {i : EngInstr} {n k d : Nat} {v : BitVec 64} {s : State}
    (hc : exec c s = effect (issue is n k) s) (his : is i = true) (h : Issues n k i s)
    (hp : perform n k i (fetched n k s) = writeReg n k d v (fetched n k s)) :
    Answers c s fun t => Wrote n k d v s t ∧ OnlyContext n k s t := by
  have hk := h.ctx_lt
  refine ⟨_, exec_of_issues hc his h, ?_⟩
  rw [hp]
  refine ⟨wrote_of_ctx_eq ((reapStops_ctx _ _).trans (writeReg_fetched_ctx_self hk d v s)), ?_, ?_, ?_, ?_⟩
  · exact (((engineFrame_fetched n k s).trans (engineFrame_modCtx _ _ _)).trans (engineFrame_reapStops _)).restore
  · intro j hj
    exact (reapStops_ctx _ j).trans ((writeReg_ctx_ne n k d v _ (by omega)).trans (fetched_ctx_elsewhere k hj s))
  · intro j hj hjk
    exact (reapStops_ctx _ _).trans ((writeReg_ctx_ne n k d v _ (by omega)).trans (fetched_ctx_sibling hj hjk s))
  · intro m hm
    exact (reapStops_engine _ m).trans ((writeReg_engine n k d v _ m).trans (fetched_engine_ne k s hm))

/-! ### The value each instruction writes -/

theorem answers_alu {n k fn d a b : Nat} {s : State} (h : Issues n k (.alu fn d a b) s) : Answers (.alu n k) s fun t =>
    Wrote n k d (aluOp fn ((s.ctx (4 * n + k)).reg a) ((s.ctx (4 * n + k)).reg b)) s t ∧ OnlyContext n k s t :=
  answers_of_writeReg rfl rfl h (by simp only [perform, fetched_reg h.ctx_lt])

theorem answers_shi {n k d a kind m : Nat} {s : State} (h : Issues n k (.shi d a kind m) s) : Answers (.shi n k) s fun t =>
    Wrote n k d (shiOp kind m ((s.ctx (4 * n + k)).reg a)) s t ∧ OnlyContext n k s t :=
  answers_of_writeReg rfl rfl h (by simp only [perform, fetched_reg h.ctx_lt])

theorem answers_ext {n k d a pos len : Nat} {s : State} (h : Issues n k (.ext d a pos len) s) :
    Answers (.ext n k) s fun t => Wrote n k d (extOp pos len ((s.ctx (4 * n + k)).reg a)) s t ∧ OnlyContext n k s t :=
  answers_of_writeReg rfl rfl h (by simp only [perform, fetched_reg h.ctx_lt])

theorem answers_ins {n k d a pos len : Nat} {s : State} (h : Issues n k (.ins d a pos len) s) :
    Answers (.ins n k) s fun t =>
      Wrote n k d (insOp pos len ((s.ctx (4 * n + k)).reg a) ((s.ctx (4 * n + k)).reg d)) s t ∧ OnlyContext n k s t :=
  answers_of_writeReg rfl rfl h (by simp only [perform, fetched_reg h.ctx_lt])

theorem answers_movw {n k d lane imm : Nat} {keep : Bool} {s : State} (h : Issues n k (.movw d lane keep imm) s) :
    Answers (.movw n k) s fun t =>
      Wrote n k d (movwOp lane keep imm ((s.ctx (4 * n + k)).reg d)) s t ∧ OnlyContext n k s t :=
  answers_of_writeReg rfl rfl h (by simp only [perform, fetched_reg h.ctx_lt])

theorem answers_addi {n k d a imm : Nat} {s : State} (h : Issues n k (.addi d a imm) s) : Answers (.addi n k) s fun t =>
    Wrote n k d ((s.ctx (4 * n + k)).reg a + sext64 18 imm) s t ∧ OnlyContext n k s t :=
  answers_of_writeReg rfl rfl h (by simp only [perform, fetched_reg h.ctx_lt])

theorem answers_andi {n k d a imm : Nat} {s : State} (h : Issues n k (.andi d a imm) s) : Answers (.andi n k) s fun t =>
    Wrote n k d ((s.ctx (4 * n + k)).reg a &&& BitVec.ofNat 64 imm) s t ∧ OnlyContext n k s t :=
  answers_of_writeReg rfl rfl h (by simp only [perform, fetched_reg h.ctx_lt])

theorem answers_ori {n k d a imm : Nat} {s : State} (h : Issues n k (.ori d a imm) s) : Answers (.ori n k) s fun t =>
    Wrote n k d ((s.ctx (4 * n + k)).reg a ||| BitVec.ofNat 64 imm) s t ∧ OnlyContext n k s t :=
  answers_of_writeReg rfl rfl h (by simp only [perform, fetched_reg h.ctx_lt])

theorem answers_xori {n k d a imm : Nat} {s : State} (h : Issues n k (.xori d a imm) s) : Answers (.xori n k) s fun t =>
    Wrote n k d ((s.ctx (4 * n + k)).reg a ^^^ BitVec.ofNat 64 imm) s t ∧ OnlyContext n k s t :=
  answers_of_writeReg rfl rfl h (by simp only [perform, fetched_reg h.ctx_lt])

/-- R238: nothing that GET shows is changed by the issue of GET itself. -/
theorem getValue_fetched {n k : Nat} (hk : k < 4) (sel : Nat) (s : State) :
    getValue (fetched n k s) n k sel = getValue s n k sel := by
  have hframe := engineFrame_fetched n k s
  have hflags := fetched_engine_flags n k s n
  have hnow : (fetched n k s).now = s.now := by rw [hframe]; rfl
  have hpend : engPend (fetched n k s) n = engPend s n := by rw [hframe]; rfl
  have hlead : leadTicks (fetched n k s) = leadTicks s := by rw [hframe]; rfl
  simp only [getValue, fetched_ctx_self hk, hflags, hnow, hpend, hlead]

theorem answers_get {n k d sel : Nat} {s : State} (h : Issues n k (.get d sel) s) : Answers (.get n k) s fun t =>
    Wrote n k d (getValue s n k sel) s t ∧ OnlyContext n k s t :=
  answers_of_writeReg rfl rfl h (by simp only [perform, getValue_fetched h.ctx_lt])

/-! ### The bits of the values (R233 to R238) -/

/-- R233: the signed minimum and maximum of ALU are one of the sources. -/
theorem aluOp_min_signed (x y : BitVec 64) :
    (aluOp 9 x y = x ∨ aluOp 9 x y = y) ∧ (aluOp 9 x y).toInt = min x.toInt y.toInt := by
  simp only [aluOp]
  split
  · exact ⟨.inl rfl, by omega⟩
  · exact ⟨.inr rfl, by omega⟩

theorem aluOp_max_signed (x y : BitVec 64) :
    (aluOp 10 x y = x ∨ aluOp 10 x y = y) ∧ (aluOp 10 x y).toInt = max x.toInt y.toInt := by
  simp only [aluOp]
  split
  · exact ⟨.inr rfl, by omega⟩
  · exact ⟨.inl rfl, by omega⟩

theorem aluOp_min_unsigned (x y : BitVec 64) : (aluOp 11 x y).toNat = min x.toNat y.toNat := by
  simp only [aluOp]
  split <;> omega

theorem aluOp_max_unsigned (x y : BitVec 64) : (aluOp 12 x y).toNat = max x.toNat y.toNat := by
  simp only [aluOp]
  split <;> omega

theorem aluOp_mul (x y : BitVec 64) : aluOp 8 x y = BitVec.ofNat 64 (x.toNat * y.toNat) :=
  BitVec.eq_of_toNat_eq (by simp [aluOp])

theorem getLsbD_sshiftRight_eq_min (x : BitVec 64) (m : Nat) {j : Nat} (hj : j < 64) :
    (x.sshiftRight m).getLsbD j = x.getLsbD (min 63 (j + m)) := by
  rw [BitVec.getLsbD_sshiftRight, BitVec.msb_eq_getLsbD_last]
  by_cases h : m + j < 64
  · simp [h, show ¬ 64 ≤ j by omega, show min 63 (j + m) = m + j by omega]
  · simp [h, show ¬ 64 ≤ j by omega, show min 63 (j + m) = 63 by omega]

theorem getLsbD_rotateRight_eq_mod (x : BitVec 64) {m j : Nat} (hm : m < 64) (hj : j < 64) :
    (x.rotateRight m).getLsbD j = x.getLsbD ((j + m) % 64) := by
  rw [BitVec.getLsbD_rotateRight_of_lt hm]
  by_cases h : j < 64 - m
  · simp [h, show (j + m) % 64 = m + j by omega]
  · simp [h, hj, show (j + m) % 64 = j - (64 - m) by omega]

/-- R234: the bits that SHI's four kinds write. -/
theorem shiOp_getLsbD {kind m : Nat} (x : BitVec 64) (hm : m < 64) {j : Nat} (hj : j < 64) :
    (shiOp kind m x).getLsbD j =
      if kind = 0 then decide (m ≤ j) && x.getLsbD (j - m)
      else if kind = 1 then decide (j + m < 64) && x.getLsbD (j + m)
      else if kind = 2 then x.getLsbD (min 63 (j + m)) else x.getLsbD ((j + m) % 64) := by
  match kind with
  | 0 =>
    have hdec : (!decide (j < m)) = decide (m ≤ j) := by simp [← decide_not]
    exact (BitVec.getLsbD_shiftLeft x m).trans (by rw [decide_eq_true hj, hdec, Bool.true_and, if_pos rfl])
  | 1 =>
    by_cases h : j + m < 64
    · simp [shiOp, h, Nat.add_comm m j]
    · simp [shiOp, h, BitVec.getLsbD_of_ge x (m + j) (by omega)]
  | 2 => exact getLsbD_sshiftRight_eq_min x m hj
  | _ + 3 => exact getLsbD_rotateRight_eq_mod x hm hj

/-- R236: EXT takes the field to bit 0 and clears the rest. -/
theorem extOp_getLsbD (pos len : Nat) (x : BitVec 64) {j : Nat} (hj : j < 64) :
    (extOp pos len x).getLsbD j = (decide (j < lenOf len) && x.getLsbD (pos + j)) := by
  rw [extOp, bits, BitVec.getLsbD_ofNat, decide_eq_true hj, Bool.true_and, Nat.testBit_mod_two_pow,
    Nat.testBit_div_two_pow, Nat.add_comm j pos, BitVec.testBit_toNat]

theorem maskAt_getLsbD (pos len : Nat) {j : Nat} (hj : j < 64) :
    (maskAt pos len).getLsbD j = decide (pos ≤ j ∧ j < pos + len) := by
  rw [maskAt, BitVec.getLsbD_ofNat, Nat.testBit_mul_two_pow, Nat.testBit_two_pow_sub_one]
  by_cases h : pos ≤ j
  · simp [hj, h, show j - pos < len ↔ j < pos + len by omega]
  · simp [h]

/-- R236: INS replaces the bits of the field and keeps the others. -/
theorem insOp_getLsbD (pos len : Nat) (x old : BitVec 64) {j : Nat} (hj : j < 64) :
    (insOp pos len x old).getLsbD j = if pos ≤ j ∧ j < pos + lenOf len then x.getLsbD (j - pos) else old.getLsbD j := by
  rw [insOp, BitVec.getLsbD_or, BitVec.getLsbD_and, BitVec.getLsbD_and, BitVec.getLsbD_not, BitVec.getLsbD_shiftLeft,
    maskAt_getLsbD _ _ hj]
  by_cases h : pos ≤ j ∧ j < pos + lenOf len
  · simp [h, hj, show ¬ j < pos by omega]
  · simp [h, hj]

/-- R237: MOVW replaces one lane of 16 bits; the others stay or become zero. -/
theorem movwOp_getLsbD (lane : Nat) (keep : Bool) (imm : Nat) (old : BitVec 64) {j : Nat} (hj : j < 64) :
    (movwOp lane keep imm old).getLsbD j = if 16 * lane ≤ j ∧ j < 16 * lane + 16 then imm.testBit (j - 16 * lane)
      else keep && old.getLsbD j := by
  rw [movwOp, insOp_getLsbD _ _ _ _ hj]
  refine ite_congr rfl (fun _ => ?_) (fun _ => ?_)
  · rw [BitVec.getLsbD_ofNat, decide_eq_true (by omega : j - 16 * lane < 64), Bool.true_and]
  · cases keep <;> simp

/-- R230: the model's sign extension of a field is that of the field's bits. -/
theorem sext64_eq_signExtend {w : Nat} (hw : 0 < w) (v : Nat) : sext64 w v = (BitVec.ofNat w v).signExtend 64 := by
  obtain ⟨w, rfl⟩ := Nat.exists_eq_succ_of_ne_zero (Nat.ne_of_gt hw)
  have hsgn : sgn (w + 1) v = (BitVec.ofNat (w + 1) v).toInt := by
    rw [sgn, BitVec.toInt_eq_toNat_cond, BitVec.toNat_ofNat, Nat.add_sub_cancel]
    refine ite_congr (propext ?_) (fun _ => ?_) (fun _ => ?_)
    · rw [Nat.pow_succ]; omega
    · norm_cast
    · norm_cast
  rw [sext64, BitVec.signExtend, Nat.succ_eq_add_one, hsgn]

/-- Flags summed at rising bits: below `2 ^ m`, and each bit is its flag. -/
theorem testBit_foldl_b2n (p : Nat → Bool) (m : Nat) :
    (List.range m).foldl (fun a i => a + b2n (p i) * 2 ^ i) 0 < 2 ^ m
      ∧ ∀ i, i < m → ((List.range m).foldl (fun a i => a + b2n (p i) * 2 ^ i) 0).testBit i = p i := by
  induction m with
  | zero => exact ⟨Nat.one_pos, fun i hi => absurd hi (Nat.not_lt_zero i)⟩
  | succ m ih =>
    obtain ⟨hlt, hbit⟩ := ih
    rw [List.range_succ, List.foldl_append, List.foldl_cons, List.foldl_nil]
    refine ⟨?_, fun i hi => ?_⟩
    · have hb : b2n (p m) ≤ 1 := by cases p m <;> decide
      have := Nat.mul_le_mul_right (2 ^ m) hb
      rw [Nat.pow_succ]
      omega
    · rw [Nat.add_comm, Nat.mul_comm, Nat.testBit_two_pow_mul_add _ hlt]
      by_cases him : i < m
      · rw [if_pos him, hbit i him]
      · obtain rfl : i = m := by omega
        rw [if_neg him, Nat.sub_self]
        cases p i <;> rfl

/-- R215, R238: bit `i` of GET 3 is engine `n`'s pending bit of event line `i`. -/
theorem engPend_getLsbD (s : State) (n : Nat) {i : Nat} (hi : i < 16) :
    (BitVec.ofNat 64 (engPend s n)).getLsbD i = (tget 0 s.eng.evtPend i).getLsbD n := by
  rw [BitVec.getLsbD_ofNat, decide_eq_true (by omega : i < 64), Bool.true_and]
  exact (testBit_foldl_b2n (fun i => (tget 0 s.eng.evtPend i).getLsbD n) 16).2 i hi

/-- R238: the three flags of GET 4 stand in bits 0, 1 and 2. -/
theorem flags_getLsbD : ∀ a b c : Bool, let v := BitVec.ofNat 64 (flag a 0 + flag b 1 + flag c 2);
    v.getLsbD 0 = a ∧ v.getLsbD 1 = b ∧ v.getLsbD 2 = c := by decide

/-! ### What the decoder says of the fields (R230, R231) -/

/-- One row of the decoder's table: where `p` selects instruction `e`, `e` has the opcode, and so do the later rows. -/
theorem opcode_of_row {p : Prop} [Decidable p] {op : Nat} {e i : EngInstr} {z z' : Bool} {rest : Option (EngInstr × Bool)}
    (hp : p → e.opcode = op) (hrest : rest = some (i, z) → i.opcode = op) :
    (if p then some (e, z') else rest) = some (i, z) → i.opcode = op := by
  intro h
  by_cases hsel : p
  · rw [if_pos hsel] at h
    obtain ⟨rfl, -⟩ := Prod.mk.inj (Option.some.inj h)
    exact hp hsel
  · rw [if_neg hsel] at h
    exact hrest h

/-- The fields of a word are read by its opcode. -/
theorem decodeFields_opcode {op w : Nat} {i : EngInstr} {z : Bool} :
    decodeFields op w = some (i, z) → i.opcode = op := by
  unfold decodeFields
  iterate 13 refine opcode_of_row Eq.symm ?_
  refine opcode_of_row (fun ⟨hlo, _⟩ => Nat.add_sub_of_le hlo) ?_
  iterate 22 refine opcode_of_row Eq.symm ?_
  exact nofun

/-- A word is decoded when its unused fields are zero and its fields' values are defined. -/
theorem engDecode_eq_some {w : Nat} {i : EngInstr} :
    engDecode w = some i ↔ decodeFields (bits w 26 6) w = some (i, true) ∧ i.wf = true := by
  unfold engDecode
  cases h : decodeFields (bits w 26 6) w with
  | none => simp
  | some p =>
    obtain ⟨e, z⟩ := p
    cases z with
    | false => simp
    | true =>
      simp only [Bool.true_and, Option.ite_none_right_eq_some, Option.some.injEq, Prod.mk.injEq, and_true]
      exact ⟨fun ⟨hwf, he⟩ => ⟨he, he ▸ hwf⟩, fun ⟨he, hwf⟩ => ⟨he ▸ hwf, he⟩⟩

theorem engDecode_fields {w : Nat} {i : EngInstr} (h : engDecode w = some i) :
    decodeFields i.opcode w = some (i, true) := by
  obtain ⟨hfields, -⟩ := engDecode_eq_some.mp h
  rwa [decodeFields_opcode hfields]

theorem engDecode_wf {w : Nat} {i : EngInstr} (h : engDecode w = some i) : i.wf = true := (engDecode_eq_some.mp h).2

theorem engDecode_alu {w fn d a b : Nat} (h : engDecode w = some (.alu fn d a b)) : fn < 16 ∧ (fn = 15 → b = 0) := by
  have hwf := engDecode_wf h
  simp [EngInstr.wf] at hwf
  obtain ⟨⟨⟨⟨hfn, -⟩, -⟩, -⟩, hb⟩ := hwf
  exact ⟨hfn, fun h15 => hb.resolve_left (· h15)⟩

theorem engDecode_shi {w d a kind m : Nat} (h : engDecode w = some (.shi d a kind m)) :
    kind = w / 64 % 4 ∧ m = w % 64 := by
  have hf := engDecode_fields h
  simp [EngInstr.opcode, decodeFields, bits] at hf
  omega

theorem engDecode_ext_or_ins {w d a pos len : Nat}
    (h : engDecode w = some (.ext d a pos len) ∨ engDecode w = some (.ins d a pos len)) :
    pos = w / 64 % 64 ∧ len = w % 64 ∧ w / 2 ^ 12 % 64 = 0 := by
  rcases h with h | h
  all_goals
    have hf := engDecode_fields h
    simp [EngInstr.opcode, decodeFields, bits] at hf
    omega

theorem bit_eq_testBit (v i : Nat) : bit v i = v.testBit i := by
  rw [bit, Nat.testBit_eq_decide_div_mod_eq]
  rfl

theorem engDecode_movw {w d lane imm : Nat} {keep : Bool} (h : engDecode w = some (.movw d lane keep imm)) :
    lane = w / 2 ^ 20 % 4 ∧ keep = w.testBit 19 ∧ imm = w % 2 ^ 16 := by
  have hf := engDecode_fields h
  simp [EngInstr.opcode, decodeFields, bits, bit_eq_testBit] at hf
  obtain ⟨⟨-, hlane, hkeep, himm⟩, -⟩ := hf
  exact ⟨hlane.symm, hkeep.symm, himm.symm⟩

theorem engDecode_get {w d sel : Nat} (h : engDecode w = some (.get d sel)) : sel = w % 2 ^ 18 ∧ sel ≤ 6 := by
  have hf := engDecode_fields h
  have hwf := engDecode_wf h
  simp [EngInstr.opcode, decodeFields, bits] at hf
  simp [EngInstr.wf] at hwf
  omega

theorem Issues.shi_amount_lt {n k d a kind m : Nat} {s : State} (h : Issues n k (.shi d a kind m) s) : m < 64 := by
  obtain ⟨w, -, hw⟩ := h.decoded
  have := engDecode_shi hw
  omega

/-! ### The statement -/

/-- Settles O34: each clause is one of the answers above with the value it writes, or a fact about the decoder. -/
theorem computeInstructions : Obligations.ComputeInstructions := by
  unfold Obligations.ComputeInstructions
  refine ⟨?alu, ?shi, ?ext, ?ins, ?movw, fun w fn d a b => engDecode_alu, fun w d a kind m => engDecode_shi,
    fun w d a pos len => engDecode_ext_or_ins, fun w d lane imm keep => engDecode_movw,
    fun w d sel => engDecode_get, ?addi, fun n k d a imm s => answers_andi, fun n k d a imm s => answers_ori,
    fun n k d a imm s => answers_xori, ?get⟩
  case alu =>
    rintro n k fn d a b s x y h rfl rfl
    refine ⟨_, answers_alu h, ?_⟩
    generalize (s.ctx (4 * n + k)).reg a = x
    generalize (s.ctx (4 * n + k)).reg b = y
    refine ⟨?add, ?sub, ?and, ?or, ?xor, ?shl, ?shr, ?sar, ?mul, ?minSigned, ?maxSigned, ?minUnsigned, ?maxUnsigned,
      ?ltSigned, ?ltUnsigned, ?move⟩ <;> rintro rfl
    case mul => exact aluOp_mul x y
    case minSigned => exact aluOp_min_signed x y
    case maxSigned => exact aluOp_max_signed x y
    case minUnsigned => exact aluOp_min_unsigned x y
    case maxUnsigned => exact aluOp_max_unsigned x y
    all_goals rfl
  case shi =>
    intro n k d a kind m s h
    exact ⟨_, answers_shi h, fun j hj => shiOp_getLsbD _ h.shi_amount_lt hj⟩
  case ext =>
    rintro n k d a pos len l s h rfl
    exact ⟨_, answers_ext h, fun j hj => extOp_getLsbD pos len _ hj⟩
  case ins =>
    rintro n k d a pos len l s h rfl
    exact ⟨_, answers_ins h, fun j hj => insOp_getLsbD pos len _ _ hj⟩
  case movw =>
    intro n k d lane imm keep s h
    exact ⟨_, answers_movw h, fun j hj => movwOp_getLsbD lane keep imm _ hj⟩
  case addi =>
    intro n k d a imm s h
    rw [← sext64_eq_signExtend (by decide)]
    exact answers_addi h
  case get =>
    intro n k d sel s h
    obtain ⟨t, ht, hw, ho⟩ := answers_get h
    refine ⟨t, ht, ho, _, hw, ?tick, ?number, ?deadline, ?events, ?flags, ?posted, ?lead⟩ <;> rintro rfl
    case number =>
      show BitVec.ofNat 64 (n + k * 256) = BitVec.ofNat 64 (n + 256 * k)
      rw [Nat.mul_comm]
    case events => exact fun i hi => engPend_getLsbD s n hi
    case flags => exact flags_getLsbD _ _ _
    all_goals rfl

end Sys2Proof.Machine
end

section
/-! SUPPORT. The servo (R503, R504) and the snapshot (R494): what bringing the readiness words in line does to the timebase,
what each branch of an offset does, and the statement of the servo's events. -/

namespace Sys2Proof.Machine

/-! ### What leaves the timebase alone

Of all that `settle` sets off, only the setting of CLOCK reaches the timebase. -/

theorem foldl_keeps_tim {α : Type} (l : List α) (f : State → α → State) (h : ∀ s a, (f s a).tim = s.tim) (s : State) :
    (l.foldl f s).tim = s.tim := by
  induction l generalizing s with
  | nil => rfl
  | cons a l ih => rw [List.foldl_cons, ih, h]

theorem ite_keeps_tim {c : Prop} [Decidable c] {f : State → State} (h : ∀ s, (f s).tim = s.tim) {s : State} :
    (if c then f s else s).tim = s.tim := by
  split
  · exact h s
  · rfl

@[simp] theorem faultCtx_tim (n k code detail : Nat) (s : State) : (faultCtx n k code detail s).tim = s.tim := by
  simp [faultCtx]

@[simp] theorem timeInvalid_tim (s : State) : (timeInvalid s).tim = s.tim := by
  unfold timeInvalid
  exact (foldl_keeps_tim _ _ (fun _ _ => faultCtx_tim _ _ _ _ _) _).trans
    (forEach_keeps State.tim _ _ (fun _ _ => modEngine_field_tim _ _ _) s)

@[simp] theorem onCurrentSet_tim (s : State) : (onCurrentSet s).tim = s.tim := by
  unfold onCurrentSet
  exact forEach_keeps State.tim _ _ (fun _ _ => modSupply_field_tim _ _ _) _

@[simp] theorem request_tim (kind index credits : Nat) (s : State) : (request kind index credits s).tim = s.tim := by
  unfold request
  dsimp only
  split
  · simp [rejectRequest]
  · rfl

@[simp] theorem chooseLoad_tim (i p : Nat) (s : State) : (chooseLoad i p s).tim = s.tim := by
  simp [chooseLoad, noteChoice]

@[simp] theorem startDrain_tim (i : Nat) (s : State) : (startDrain i s).tim = s.tim := by
  unfold startDrain
  exact forEach_keeps State.tim _ _ (fun _ _ => modTile_field_tim _ _ _) _

@[simp] theorem breakIdle_tim (i : Nat) (s : State) : (breakIdle i s).tim = s.tim := by
  unfold breakIdle
  split <;> rfl

@[simp] theorem evaluate_tim (i : Nat) (s : State) : (evaluate i s).tim = s.tim := by
  unfold evaluate
  dsimp only
  split
  · rfl
  split
  · split
    · exact ite_keeps_tim (chooseLoad_tim _ _)
    · rfl
  split
  · rfl
  split
  · split
    · exact chooseLoad_tim _ _ _
    · rfl
  split
  · exact ite_keeps_tim (startDrain_tim _)
  · rfl

@[simp] theorem evaluateAll_tim (s : State) : (evaluateAll s).tim = s.tim := forEach_keeps State.tim _ _ evaluate_tim s

@[simp] theorem refreshPers_tim (p : Nat) (s : State) : (refreshPers p s).tim = s.tim := by
  unfold refreshPers
  split
  · rfl
  · simp [apply_ite State.tim]

@[simp] theorem queueChanged_tim (q : Nat) (s : State) : (queueChanged q s).tim = s.tim := by
  simp [queueChanged, apply_ite State.tim]

@[simp] theorem answerPop_tim (o : Origin) (q code outcome index : Nat) (item : BitVec 256) (s : State) :
    (answerPop o q code outcome index item s).tim = s.tim := by
  unfold answerPop
  dsimp only
  split
  · rfl
  · rfl
  · split <;> rfl

@[simp] theorem answerHeld_tim (q code : Nat) (s : State) : (answerHeld q code s).tim = s.tim := by
  simp [answerHeld, apply_ite State.tim, foldl_keeps_tim]

@[simp] theorem queueCause_tim (q b : Nat) (s : State) : (queueCause q b s).tim = s.tim := by
  simp [queueCause, apply_ite State.tim]

@[simp] theorem faultQueue_tim (q : Nat) (s : State) : (faultQueue q s).tim = s.tim := by
  simp [faultQueue, apply_ite State.tim]

@[simp] theorem faultPages_tim (p : Nat → Bool) (s : State) : (faultPages p s).tim = s.tim :=
  forEach_keeps State.tim _ _ faultQueue_tim s

theorem ite_onClockSet_tim {c : Prop} [Decidable c] {s : State} :
    (if c then onClockSet s else s).tim = s.tim
      ∨ (if c then onClockSet s else s).tim = { servoClockSet s.tim with running := true } := by
  split
  · exact .inr rfl
  · exact .inl rfl

/-- R489, R504: `settle` changes the timebase only where CLOCK has set. -/
theorem settle_tim (s : State) :
    (settle s).tim = s.tim ∨ (settle s).tim = { servoClockSet s.tim with running := true } := by
  unfold settle
  extract_lets old r
  split
  · exact .inl rfl
  · rw [raiseEvent_tim, ite_keeps_tim evaluateAll_tim, ite_keeps_tim (faultPages_tim _),
      ite_keeps_tim fun s => (reapStops_tim _).trans (timeInvalid_tim s), ite_keeps_tim onCurrentSet_tim]
    exact ite_onClockSet_tim

/-- R504: a servo that is not in COAST keeps its state, flags and counters when the readiness words come in line. -/
theorem settle_tim_of_not_coast {s : State} (h : s.tim.servo ≠ .coast) :
    (settle s).tim = { s.tim with running := (settle s).tim.running } := by
  rcases settle_tim s with ht | ht <;> rw [ht]
  rw [servoClockSet, if_neg h]

/-! ### An offset reaches the servo (R503, R510) -/

/-- An event that leaves the queue and the fuses alone answers the state it makes. -/
theorem effect_of_keeps {f : State → State} {s : State} (hpending : (f s).pending = s.pending)
    (hfuse : (f s).fuse = s.fuse) : effect f s = .next (f s) := by
  rw [effect_next, ← hpending, ← hfuse]

/-- The same of an event whose cause holds. -/
theorem effect_when_of_keeps {c : Bool} {f : State → State} {s : State} (hc : c = true)
    (hpending : (f s).pending = s.pending) (hfuse : (f s).fuse = s.fuse) : effect (when c f) s = .next (f s) := by
  rw [hc]
  exact effect_of_keeps hpending hfuse

/-- A signed number of 64 bits is read back from its two halves. -/
theorem sgn_wrapNat {e : Int} (hlo : -(2 ^ 63) ≤ e) (hhi : e < 2 ^ 63) : sgn 64 (wrapNat 64 e) = e := by
  simp only [sgn, wrapNat]
  omega

/-- TIM_OFFSET_HI and TIM_OFFSET_LO hold `e` (R510), and LAST_OFFSET shows it (R513). -/
def latchOffset (e : Int) (s : State) : State :=
  { s with tim := { s.tim with
    offsetLo := wrapNat 64 e % 2 ^ 32, offsetHi := wrapNat 64 e / 2 ^ 32, lastOffset := e } }

theorem settle_then_event_keeps {c : Prop} [Decidable c] {n : Nat} {s : State} :
    (if c then raiseEvent n (settle s) else settle s).pending = s.pending
      ∧ (if c then raiseEvent n (settle s) else settle s).fuse = s.fuse := by
  split
  · rw [raiseEvent_pendingq, settle_pending, raiseEvent_fuse, settle_fuse]
    exact ⟨rfl, rfl⟩
  · exact ⟨settle_pending s, settle_fuse s⟩

theorem servoOffset_keeps (e : Int) (s : State) :
    (servoOffset e s).pending = s.pending ∧ (servoOffset e s).fuse = s.fuse := by
  unfold servoOffset
  dsimp only
  split
  · exact ⟨rfl, rfl⟩
  split
  · exact ⟨rfl, rfl⟩
  split
  · rw [settle_pending, raiseEvent_pendingq, settle_fuse, raiseEvent_fuse]
    exact ⟨rfl, rfl⟩
  · exact settle_then_event_keeps

/-- The servo writes LAST_OFFSET whatever becomes of the offset, so it may find it written. -/
theorem exec_timOffset {e : Int} (hlo : -(2 ^ 63) ≤ e) (hhi : e < 2 ^ 63) (s : State) :
    exec (.timOffset e) s = .next (servoOffset e (latchOffset e s)) := by
  change execTimOffset e s = _
  simp only [execTimOffset, sgn_wrapNat hlo hhi]
  obtain ⟨hpending, hfuse⟩ := servoOffset_keeps e (latchOffset e s)
  exact effect_of_keeps hpending hfuse

/-! ### The branches of R503 -/

section
variable {e : Int} {s : State}

theorem servoOffset_dropped (h : s.tim.servo = .coast ∨ s.tim.forceHold = true ∨ s.dev.mode = .hold) :
    servoOffset e s = { s with tim := { s.tim with lastOffset := e, offsetDrop := true } } := if_pos h

/-- The first test of R503 fails, and so the offset is not dropped. -/
theorem not_dropped (hs : s.tim.servo ≠ .coast) (hforce : s.tim.forceHold = false) (hmode : s.dev.mode ≠ .hold) :
    ¬ (s.tim.servo = .coast ∨ s.tim.forceHold = true ∨ s.dev.mode = .hold) := by
  simp [hs, hforce, hmode]

theorem servoOffset_ignored (hs : s.tim.servo = .free ∨ s.tim.servo = .grandmaster) (hforce : s.tim.forceHold = false)
    (hmode : s.dev.mode ≠ .hold) : servoOffset e s = { s with tim := { s.tim with lastOffset := e } } := by
  have hcoast : s.tim.servo ≠ .coast := by rcases hs with h | h <;> simp [h]
  exact (if_neg (not_dropped hcoast hforce hmode)).trans (if_pos hs)

/-- ACQUIRE, LOCKED and HOLDOVER take an offset that is not discarded. -/
theorem servoOffset_taken (hs : s.tim.servo = .acquire ∨ s.tim.servo = .locked ∨ s.tim.servo = .holdover)
    (hforce : s.tim.forceHold = false) (hmode : s.dev.mode ≠ .hold) :
    servoOffset e s = if s.tim.stepThresh * 1000 * 2 ^ 16 ≤ e.natAbs then
      settle (raiseEvent 222 { s with tim := { s.tim with
        lastOffset := e, ntOffset := moveOffset s.tim.ntOffset (-e), lockRun := 0, stepped := true, timeValid := false
        servo := .acquire } })
    else
      let t := steer { s.tim with lastOffset := e } e
      let r := judgeLock
        (if t.servo = .holdover then { t with servo := if t.timeValid then .locked else .acquire } else t) e
      if r.2 then raiseEvent 221 (settle { s with tim := r.1 }) else settle { s with tim := r.1 } := by
  have hcoast : s.tim.servo ≠ .coast := by rcases hs with h | h | h <;> simp [h]
  have hignored : ¬ (s.tim.servo = .free ∨ s.tim.servo = .grandmaster) := by rcases hs with h | h | h <;> simp [h]
  exact (if_neg (not_dropped hcoast hforce hmode)).trans (if_neg hignored)

theorem servoOffset_stepped (hs : s.tim.servo = .acquire ∨ s.tim.servo = .locked ∨ s.tim.servo = .holdover)
    (hforce : s.tim.forceHold = false) (hmode : s.dev.mode ≠ .hold)
    (hstep : s.tim.stepThresh * 1000 * 2 ^ 16 ≤ e.natAbs) :
    servoOffset e s = settle (raiseEvent 222 { s with tim := { s.tim with
      lastOffset := e, ntOffset := moveOffset s.tim.ntOffset (-e), lockRun := 0, stepped := true, timeValid := false
      servo := .acquire } }) := by
  rw [servoOffset_taken hs hforce hmode, if_pos hstep]

/-- Below the threshold, in ACQUIRE, the offset steers, and the lock is judged once. -/
theorem servoOffset_steered (hs : s.tim.servo = .acquire) (hforce : s.tim.forceHold = false) (hmode : s.dev.mode ≠ .hold)
    (hstep : e.natAbs < s.tim.stepThresh * 1000 * 2 ^ 16) {t : Tim} {changed : Bool}
    (hjudge : judgeLock (steer { s.tim with lastOffset := e } e) e = (t, changed)) :
    servoOffset e s = if changed then raiseEvent 221 (settle { s with tim := t }) else settle { s with tim := t } := by
  have hholdover : (steer { s.tim with lastOffset := e } e).servo ≠ .holdover := by simp [steer, hs]
  rw [servoOffset_taken (.inl hs) hforce hmode, if_neg (by omega)]
  dsimp only
  rw [if_neg hholdover, hjudge]

end

/-! ### Judging the lock (R504) -/

section
variable {e : Int} {t : Tim}

theorem judgeLock_locks (hs : t.servo = .acquire) (hrun : t.lockCount ≤ t.lockRun) :
    judgeLock t e = ({ t with servo := .locked, timeValid := true }, true) := if_pos ⟨hs, hrun⟩

theorem judgeLock_stays_acquire (hs : t.servo = .acquire) (hrun : t.lockRun < t.lockCount) :
    judgeLock t e = (t, false) := by
  have hlocked : ¬ (t.servo = .locked ∧ 2 * t.lockBound * 2 ^ 16 < e.natAbs) := by simp [hs]
  exact (if_neg fun h => absurd h.2 (by omega)).trans (if_neg hlocked)

/-- An offset beyond LOCK_BOUND steers the rate, by left shifts where the exponents are not negative, and clears
lock_run. -/
theorem steer_outside (hki : 0 ≤ t.kiExp) (hkp : 0 ≤ t.kpExp) (hbound : t.lockBound * 2 ^ 16 < e.natAbs) :
    steer t e = { t with
      integ := clampRate (t.integ - e * 2 ^ t.kiExp.toNat)
      rate := clampRate (clampRate (t.integ - e * 2 ^ t.kiExp.toNat) - e * 2 ^ t.kpExp.toNat)
      lockRun := 0 } := by
  simp only [steer, shiftBy, if_pos hki, if_pos hkp, if_neg (Nat.not_le.mpr hbound)]

theorem steer_inside_lockRun (hbound : e.natAbs ≤ t.lockBound * 2 ^ 16) :
    (steer t e).lockRun = min 15 (t.lockRun + 1) := if_pos hbound

end

/-! ### SERVO_EN and HOLDOVER (R504, R507) -/

theorem exec_servoEnSet {s : State} (h : s.tim.servoEn = false) : exec .servoEnSet s = .next (servoEnSet s) :=
  effect_when_of_keeps (by simp [h]) rfl rfl

theorem servoEnSet_of_free {s : State} (h : s.tim.servo = .free) :
    servoEnSet s = { s with tim := { s.tim with servoEn := true, servo := .acquire, lockRun := 0 } } := by
  simp only [servoEnSet, if_pos h]

theorem holdover_pending (s : State) : (holdover s).pending = s.pending := by
  unfold holdover
  split
  · exact raiseEvent_pendingq _ _
  · rfl

theorem holdover_fuse (s : State) : (holdover s).fuse = s.fuse := by
  unfold holdover
  split
  · exact raiseEvent_fuse _ _
  · rfl

theorem exec_forceHoldSet {s : State} (h : s.tim.forceHold = false) :
    exec .forceHoldSet s = .next (forceHoldSet s) :=
  effect_when_of_keeps (by simp [h]) (holdover_pending _) (holdover_fuse _)

theorem exec_servoTimeout {s : State} (htimeout : s.tim.timeout ≠ 0) (hmode : s.dev.mode ≠ .hold) :
    exec .servoTimeout s = .next (holdover s) :=
  effect_when_of_keeps (by simp [htimeout, hmode]) (holdover_pending _) (holdover_fuse _)

/-! ### The statement -/

/-- Settles O15: each clause is one row of R503 or R504. Locking is read off the state before the readiness words come in
line, for `settle` leaves a servo that is not in COAST as it is. -/
theorem servoEvents : Obligations.ServoEvents := by
  unfold Obligations.ServoEvents
  refine ⟨?dropped, ?ignored, ?stepped, ?steered, ?locked, fun s => rfl, ?enabled, ?disabled, ?forced, ?forcedElsewhere,
    ?released, ?timedOut, ?expired⟩
  case dropped =>
    intro e s hlo hhi hs
    rw [exec_timOffset hlo hhi, servoOffset_dropped (s := latchOffset e s) hs]
    rfl
  case ignored =>
    intro e s hlo hhi hs hforce hmode
    rw [exec_timOffset hlo hhi, servoOffset_ignored (s := latchOffset e s) hs hforce hmode]
    rfl
  case stepped =>
    intro e s hlo hhi hs hforce hmode hstep
    rw [exec_timOffset hlo hhi, servoOffset_stepped (s := latchOffset e s) hs hforce hmode hstep, moveOffset,
      ← Int.sub_eq_add_neg]
    rfl
  case steered =>
    intro e s hlo hhi hs hforce hmode hstep hki hkp hbound hcount
    have hsteer := steer_outside (t := (latchOffset e s).tim) hki hkp hbound
    have hjudge : judgeLock (steer (latchOffset e s).tim e) e = (_, false) :=
      judgeLock_stays_acquire hs (by rw [hsteer]; exact Nat.pos_of_ne_zero hcount)
    rw [exec_timOffset hlo hhi, servoOffset_steered (s := latchOffset e s) hs hforce hmode hstep hjudge, hsteer]
    rfl
  case locked =>
    intro e s hlo hhi hs hforce hmode hstep hbound hrun hcount
    have hlockRun : (steer (latchOffset e s).tim e).lockRun = min 15 (s.tim.lockRun + 1) :=
      steer_inside_lockRun hbound
    have hreached : s.tim.lockCount ≤ (steer (latchOffset e s).tim e).lockRun := by
      rw [hlockRun]
      omega
    rw [Answers, exec_timOffset hlo hhi,
      servoOffset_steered (s := latchOffset e s) hs hforce hmode hstep (judgeLock_locks hs hreached)]
    refine ⟨_, rfl, ?_⟩
    rw [if_pos rfl, raiseEvent_tim, settle_tim_of_not_coast (by simp)]
    exact ⟨rfl, rfl, hlockRun, raiseEvent_pending 221 _ (by decide)⟩
  case enabled =>
    intro s hen hs
    rw [exec_servoEnSet hen, servoEnSet_of_free hs]
  case disabled =>
    exact fun s hen => effect_when_of_keeps hen (settle_pending _) (settle_fuse _)
  case forced =>
    intro s hforce hs
    rw [exec_forceHoldSet hforce, forceHoldSet, holdover, if_pos hs]
  case forcedElsewhere =>
    intro s hforce hacquire hlocked
    rw [exec_forceHoldSet hforce, forceHoldSet, holdover, if_neg (not_or.mpr ⟨hacquire, hlocked⟩)]
  case released =>
    exact fun s hforce => effect_when_of_keeps hforce rfl rfl
  case timedOut =>
    intro s htimeout hmode hs
    rw [exec_servoTimeout htimeout hmode, holdover, if_pos hs, if_neg hmode]
  case expired =>
    exact fun s hs => effect_when_of_keeps (decide_eq_true hs) (by simp) (by simp)

end Sys2Proof.Machine
end

section
/-! SUPPORT. The decision of the current governor (R542 to R545): what is held against each supply and what leaves it
alone, the account that a decision keeps within its budget, and the order in which requests enter a queue. -/

namespace Sys2Proof.Machine

/-! ### The credits in a list of holdings (R542) -/

/-- R542: the sum of the credits in a list of holdings. -/
def creditsOf (held : List (Nat × Nat)) : Nat := (held.map (·.2)).sum

@[simp] theorem creditsOf_nil : creditsOf [] = 0 := rfl

@[simp] theorem creditsOf_cons (e : Nat × Nat) (t : List (Nat × Nat)) : creditsOf (e :: t) = e.2 + creditsOf t := rfl

theorem heldTotal_eq_creditsOf (u : Supply) : heldTotal u = creditsOf u.held := by
  rw [heldTotal, creditsOf, List.sum_eq_foldl, List.foldl_map]

theorem creditsOf_dropLe_le (k : Nat) (t : List (Nat × Nat)) : creditsOf (dropLe k t) ≤ creditsOf t := by
  induction t with
  | nil => exact Nat.le_refl _
  | cons e t ih =>
    rw [dropLe, creditsOf_cons]
    split
    · exact Nat.le_trans ih (Nat.le_add_left _ _)
    · exact Nat.le_refl _

/-- A written value takes the place of what the key read before. On a list out of order more than that is lost, never
gained, so no well-formedness is asked for. -/
theorem creditsOf_tset_le (t : List (Nat × Nat)) (k v : Nat) :
    creditsOf (tset 0 t k v) + tget 0 t k ≤ creditsOf t + v := by
  induction t with
  | nil =>
    rw [tset, tget]
    split <;> simp
  | cons e t ih =>
    obtain ⟨j, w⟩ := e
    rcases Nat.lt_trichotomy j k with hlt | rfl | hgt
    · rw [tset, if_pos hlt, tget, if_neg (by omega), if_neg (by omega), creditsOf_cons, creditsOf_cons]
      omega
    · have hdrop := creditsOf_dropLe_le j t
      rw [tset, if_neg (Nat.lt_irrefl j), tget, if_neg (Nat.lt_irrefl j), if_pos rfl, dropLe,
        if_pos (Nat.le_refl j), creditsOf_cons]
      split
      · omega
      · rw [creditsOf_cons]
        omega
    · have hdrop := creditsOf_dropLe_le k ((j, w) :: t)
      rw [tset, if_neg (by omega), tget, if_pos hgt]
      split
      · omega
      · rw [creditsOf_cons]
        omega

theorem creditsOf_tmod_add_le (t : List (Nat × Nat)) (k c : Nat) :
    creditsOf (tmod 0 t k (· + c)) ≤ creditsOf t + c := by
  have h := creditsOf_tset_le t k (tget 0 t k + c)
  rw [tmod]
  omega

theorem creditsOf_tmod_sub_le (t : List (Nat × Nat)) (k c : Nat) : creditsOf (tmod 0 t k (· - c)) ≤ creditsOf t := by
  have h := creditsOf_tset_le t k (tget 0 t k - c)
  rw [tmod]
  omega

/-- R544: returns free credits and book none. -/
theorem creditsOf_bookReturns_le (u : Supply) : creditsOf (bookReturns u).held ≤ creditsOf u.held := by
  have hfold (l held : List (Nat × Nat)) :
      creditsOf (l.foldl (fun h e => tmod 0 h e.1 (· - e.2)) held) ≤ creditsOf held := by
    induction l generalizing held with
    | nil => exact Nat.le_refl _
    | cons e l ih => exact Nat.le_trans (ih _) (creditsOf_tmod_sub_le _ _ _)
  exact hfold u.returned u.held

theorem grantHead_held {u : Supply} {r : GovReq} {q : List GovReq} (h : u.queue = r :: q) (now stand : Nat) :
    (grantHead now stand u).held = tmod 0 u.held (r.kind * 256 + r.index) (· + r.credits) := by
  simp only [grantHead, h]

/-! ### What leaves the holdings alone

A grant starts something, and that can go far: the end of a ramp can complete a change of mode, bring readiness in line
and set the pager to work. Requests, withdrawals and returns may follow, but all of them wait for a later decision. -/

/-- R542: what is held against each supply. -/
def Gov.holdings (g : Gov) (sp : Nat) : List (Nat × Nat) := (tget {} g.supplies sp).held

theorem supply_held (s : State) (sp : Nat) : (s.supply sp).held = s.gov.holdings sp := rfl

theorem foldl_keeps {α β : Type} (p : State → β) (l : List α) (f : State → α → State)
    (h : ∀ s a, p (f s a) = p s) (s : State) : p (l.foldl f s) = p s := by
  induction l generalizing s with
  | nil => rfl
  | cons a l ih => rw [List.foldl_cons, ih, h]

theorem ite_keeps {β : Type} (p : State → β) {c : Prop} [Decidable c] {f : State → State} (h : ∀ s, p (f s) = p s)
    {s : State} : p (if c then f s else s) = p s := by
  split
  · exact h s
  · rfl

/-- An update of one supply that leaves what is held there leaves what is held anywhere. -/
theorem modSupply_holdings {i : Nat} {g : Supply → Supply} (s : State)
    (hg : ∀ u, (g u).held = u.held := by intro; rfl) : (s.modSupply i g).gov.holdings = s.gov.holdings := by
  funext sp
  rw [← supply_held, ← supply_held, modSupply_supply]
  split
  case isTrue h => rw [h, hg]
  case isFalse => rfl

@[simp] theorem request_holdings (kind index credits : Nat) (s : State) :
    (request kind index credits s).gov.holdings = s.gov.holdings := by
  unfold request
  dsimp only
  split
  · rw [rejectRequest, raiseEvent_gov]
    dsimp only
    split <;> rfl
  · exact modSupply_holdings s

@[simp] theorem withdraw_holdings (kind index : Nat) (s : State) :
    (withdraw kind index s).gov.holdings = s.gov.holdings := modSupply_holdings s

@[simp] theorem giveBack_holdings (kind index credits : Nat) (s : State) :
    (giveBack kind index credits s).gov.holdings = s.gov.holdings := modSupply_holdings s

/-! Spans -/

@[simp] theorem chooseLoad_holdings (i p : Nat) (s : State) : (chooseLoad i p s).gov.holdings = s.gov.holdings :=
  request_holdings _ _ _ _

@[simp] theorem startDrain_holdings (i : Nat) (s : State) : (startDrain i s).gov.holdings = s.gov.holdings :=
  forEach_keeps (·.gov.holdings) _ _ (fun _ _ => congrArg Gov.holdings (modTile_field_gov _ _ _)) _

@[simp] theorem breakIdle_gov (i : Nat) (s : State) : (breakIdle i s).gov = s.gov := by
  unfold breakIdle
  split <;> rfl

@[simp] theorem evaluate_holdings (i : Nat) (s : State) : (evaluate i s).gov.holdings = s.gov.holdings := by
  unfold evaluate
  dsimp only
  split
  · rfl
  split
  · split
    · exact (ite_keeps (·.gov.holdings) (chooseLoad_holdings _ _)).trans (withdraw_holdings _ _ _)
    · exact withdraw_holdings _ _ _
  split
  · rfl
  split
  · split
    · exact chooseLoad_holdings _ _ _
    · rfl
  split
  · exact ite_keeps (·.gov.holdings) (startDrain_holdings _)
  · rfl

@[simp] theorem evaluateAll_holdings (s : State) : (evaluateAll s).gov.holdings = s.gov.holdings :=
  forEach_keeps (·.gov.holdings) _ _ evaluate_holdings s

@[simp] theorem refreshPers_holdings (p : Nat) (s : State) : (refreshPers p s).gov.holdings = s.gov.holdings := by
  unfold refreshPers
  split
  · rfl
  · dsimp only
    rw [evaluate_holdings, breakIdle_gov]
    split <;> rfl

/-! Queues -/

@[simp] theorem queueChanged_holdings (q : Nat) (s : State) : (queueChanged q s).gov.holdings = s.gov.holdings :=
  ite_keeps (·.gov.holdings) (refreshPers_holdings _)

@[simp] theorem answerPop_gov (o : Origin) (q code outcome index : Nat) (item : BitVec 256) (s : State) :
    (answerPop o q code outcome index item s).gov = s.gov := by
  unfold answerPop
  dsimp only
  split
  · rfl
  · rfl
  · split <;> rfl

@[simp] theorem answerHeld_gov (q code : Nat) (s : State) : (answerHeld q code s).gov = s.gov := by
  have hanswers := foldl_keeps State.gov (s.queue q).held (fun a o => answerPop o q code 0 (s.queue q).head 0 a)
    (fun a o => answerPop_gov o _ _ _ _ _ a) s
  unfold answerHeld
  dsimp only
  split <;> exact hanswers

@[simp] theorem queueCause_gov (q b : Nat) (s : State) : (queueCause q b s).gov = s.gov := by
  unfold queueCause
  dsimp only
  split
  · exact raiseEvent_gov _ _
  · rfl

@[simp] theorem faultQueue_holdings (q : Nat) (s : State) : (faultQueue q s).gov.holdings = s.gov.holdings := by
  unfold faultQueue
  split
  · rw [queueChanged_holdings, answerHeld_gov, queueCause_gov, modQueue_field_gov]
  · rfl

@[simp] theorem faultPages_holdings (p : Nat → Bool) (s : State) : (faultPages p s).gov.holdings = s.gov.holdings :=
  forEach_keeps (·.gov.holdings) _ _ faultQueue_holdings s

/-! Readiness and modes -/

@[simp] theorem timeInvalid_gov (s : State) : (timeInvalid s).gov = s.gov := by
  unfold timeInvalid
  refine (foldl_keeps State.gov _ _ (fun _ _ => ?_) _).trans
    (forEach_keeps State.gov _ _ (fun _ _ => modEngine_field_gov _ _ _) s)
  rw [faultCtx, raiseEvent_gov, modCtx_field_gov]

/-- R541: the standing reservation is booked beside the grants, which stand as they were. -/
@[simp] theorem onCurrentSet_holdings (s : State) : (onCurrentSet s).gov.holdings = s.gov.holdings :=
  forEach_keeps (·.gov.holdings) _ _ (fun _ _ => modSupply_holdings _) _

theorem reapStops_timeInvalid_holdings (s : State) :
    (reapStops (timeInvalid s)).gov.holdings = s.gov.holdings := by
  rw [reapStops_gov, timeInvalid_gov]

theorem onClockSet_holdings (s : State) : (onClockSet s).gov.holdings = s.gov.holdings := rfl

@[simp] theorem settle_holdings (s : State) : (settle s).gov.holdings = s.gov.holdings := by
  unfold settle
  extract_lets old r
  split
  · rfl
  · rw [raiseEvent_gov, ite_keeps (·.gov.holdings) evaluateAll_holdings,
      ite_keeps (·.gov.holdings) (faultPages_holdings _),
      ite_keeps (·.gov.holdings) reapStops_timeInvalid_holdings,
      ite_keeps (·.gov.holdings) onCurrentSet_holdings, ite_keeps (·.gov.holdings) onClockSet_holdings]
    rfl

@[simp] theorem finish_gov (op obj status : Nat) (data : List Byte) (s : State) :
    (finish op obj status data s).gov = s.gov := finishIf_gov _ _ _ _ s

@[simp] theorem setMode_gov (m : Mode) (s : State) : (setMode m s).gov = s.gov := by
  unfold setMode
  split
  · rfl
  · exact raiseEvent_gov _ _

@[simp] theorem modeChangeCheck_gov (s : State) : (modeChangeCheck s).gov = s.gov := by
  unfold modeChangeCheck
  split
  · rfl
  split
  · rfl
  split
  · rw [finish_gov, setMode_gov]
  split
  · rfl
  · rw [finish_gov]

/-- R531: a ramp that ends returns what it holds. -/
theorem endRampHold_holdings (s : State) :
    (giveBack kRamp 0 32 { s with clk := { s.clk with rampHolds := false } }).gov.holdings = s.gov.holdings :=
  giveBack_holdings _ _ _ _

@[simp] theorem rampEnd_holdings (s : State) : (rampEnd s).gov.holdings = s.gov.holdings := by
  unfold rampEnd
  split
  · rfl
  · extract_lets _ phased returned
    have hphased : phased.gov = s.gov := by
      unfold phased
      split
      · rfl
      split <;> rfl
    rw [settle_holdings, modeChangeCheck_gov]
    exact (ite_keeps (·.gov.holdings) endRampHold_holdings).trans (congrArg Gov.holdings hphased)

/-! ### What a grant or a stage starts (R550, R551) -/

theorem enterPort_gov (i : Nat) (s : State) : (enterPort i s).gov = s.gov := by
  unfold enterPort setPortQueue
  split <;> rfl

theorem slotGranted_gov (i : Nat) (s : State) : (slotGranted i s).gov = s.gov := enterPort_gov _ _

theorem rampGranted_holdings (s : State) : (rampGranted s).gov.holdings = s.gov.holdings := by
  rw [rampGranted, rampEnd_holdings]
  exact congrArg Gov.holdings (finish_gov _ _ _ _ _)

theorem bramBurst_gov (s : State) : (bramBurst s).gov = s.gov :=
  forEach_keeps State.gov _ _ (fun _ _ => modBmem_field_gov _ _ _) _

/-- R551: a load enters the queue of its port, and a ramp may end at once; every other grant only sets its own unit off. -/
theorem granted_holdings (kind index : Nat) (s : State) : (granted kind index s).gov.holdings = s.gov.holdings := by
  match kind with
  | 0 | 1 | 3 | 4 | 5 | 6 | 7 => rfl
  | 2 => exact congrArg Gov.holdings (slotGranted_gov index s)
  | 8 => exact rampGranted_holdings s
  | _ + 9 =>
    simp only [granted]
    split
    · rw [bramBurst_gov]
    split <;> rfl

theorem becomeResident_holdings (i : Nat) (s : State) : (becomeResident i s).gov.holdings = s.gov.holdings := by
  rw [becomeResident, refreshPers_holdings, finish_gov, modPers_field_gov, slotEvent, raiseEvent_gov]
  rfl

theorem stepDone_holdings (i : Nat) (s : State) : (stepDone i s).gov.holdings = s.gov.holdings :=
  (ite_keeps (·.gov.holdings) (becomeResident_holdings i)).trans rfl

theorem slotStage_holdings (i : Nat) (s : State) : (slotStage i s).gov.holdings = s.gov.holdings := by
  unfold slotStage
  dsimp only
  split
  · rfl
  refine (ite_keeps (·.gov.holdings) (stepDone_holdings i)).trans ?_
  rw [modSlot_field_gov]
  split <;> rfl

/-! ### The accounts (R542) -/

/-- R542: no account is over its budget. The standing reservation of R541 counts here whether or not it is booked, so that
nothing but the holdings can change this. -/
def WithinBudgets (s : State) : Prop :=
  ∀ sp, sp < 3 → standingOf sp + creditsOf (s.gov.holdings sp) ≤ budget sp

theorem booked_le (s : State) (sp : Nat) : booked s sp ≤ standingOf sp + creditsOf (s.gov.holdings sp) := by
  rw [booked, heldTotal_eq_creditsOf, supply_held]
  split <;> omega

theorem booked_of_standing {s : State} (h : s.gov.standing = true) (sp : Nat) :
    booked s sp = standingOf sp + creditsOf (s.gov.holdings sp) := by
  rw [booked, if_pos h, heldTotal_eq_creditsOf, supply_held]

/-- R541: nothing stands against VCC_LANE and VCC_DDR. -/
theorem booked_of_ne_core {sp : Nat} (h : sp ≠ 0) (s : State) :
    booked s sp = standingOf sp + creditsOf (s.gov.holdings sp) := by
  rw [booked, standingOf, if_neg h, ite_self, heldTotal_eq_creditsOf, supply_held]

section
variable {s : State}

theorem withinBudgets_of_booked (hstanding : s.gov.standing = true) (h : ∀ sp, sp < 3 → booked s sp ≤ budget sp) :
    WithinBudgets s := fun sp hsp => booked_of_standing hstanding sp ▸ h sp hsp

theorem WithinBudgets.booked_le_budget (hs : WithinBudgets s) {sp : Nat} (hsp : sp < 3) : booked s sp ≤ budget sp :=
  Nat.le_trans (booked_le s sp) (hs sp hsp)

theorem WithinBudgets.of_holdings_eq {t : State} (hs : WithinBudgets s) (h : t.gov.holdings = s.gov.holdings) :
    WithinBudgets t := by
  rwa [WithinBudgets, h]

theorem WithinBudgets.after_modSupply {i : Nat} {g : Supply → Supply} (hs : WithinBudgets s)
    (hi : i < 3 → standingOf i + creditsOf (g (s.supply i)).held ≤ budget i) : WithinBudgets (s.modSupply i g) := by
  intro sp hsp
  rw [← supply_held, modSupply_supply]
  split
  case isTrue h =>
    subst h
    exact hi hsp
  case isFalse => exact hs sp hsp

/-- R542, R546: the head is granted where it fits, which is to say within the budget. -/
theorem WithinBudgets.after_grantHead {sp : Nat} {r : GovReq} {q : List GovReq} (hs : WithinBudgets s)
    (hq : (s.supply sp).queue = r :: q) (hfits : fits s sp r = true)
    (hbooked : booked s sp = standingOf sp + creditsOf (s.gov.holdings sp)) (now stand : Nat) :
    WithinBudgets (s.modSupply sp (grantHead now stand)) := by
  refine hs.after_modSupply fun _ => ?_
  have hroom : booked s sp + r.credits ≤ budget sp := of_decide_eq_true hfits
  have hgrant := creditsOf_tmod_add_le (s.supply sp).held (r.kind * 256 + r.index) r.credits
  rw [grantHead_held hq]
  rw [supply_held] at hgrant ⊢
  omega

end

/-! ### A decision (R544) -/

/-- Steps 1 to 3 on one supply. -/
def updateQueue (now : Nat) (u : Supply) : Supply := enterNew now (dropWithdrawn now (bookReturns u))

/-- Steps 1 to 3 of a decision. -/
def updateQueues (s : State) : State :=
  forEach (List.range 3) (fun sp a => a.modSupply sp fun u => updateQueue a.now u) s

/-- Step 4 of a decision. -/
def grantHeads (s : State) : State :=
  let s := decideCore s
  let s := decideOther 1 (s.supply 1).queue.length s
  decideOther 2 (s.supply 2).queue.length s

/-- R544, R554: queues are brought up to date in every decision, and grants are made only while the governor grants. -/
theorem decision_eq (s : State) :
    decision s = if granting (updateQueues s) then grantHeads (updateQueues s) else updateQueues s := rfl

theorem modSupply_standing (i : Nat) (g : Supply → Supply) (s : State) :
    (s.modSupply i g).gov.standing = s.gov.standing := rfl

theorem updateQueues_standing (s : State) : (updateQueues s).gov.standing = s.gov.standing :=
  forEach_keeps (·.gov.standing) _ _ (fun _ _ => modSupply_standing _ _ _) s

theorem forEach_preserves {P : State → Prop} {f : Nat → State → State} (h : ∀ i s, P s → P (f i s)) (l : List Nat)
    {s : State} (hs : P s) : P (forEach l f s) := by
  induction l generalizing s with
  | nil => exact hs
  | cons a l ih => exact ih (h a s hs)

section
variable {s : State}

theorem WithinBudgets.after_updateQueues (hs : WithinBudgets s) : WithinBudgets (updateQueues s) := by
  refine forEach_preserves (fun sp s hs => hs.after_modSupply fun hsp => ?_) _ hs
  exact Nat.le_trans (Nat.add_le_add_left (creditsOf_bookReturns_le (s.supply sp)) _) (hs sp hsp)

theorem WithinBudgets.after_decideCore (hs : WithinBudgets s) (hstanding : s.gov.standing = true) :
    WithinBudgets (decideCore s) := by
  unfold decideCore
  split
  · exact hs
  split
  case h_1 => exact hs.of_holdings_eq (ite_keeps (·.gov.holdings) (slotStage_holdings _))
  case h_2 =>
    split
    case h_1 => exact hs
    case h_2 r q hq =>
      split
      case isTrue hfits =>
        exact (hs.after_grantHead hq hfits (booked_of_standing hstanding 0) _ _).of_holdings_eq
          ((granted_holdings _ _ _).trans rfl)
      case isFalse => exact hs

theorem WithinBudgets.after_decideOther {sp : Nat} (hsp : sp ≠ 0) (fuel : Nat) (hs : WithinBudgets s) :
    WithinBudgets (decideOther sp fuel s) := by
  induction fuel generalizing s with
  | zero => exact hs
  | succ fuel ih =>
    unfold decideOther
    split
    case h_1 => exact hs
    case h_2 r q hq =>
      split
      case isTrue hfits =>
        have hgrant := hs.after_grantHead hq hfits (booked_of_ne_core hsp s) s.now 0
        exact ih (hgrant.of_holdings_eq (granted_holdings _ _ _))
      case isFalse => exact hs

theorem WithinBudgets.after_grantHeads (hs : WithinBudgets s) (hstanding : s.gov.standing = true) :
    WithinBudgets (grantHeads s) :=
  ((hs.after_decideCore hstanding).after_decideOther (by decide) _).after_decideOther (by decide) _

theorem WithinBudgets.after_decision (hs : WithinBudgets s) (hstanding : s.gov.standing = true) :
    WithinBudgets (decision s) := by
  rw [decision_eq]
  split
  · exact hs.after_updateQueues.after_grantHeads ((updateQueues_standing s).trans hstanding)
  · exact hs.after_updateQueues

end

/-! ### The order of entry (R545) -/

/-- R545: the order of class, then KIND, then INDEX. -/
def EntersBy (a b : GovReq) : Prop :=
  a.cls < b.cls ∨ (a.cls = b.cls ∧ (a.kind < b.kind ∨ (a.kind = b.kind ∧ a.index ≤ b.index)))

theorem EntersBy.trans {a b c : GovReq} (hab : EntersBy a b) (hbc : EntersBy b c) : EntersBy a c := by
  unfold EntersBy at *
  omega

theorem entersBy_of_before {a b : GovReq} (h : before a b = true) : EntersBy a b := by
  simp only [before, Bool.or_eq_true, Bool.and_eq_true, decide_eq_true_eq] at h
  unfold EntersBy
  omega

theorem entersBy_of_not_before {a b : GovReq} (h : ¬ before a b = true) : EntersBy b a := by
  simp only [before, Bool.or_eq_true, Bool.and_eq_true, decide_eq_true_eq] at h
  unfold EntersBy
  omega

theorem insertReq_perm (r : GovReq) (l : List GovReq) : (insertReq r l).Perm (r :: l) := by
  induction l with
  | nil => exact .refl _
  | cons x l ih =>
    rw [insertReq]
    split
    · exact .refl _
    · exact (ih.cons x).trans (.swap r x l)

theorem insertReq_pairwise {r : GovReq} {l : List GovReq} (h : l.Pairwise EntersBy) :
    (insertReq r l).Pairwise EntersBy := by
  induction l with
  | nil => exact List.pairwise_singleton _ _
  | cons x l ih =>
    obtain ⟨hx, hl⟩ := List.pairwise_cons.mp h
    rw [insertReq]
    split
    case isTrue hr =>
      have hrx := entersBy_of_before hr
      exact h.cons (List.forall_mem_cons.mpr ⟨hrx, fun y hy => hrx.trans (hx y hy)⟩)
    case isFalse hr =>
      refine (ih hl).cons fun y hy => ?_
      rcases List.mem_cons.mp ((insertReq_perm r l).mem_iff.mp hy) with rfl | hy
      · exact entersBy_of_not_before hr
      · exact hx y hy

/-- The new requests as they enter, each inserted among those before it. -/
def sortReqs (l : List GovReq) : List GovReq := l.foldl (fun l r => insertReq r l) []

theorem sortReqs_perm (l : List GovReq) : (sortReqs l).Perm l := by
  have hfold (l acc : List GovReq) : (l.foldl (fun l r => insertReq r l) acc).Perm (l ++ acc) := by
    induction l generalizing acc with
    | nil => exact .refl _
    | cons r l ih => exact (ih _).trans (((insertReq_perm r acc).append_left l).trans List.perm_middle)
  exact (hfold l []).trans (.of_eq (List.append_nil l))

theorem sortReqs_pairwise (l : List GovReq) : (sortReqs l).Pairwise EntersBy := by
  have hfold (l acc : List GovReq) (h : acc.Pairwise EntersBy) :
      (l.foldl (fun l r => insertReq r l) acc).Pairwise EntersBy := by
    induction l generalizing acc with
    | nil => exact h
    | cons r l ih => exact ih _ (insertReq_pairwise h)
  exact hfold l [] .nil

theorem enterNew_queue (now : Nat) (u : Supply) :
    (enterNew now u).queue = u.queue ++ sortReqs (u.newReqs.map fun r => { r with entered := now }) := rfl

/-! ### The statement -/

/-- Settles O14. A decision books credits only where the head of a queue fits, and what its grants start changes no
holding; the queue grows at its tail by the new requests, sorted by insertion. -/
theorem governorGrantsInOrder : Obligations.GovernorGrantsInOrder := by
  unfold Obligations.GovernorGrantsInOrder
  refine ⟨?withinBudget, ?inOrder, ?presented, ?classes⟩
  case withinBudget =>
    intro s t hstanding hbooked hstep sp hsp
    have ht : t = { decision s with pending := s.pending, fuse := s.fuse } := (effect_next decision s t).mp hstep
    have hdecision := (withinBudgets_of_booked hstanding hbooked).after_decision hstanding
    rw [ht]
    exact hdecision.booked_le_budget hsp
  case inOrder => exact fun now u => ⟨_, enterNew_queue now u, sortReqs_pairwise _, sortReqs_perm _⟩
  case presented =>
    intro kind index credits s hfits
    rw [request, hfits]
    rfl
  case classes => decide

end Sys2Proof.Machine
end
